-- ==== Sys2Proof/Word.lean ====
section
/-!
DEFINITION. The machine's register word and memory byte, and the names of the two channel dies.
-/

namespace Sys2Proof

/-- A register word (R862). -/
abbrev Word := BitVec 32

/-- A byte of the loft, the yard, a tile buffer or host memory. -/
abbrev Byte := BitVec 8

/-- One of the two identical channel dies (R12). -/
inductive Ch where
  | a
  | b
deriving DecidableEq, Repr

/-- The other channel die. -/
def Ch.peer : Ch → Ch
  | .a => .b
  | .b => .a

/-- The die's number as BLK_ID gives it (R867): 0 A, 1 B; the hub is 2. -/
def Ch.die : Ch → Nat
  | .a => 0
  | .b => 1

/-- Time that passed before a command, in cycles of each die's own 1 GHz time clock (R13, R35): the two dies
share no clock, so each command carries one count for each die. DESIGN CHOICE, note 120. -/
structure Now where
  a : Nat
  b : Nat
deriving DecidableEq, Repr

/-- The count of one die. -/
def Now.on (n : Now) : Ch → Nat
  | .a => n.a
  | .b => n.b

end Sys2Proof
end

