-- ==== Sys2Proof/Machine/Operands.lean ====
section
/-!
DEFINITION. How values are read out of words: bit fields, byte order, two's complement, rounding, check codes.
-/

namespace Sys2Proof.Machine

/-- Bits [hi:lo] of a number. -/
def bits (n hi lo : Nat) : Nat := (n / 2 ^ lo) % 2 ^ (hi + 1 - lo)

/-- Field [hi:lo] of a word (R8). -/
def fld (w : Word) (hi lo : Nat) : Nat := bits w.toNat hi lo

/-- One bit of a word. -/
def bit (w : Word) (i : Nat) : Bool := w.getLsbD i

/-- A word from a number, its high bits cut off. -/
def word (n : Nat) : Word := BitVec.ofNat 32 n

/-- The word with field [hi:lo] replaced. -/
def setFld (w : Word) (hi lo v : Nat) : Word :=
  (w &&& ~~~(word (2 ^ (hi + 1 - lo) - 1) <<< lo)) ||| (word (v % 2 ^ (hi + 1 - lo)) <<< lo)

/-- The word with one bit replaced. -/
def setBit (w : Word) (i : Nat) (b : Bool) : Word := setFld w i i (if b then 1 else 0)

/-- 1 for true, 0 for false. -/
def nat1 (b : Bool) : Nat := if b then 1 else 0

/-- A word whose fields, given as (lo, value), do not overlap. -/
def pack (l : List (Nat × Nat)) : Word := l.foldl (fun w e => w ||| (word e.2 <<< e.1)) 0

/-- Two's complement reading of an n-bit number. -/
def signed (n v : Nat) : Int := if v % 2 ^ n < 2 ^ (n - 1) then (v % 2 ^ n : Nat) else (v % 2 ^ n : Nat) - (2 ^ n : Nat)

/-- A signed value as a 32-bit word. -/
def wordI (i : Int) : Word := BitVec.ofInt 32 i

/-- A signed value held to ±(2^31 − 1). -/
def satI32 (i : Int) : Word := wordI (max (-(2 ^ 31 - 1)) (min (2 ^ 31 - 1) i))

/-- A value held between two limits. DEDUCED, note 20. -/
def clampI (lo hi v : Int) : Int := max lo (min hi v)

/-- A number held between two limits. DEDUCED, note 20. -/
def clampN (lo hi v : Nat) : Nat := max lo (min hi v)

/-- n / d rounded to the nearest integer, ties away from zero. -/
def rndAway (n : Int) (d : Nat) : Int :=
  if 0 ≤ n then (2 * n + d) / (2 * d) else -((2 * -n + d) / (2 * d))

/-- n / d rounded to the nearest integer, ties to even. -/
def rndEven (n : Int) (d : Nat) : Int :=
  let q := n / d
  let r := n - q * d
  if 2 * r < d then q else if 2 * r = d then (if q % 2 = 0 then q else q + 1) else q + 1

/-- n / d rounded up. -/
def ceilDiv (n d : Nat) : Nat := (n + d - 1) / d

/-- The four bytes of a word, lowest first. -/
def wordBytes (w : Word) : List Byte :=
  [w.extractLsb' 0 8, w.extractLsb' 8 8, w.extractLsb' 16 8, w.extractLsb' 24 8]

/-- The n bytes of a number, lowest first. -/
def natBytes : Nat → Nat → List Byte
  | 0, _ => []
  | n + 1, v => BitVec.ofNat 8 v :: natBytes n (v / 256)

/-- The bytes of a list of words, each word lowest byte first. -/
def wordsBytes (l : List Word) : List Byte := l.flatMap wordBytes

/-- The number spelled by bytes, lowest first. -/
def bytesNat : List Byte → Nat
  | [] => 0
  | b :: t => b.toNat + 256 * bytesNat t

/-- One bit step of CRC-32C in its reflected form. -/
def crcBit (c : BitVec 32) : BitVec 32 :=
  if c.getLsbD 0 then (c >>> 1) ^^^ 0x82F63B78#32 else c >>> 1

/-- One byte step of CRC-32C. -/
def crcByte (c : BitVec 32) (b : Byte) : BitVec 32 :=
  crcBit (crcBit (crcBit (crcBit (crcBit (crcBit (crcBit (crcBit (c ^^^ b.zeroExtend 32))))))))

/-- CRC-32C of bytes. -/
def crc32c (l : List Byte) : Word := ~~~(l.foldl crcByte 0xFFFFFFFF#32)

/-- The two words of a 64-bit value, low word first. -/
def words64 (n : Nat) : List Word := [word n, word (n / 2 ^ 32)]

/-- The signed 64-bit difference of two 64-bit counts. -/
def diff64 (a b : Nat) : Int := signed 64 (a + 2 ^ 64 - b % 2 ^ 64)

/-- n bytes, the highest first, as a number. PRESUMED, note 91. -/
def beNat (l : List Byte) : Nat := l.foldl (fun n b => 256 * n + b.toNat) 0

end Sys2Proof.Machine
end

