-- ==== Sys2Proof/Machine/Sparse.lean ====
section
/-!
DEFINITION. Tables keyed by numbers, and byte memory in its one canonical form.
A table lists the entries that were written; an unlisted key holds the table's default. A memory lists the
bytes that differ from zero, at strictly rising addresses.
-/

namespace Sys2Proof.Machine

/-- A table of values by number. -/
abbrev Tbl (α : Type) := List (Nat × α)

/-- What a table holds at a key: the first entry of that key, or the default. -/
def Tbl.get {α : Type} (d : α) : Tbl α → Nat → α
  | [], _ => d
  | (j, v) :: t, k => if j = k then v else Tbl.get d t k

/-- A table with one key written. -/
def Tbl.put {α : Type} : Tbl α → Nat → α → Tbl α
  | [], k, v => [(k, v)]
  | (j, w) :: t, k, v =>
    if j = k then (k, v) :: t
    else if k < j then (k, v) :: (j, w) :: t
    else (j, w) :: Tbl.put t k v

/-- A table with one key updated from what it holds. -/
def Tbl.mod {α : Type} (d : α) (t : Tbl α) (k : Nat) (f : α → α) : Tbl α :=
  t.put k (f (Tbl.get d t k))

/-- A table without its entries of one key. -/
def Tbl.drop {α : Type} (t : Tbl α) (k : Nat) : Tbl α :=
  t.filter fun e => e.1 != k

/-- Byte memory: the bytes that are not zero, by rising address. -/
abbrev Mem := List (Nat × Byte)

/-- What a memory byte reads as: zero when unlisted. DESIGN CHOICE, note 5. -/
def Mem.get : Mem → Nat → Byte
  | [], _ => 0
  | (a, v) :: t, k => if a = k then v else if k < a then 0 else Mem.get t k

/-- A memory with one byte written; writing zero takes the entry out. -/
def Mem.put : Mem → Nat → Byte → Mem
  | [], k, v => if v = 0 then [] else [(k, v)]
  | (a, w) :: t, k, v =>
    if k < a then (if v = 0 then (a, w) :: t else (k, v) :: (a, w) :: t)
    else if a = k then (if v = 0 then t else (k, v) :: t)
    else (a, w) :: Mem.put t k v

/-- The canonical form above a bound: strictly rising addresses, all at or above the bound, no zero byte. -/
def Mem.wfFrom : Nat → Mem → Bool
  | _, [] => true
  | b, (a, v) :: t => decide (b ≤ a) && decide (v ≠ 0) && Mem.wfFrom (a + 1) t

/-- The canonical form of a memory. -/
def Mem.wf (m : Mem) : Bool := Mem.wfFrom 0 m

/-- The bytes from an address on. -/
def Mem.read (m : Mem) (a : Nat) : Nat → List Byte
  | 0 => []
  | n + 1 => m.get a :: Mem.read m (a + 1) n

/-- A memory with bytes written from an address on. -/
def Mem.write : Mem → Nat → List Byte → Mem
  | m, _, [] => m
  | m, a, v :: t => Mem.write (m.put a v) (a + 1) t

/-- A memory with every byte of a range zeroed. -/
def Mem.zero (m : Mem) (a n : Nat) : Mem :=
  m.filter fun e => e.1 < a || a + n ≤ e.1

/-- A set of numbers, as the rising list of its members. -/
abbrev NatSet := List Nat

/-- A set with one member more. -/
def NatSet.add : NatSet → Nat → NatSet
  | [], k => [k]
  | j :: t, k => if k < j then k :: j :: t else if j = k then j :: t else j :: NatSet.add t k

/-- A set without one member. -/
def NatSet.del (s : NatSet) (k : Nat) : NatSet := s.filter (· != k)

/-- A set without the members of a range. -/
def NatSet.delRange (s : NatSet) (a n : Nat) : NatSet := s.filter fun e => e < a || a + n ≤ e

end Sys2Proof.Machine
end

