-- ==== Sys2Proof/Machine/RegMap.lean ====
section
/-!
DEFINITION. The register map (R859 to R867): the place, access code, implemented bits and reset value of every
register of every page, the events of every block in their EVT_RAW order (R875) and the counters (R882).
A register is named by its place in its die's region: type code × 0x4_0000 + offset; page instance i adds 0x1000 × i.
The register pages of Rhordo (R682) and the doorbell pages (R704) lie outside the map; the model keeps them in the
hub's register store under the type codes 0x30 and 0x31, which no block of the map carries.
-/

namespace Sys2Proof.Machine

/-- The place of a register in its die's region. -/
abbrev Reg := Nat

/-- The same register on page instance i. -/
def Reg.inst (r : Reg) (i : Nat) : Reg := r + 0x1000 * i

/-- Element k of an array of registers that lie n bytes apart. -/
def Reg.el (r : Reg) (n k : Nat) : Reg := r + n * k

/-- The register after this one: the high word of a pair. -/
def Reg.hi (r : Reg) : Reg := r + 4

/-- Access codes (R9). -/
inductive Acc where
  | ro
  | rw
  | rwl
  | w1c
  | w1s
  | wo
deriving DecidableEq, Repr

/-- One row of a register table: type code, instances, first offset, elements and their distance, words of an
element, access, implemented bits, reset value. -/
structure Row where
  il : Nat
  ih : Nat
  off : Nat
  n : Nat
  stride : Nat
  words : Nat
  acc : Acc
  mask : Nat
  reset : Nat
deriving DecidableEq, Repr

/-- Whether a row covers offset o of page instance i. -/
def Row.covers (r : Row) (i o : Nat) : Bool :=
  decide (r.il ≤ i) && decide (i ≤ r.ih) && decide (r.off ≤ o)
    && decide ((o - r.off) / r.stride < r.n) && decide ((o - r.off) % r.stride < 4 * r.words)

/-! Block type codes (R865), and the two page kinds outside the map. -/

/-- Type code of TIME. -/
abbrev T.TIME : Nat := 0x01
/-- Type code of CAD. -/
abbrev T.CAD : Nat := 0x02
/-- Type code of SNS. -/
abbrev T.SNS : Nat := 0x03
/-- Type code of FUS. -/
abbrev T.FUS : Nat := 0x04
/-- Type code of TE. -/
abbrev T.TE : Nat := 0x05
/-- Type code of PSQ. -/
abbrev T.PSQ : Nat := 0x06
/-- Type code of BSQ. -/
abbrev T.BSQ : Nat := 0x07
/-- Type code of PDMA. -/
abbrev T.PDMA : Nat := 0x08
/-- Type code of GDMA. -/
abbrev T.GDMA : Nat := 0x09
/-- Type code of YARD. -/
abbrev T.YARD : Nat := 0x0A
/-- Type code of LOFT. -/
abbrev T.LOFT : Nat := 0x0B
/-- Type code of BRDL. -/
abbrev T.BRDL : Nat := 0x0C
/-- Type code of GFX. -/
abbrev T.GFX : Nat := 0x0D
/-- Type code of DPY. -/
abbrev T.DPY : Nat := 0x0E
/-- Type code of NET. -/
abbrev T.NET : Nat := 0x0F
/-- Type code of CANG. -/
abbrev T.CANG : Nat := 0x10
/-- Type code of CBB. -/
abbrev T.CBB : Nat := 0x11
/-- Type code of SAFE. -/
abbrev T.SAFE : Nat := 0x12
/-- Type code of GLV. -/
abbrev T.GLV : Nat := 0x13
/-- Type code of HBX. -/
abbrev T.HBX : Nat := 0x14
/-- Type code of PWR. -/
abbrev T.PWR : Nat := 0x15
/-- Type code of CLK. -/
abbrev T.CLK : Nat := 0x16
/-- Type code of RST. -/
abbrev T.RST : Nat := 0x17
/-- Type code of ID. -/
abbrev T.ID : Nat := 0x18
/-- Type code of REC. -/
abbrev T.REC : Nat := 0x19
/-- Type code of EVA. -/
abbrev T.EVA : Nat := 0x1A
/-- Type code of HUB_PCI. -/
abbrev T.HUB_PCI : Nat := 0x20
/-- Type code of HUB_IOV. -/
abbrev T.HUB_IOV : Nat := 0x21
/-- Type code of HUB_SHED. -/
abbrev T.HUB_SHED : Nat := 0x22
/-- Type code of HUB_PEER. -/
abbrev T.HUB_PEER : Nat := 0x23
/-- Type code of RM. -/
abbrev T.RM : Nat := 0x30
/-- Type code of DB. -/
abbrev T.DB : Nat := 0x31

/-- How many page instances a block has on its die (R865). -/
def instances : Nat → Nat
  | 0x01 => 1
  | 0x02 => 1
  | 0x03 => 8
  | 0x04 => 1
  | 0x05 => 8
  | 0x06 => 8
  | 0x07 => 8
  | 0x08 => 4
  | 0x09 => 1
  | 0x0A => 1
  | 0x0B => 1
  | 0x0C => 21
  | 0x0D => 17
  | 0x0E => 8
  | 0x0F => 10
  | 0x10 => 17
  | 0x11 => 1
  | 0x12 => 1
  | 0x13 => 4
  | 0x14 => 1
  | 0x15 => 1
  | 0x16 => 1
  | 0x17 => 1
  | 0x18 => 1
  | 0x19 => 1
  | 0x1A => 1
  | 0x20 => 1
  | 0x21 => 34
  | 0x22 => 2
  | 0x23 => 1
  | 0x30 => 2
  | 0x31 => 34
  | _ => 0

/-! The common head (R867): offsets within a page. -/

abbrev Reg.BLK_ID : Reg := 0x0
abbrev Reg.BLK_VER : Reg := 0x4
abbrev Reg.BLK_CTRL : Reg := 0x8
abbrev Reg.BLK_STAT : Reg := 0xC
abbrev Reg.EVT_RAW : Reg := 0x10
abbrev Reg.EVT_EN : Reg := 0x14
abbrev Reg.EVT_STAT : Reg := 0x18
abbrev Reg.EVT_SET : Reg := 0x1C
abbrev Reg.EVT_ROUTE : Reg := 0x20
abbrev Reg.CNT_OVF : Reg := 0x24
abbrev Reg.OWNER : Reg := 0x28
abbrev Reg.LOCK : Reg := 0x2C
abbrev Reg.EVT_PIN : Reg := 0x30

/-! Registers of TIME. -/

abbrev Reg.TIME_CTRL : Reg := 0x40040
abbrev Reg.TIME_STATE : Reg := 0x40044
abbrev Reg.SNAP : Reg := 0x40048
abbrev Reg.SNAP_VT : Reg := 0x40050
abbrev Reg.SNAP_MT : Reg := 0x40058
abbrev Reg.SNAP_WT : Reg := 0x40060
abbrev Reg.SNAP_DT : Reg := 0x40068
abbrev Reg.WT_DOMAIN : Reg := 0x40070
abbrev Reg.JUMP_THRESH : Reg := 0x40074
abbrev Reg.JUMP_PERSIST : Reg := 0x40078
abbrev Reg.SLEW_CTRL : Reg := 0x4007C
abbrev Reg.GM_ACCEPT : Reg := 0x40080
abbrev Reg.EXP_GM_ID : Reg := 0x40084
abbrev Reg.LOCK_THRESH : Reg := 0x4008C
abbrev Reg.KP : Reg := 0x40090
abbrev Reg.KI : Reg := 0x40094
abbrev Reg.FREQ_ADJ : Reg := 0x40098
abbrev Reg.OFFSET_LAST : Reg := 0x4009C
abbrev Reg.HOLDOVER_MAX : Reg := 0x400A0
abbrev Reg.HOLDREF_CFG : Reg := 0x400A4
abbrev Reg.PEER_AGREE_LIMIT : Reg := 0x400A8
abbrev Reg.PEER_OFFSET : Reg := 0x400AC
abbrev Reg.ACC_GM_VT : Reg := 0x400B0
abbrev Reg.ACC_GM_WT : Reg := 0x400B8
abbrev Reg.PORT_ING_LAT_PS : Reg := 0x40200
abbrev Reg.PORT_EGR_LAT_PS : Reg := 0x40204
abbrev Reg.PORT_ASYM_PS : Reg := 0x40208
abbrev Reg.PORT_ROLE : Reg := 0x4020C
abbrev Reg.TIME_SYNC_RX : Reg := 0x40F00
abbrev Reg.TIME_JUMP_REFUSED : Reg := 0x40F04
abbrev Reg.TIME_GM_REFUSED : Reg := 0x40F08
abbrev Reg.TIME_SYNC_TIMEOUT : Reg := 0x40F0C
abbrev Reg.TIME_PEER_DISAGREE : Reg := 0x40F10
abbrev Reg.TIME_PDELAY_FAIL : Reg := 0x40F14

/-! Registers of CAD. -/

abbrev Reg.CAD_CTRL : Reg := 0x80040
abbrev Reg.CAD_STAT : Reg := 0x80044
abbrev Reg.CAD_APPLY : Reg := 0x80048
abbrev Reg.CAD_EPOCH : Reg := 0x80050
abbrev Reg.CAD_PERIOD : Reg := 0x80058
abbrev Reg.CAD_SLOTS : Reg := 0x8005C
abbrev Reg.CAD_FRAME : Reg := 0x80060
abbrev Reg.CAD_SLOT : Reg := 0x80068
abbrev Reg.CAD_GRID_ERR : Reg := 0x8006C
abbrev Reg.CAD_GRID_LIMIT : Reg := 0x80070
abbrev Reg.FSYNC_CFG : Reg := 0x80080
abbrev Reg.FSYNC_DELAY : Reg := 0x80084
abbrev Reg.FSYNC_WIDTH : Reg := 0x80088
abbrev Reg.DPY_LOCK : Reg := 0x80100
abbrev Reg.GATE_CFG : Reg := 0x80120
abbrev Reg.CAD_FRAMES : Reg := 0x80F00
abbrev Reg.CAD_MT_FRAMES : Reg := 0x80F04
abbrev Reg.CAD_ALIGN_FRAMES : Reg := 0x80F08
abbrev Reg.CAD_GRID_FAR_FRAMES : Reg := 0x80F0C
abbrev Reg.CAD_LAUNCH_SKIPPED : Reg := 0x80F10
abbrev Reg.CAD_DPY_UNLOCKS : Reg := 0x80F14

/-! Registers of SNS. -/

abbrev Reg.SNS_CFG : Reg := 0xC0040
abbrev Reg.SNS_STAT : Reg := 0xC0044
abbrev Reg.SNS_LAST_VT : Reg := 0xC0048
abbrev Reg.SNS_LAST_SEQ : Reg := 0xC0050
abbrev Reg.SNS_FRAMES : Reg := 0xC0F00
abbrev Reg.SNS_DAMAGED : Reg := 0xC0F04
abbrev Reg.SNS_HDR_ECC_FIXED : Reg := 0xC0F08
abbrev Reg.SNS_CRC_ERRORS : Reg := 0xC0F0C
abbrev Reg.SNS_UNSUPPORTED : Reg := 0xC0F10
abbrev Reg.SNS_OVERFLOWS : Reg := 0xC0F14
abbrev Reg.SNS_IMU_GAPS : Reg := 0xC0F18

/-! Registers of FUS. -/

abbrev Reg.FUS_CTRL : Reg := 0x100040
abbrev Reg.FUS_STAT : Reg := 0x100044
abbrev Reg.FUS_STALL : Reg := 0x100048
abbrev Reg.FUS_BANK0 : Reg := 0x100050
abbrev Reg.FUS_BANK1 : Reg := 0x100058
abbrev Reg.FUS_SWAP : Reg := 0x100060
abbrev Reg.FUS_SWAP_RESULT : Reg := 0x100064
abbrev Reg.FUS_LATE_WIN : Reg := 0x100068
abbrev Reg.FUS_POSE_EXTRAP : Reg := 0x10006C
abbrev Reg.FUS_AID_MAX : Reg := 0x100070
abbrev Reg.FUS_SEN_SEL : Reg := 0x100074
abbrev Reg.FUS_SEN_STAT : Reg := 0x100078
abbrev Reg.FUS_SEN_DELTA : Reg := 0x10007C
abbrev Reg.FUS_ALIGNED : Reg := 0x100080
abbrev Reg.FUS_LAST_CONTRIB : Reg := 0x100084
abbrev Reg.FUS_LAST_INSTANT : Reg := 0x100088
abbrev Reg.FUS_WF_OFFSET : Reg := 0x100090
abbrev Reg.FUS_WF_INFO : Reg := 0x100098
abbrev Reg.FUS_INSTANTS : Reg := 0x100F00
abbrev Reg.FUS_SAMPLES : Reg := 0x100F04
abbrev Reg.FUS_FOLDED : Reg := 0x100F08
abbrev Reg.FUS_LATE_DISCARDED : Reg := 0x100F0C
abbrev Reg.FUS_SUPERSEDED : Reg := 0x100F10
abbrev Reg.FUS_UNALIGNS : Reg := 0x100F14
abbrev Reg.FUS_RELOCKS : Reg := 0x100F18
abbrev Reg.FUS_NO_POSE_INSTANTS : Reg := 0x100F1C
abbrev Reg.FUS_PROJ_LATE : Reg := 0x100F20
abbrev Reg.FUS_TRK_LATE : Reg := 0x100F24
abbrev Reg.FUS_TRACKS_DROPPED : Reg := 0x100F28
abbrev Reg.FUS_SWAPS_REFUSED : Reg := 0x100F2C
abbrev Reg.FUS_AID_STALE_EVENTS : Reg := 0x100F30
abbrev Reg.FUS_ETH_DROPPED : Reg := 0x100F34
abbrev Reg.FUS_WINDOW_FAULTS : Reg := 0x100F38

/-! Registers of TE. -/

abbrev Reg.TE_STAT : Reg := 0x140040
abbrev Reg.TE_CHK_CFG : Reg := 0x140044
abbrev Reg.TE_CUR_DESC : Reg := 0x140048
abbrev Reg.TE_CUR_CYCLES : Reg := 0x140050
abbrev Reg.TE_WIN : Reg := 0x140054
abbrev Reg.TE_WIN_OLD : Reg := 0x140058
abbrev Reg.TE_WIN_NEW : Reg := 0x14005C
abbrev Reg.TE_CHK_LOG_DESC : Reg := 0x140060
abbrev Reg.TE_CHK_LOG_LOC : Reg := 0x140068
abbrev Reg.TE_CHK_LOG_FRAME : Reg := 0x14006C
abbrev Reg.TE_CHK_LOG_DIFF : Reg := 0x140070
abbrev Reg.TE_FENCE : Reg := 0x140074
abbrev Reg.TE_DESC_DONE : Reg := 0x140F00
abbrev Reg.TE_CHECK_UNITS : Reg := 0x140F04
abbrev Reg.TE_CHECK_FAIL_FRAMES : Reg := 0x140F08
abbrev Reg.TE_CHECK_FAIL_UNITS : Reg := 0x140F0C
abbrev Reg.TE_NONFINITE_UNITS : Reg := 0x140F10
abbrev Reg.TE_TB_CONFLICT_CYCLES : Reg := 0x140F14
abbrev Reg.TE_WCET_OVERRUN : Reg := 0x140F18
abbrev Reg.TE_LATE_STOPS : Reg := 0x140F1C
abbrev Reg.TE_RETRIES : Reg := 0x140F20
abbrev Reg.TE_SAT_ELEMENTS : Reg := 0x140F24
abbrev Reg.TE_LADDER_UP : Reg := 0x140F28
abbrev Reg.TE_LADDER_DOWN : Reg := 0x140F2C
abbrev Reg.TE_LADDER_HELD : Reg := 0x140F30
abbrev Reg.TE_PAD_TAPS : Reg := 0x140F34
abbrev Reg.TE_DESC_FAULT : Reg := 0x140078
abbrev Reg.TE_DESC_FAULT_OFF : Reg := 0x14007C
abbrev Reg.TE_DESC_FAULTS : Reg := 0x140F38

/-! Registers of PSQ. -/

abbrev Reg.PSQ_STAT : Reg := 0x180040
abbrev Reg.PSQ_CFG : Reg := 0x180044
abbrev Reg.PSQ_ENGINES : Reg := 0x180048
abbrev Reg.PSQ_YARD_BANKS : Reg := 0x18004C
abbrev Reg.PSQ_LOFT_RGN : Reg := 0x180050
abbrev Reg.PSQ_EXPORT : Reg := 0x180054
abbrev Reg.PSQ_IMPORT : Reg := 0x180058
abbrev Reg.PSQ_SHED_BASE : Reg := 0x180060
abbrev Reg.PSQ_SHED_SIZE : Reg := 0x180068
abbrev Reg.PSQ_PLAN_BASE : Reg := 0x180070
abbrev Reg.PSQ_PLAN_ID : Reg := 0x180078
abbrev Reg.PSQ_FROM_FRAME : Reg := 0x18007C
abbrev Reg.PSQ_WF_OFFSET : Reg := 0x180080
abbrev Reg.PSQ_WF_INFO : Reg := 0x180088
abbrev Reg.PSQ_SB : Reg := 0x180090
abbrev Reg.PSQ_SBT : Reg := 0x1800B0
abbrev Reg.PSQ_FRAMES_RUN : Reg := 0x180F00
abbrev Reg.PSQ_LISTS_LAUNCHED : Reg := 0x180F04
abbrev Reg.PSQ_LISTS_LATE : Reg := 0x180F08
abbrev Reg.PSQ_LAUNCH_DELAYED : Reg := 0x180F0C
abbrev Reg.PSQ_WINDOW_FAULTS : Reg := 0x180F10
abbrev Reg.PSQ_PLAN_SWITCHES : Reg := 0x180F14
abbrev Reg.PSQ_ADMIT_REFUSED : Reg := 0x180F18

/-! Registers of BSQ. -/

abbrev Reg.BSQ_PAGE_STRIDE : Reg := 0x1C0100
abbrev Reg.BSQ_PAGE_GEOM : Reg := 0x1C0104
abbrev Reg.BSQ_ROPE_CFG : Reg := 0x1C0108
abbrev Reg.BSQ_ROPE_FREQ : Reg := 0x1C010C
abbrev Reg.BSQ_YARD_PBASE : Reg := 0x1C0110
abbrev Reg.BSQ_YARD_PAGES : Reg := 0x1C0114
abbrev Reg.BSQ_LOFT_PBASE : Reg := 0x1C0118
abbrev Reg.BSQ_LOFT_PAGES : Reg := 0x1C0120
abbrev Reg.BSQ_SHED_PBASE : Reg := 0x1C0124
abbrev Reg.BSQ_SHED_PAGES : Reg := 0x1C012C
abbrev Reg.BSQ_YARD_LOW : Reg := 0x1C0130
abbrev Reg.BSQ_YARD_HIGH : Reg := 0x1C0134
abbrev Reg.BSQ_LOFT_LOW : Reg := 0x1C0138
abbrev Reg.BSQ_LOFT_HIGH : Reg := 0x1C013C
abbrev Reg.BSQ_SHED_RATE : Reg := 0x1C0140
abbrev Reg.BSQ_FREE_YARD : Reg := 0x1C0144
abbrev Reg.BSQ_FREE_LOFT : Reg := 0x1C0148
abbrev Reg.BSQ_FREE_SHED : Reg := 0x1C014C
abbrev Reg.BSQ_PSTATE_SEL : Reg := 0x1C0150
abbrev Reg.BSQ_PSTATE : Reg := 0x1C0154
abbrev Reg.BSQ_PSTATE_CRC : Reg := 0x1C0158
abbrev Reg.BSQ_PREEMPTIONS : Reg := 0x1C0F40
abbrev Reg.BSQ_SWAP_ABANDONED : Reg := 0x1C0F44
abbrev Reg.BSQ_DEFERRED : Reg := 0x1C0F48
abbrev Reg.BSQ_REPREFILLS : Reg := 0x1C0F4C
abbrev Reg.BSQ_PAGES_TRIMMED : Reg := 0x1C0F50
abbrev Reg.BSQ_CAND_OFFERED : Reg := 0x1C0F54
abbrev Reg.BSQ_CAND_ACCEPTED : Reg := 0x1C0F58
abbrev Reg.BSQ_VERIFY_CLAMP : Reg := 0x1C0F5C
abbrev Reg.BSQ_EMPTY_ROWS : Reg := 0x1C0F60
abbrev Reg.BSQ_POISONED_PAGES : Reg := 0x1C0F64
abbrev Reg.BSQ_STAT : Reg := 0x1C0040
abbrev Reg.BSQ_SEQ_MAX : Reg := 0x1C0044
abbrev Reg.BSQ_STEP_ROWS : Reg := 0x1C0048
abbrev Reg.BSQ_PREFILL_CHUNK : Reg := 0x1C004C
abbrev Reg.BSQ_AGE_STEPS : Reg := 0x1C0050
abbrev Reg.BSQ_ATTN_PAGES : Reg := 0x1C0054
abbrev Reg.BSQ_SEQ_TABLE : Reg := 0x1C0058
abbrev Reg.BSQ_BUCKET : Reg := 0x1C0060
abbrev Reg.BSQ_STEP_NUM : Reg := 0x1C0080
abbrev Reg.BSQ_STEP_LAST : Reg := 0x1C0088
abbrev Reg.BSQ_STEPS : Reg := 0x1C0F00
abbrev Reg.BSQ_STEP_ROWS_CNT : Reg := 0x1C0F04
abbrev Reg.BSQ_SEQ_ADMITTED : Reg := 0x1C0F08
abbrev Reg.BSQ_SEQ_RETIRED : Reg := 0x1C0F0C
abbrev Reg.BSQ_SEQ_ABORTED : Reg := 0x1C0F10
abbrev Reg.BSQ_STEPS_DISCARDED : Reg := 0x1C0F14
abbrev Reg.BSQ_WINDOW_STOPS : Reg := 0x1C0F18
abbrev Reg.BSQ_ADMIT_HELD : Reg := 0x1C0F1C
abbrev Reg.BSQ_DESC_NOT_FIT : Reg := 0x1C0F20
abbrev Reg.BSQ_SEQ_FAULT : Reg := 0x1C008C
abbrev Reg.BSQ_SEQ_REFUSED : Reg := 0x1C0F24

/-! Registers of PDMA. -/

abbrev Reg.PDMA_STAT : Reg := 0x200040
abbrev Reg.PDMA_CFG : Reg := 0x200044
abbrev Reg.PDMA_CUR_SEQ : Reg := 0x200048
abbrev Reg.PDMA_CUR_PAGE : Reg := 0x20004C
abbrev Reg.PDMA_FAULT_PAGE : Reg := 0x200050
abbrev Reg.PDMA_FAULT_CAUSE : Reg := 0x200054
abbrev Reg.PDMA_PAGES_DELIVERED : Reg := 0x200F00
abbrev Reg.PDMA_PAGES_SPILLED : Reg := 0x200F04
abbrev Reg.PDMA_PAGES_FILLED : Reg := 0x200F08
abbrev Reg.PDMA_PAGES_SHED_OUT : Reg := 0x200F0C
abbrev Reg.PDMA_PAGES_SHED_IN : Reg := 0x200F10
abbrev Reg.PDMA_SHED_CRC_FAIL : Reg := 0x200F14
abbrev Reg.PDMA_WINDOW_FAULTS : Reg := 0x200F18
abbrev Reg.PDMA_BAD_PAGES : Reg := 0x200F1C
abbrev Reg.PDMA_PARITY_PAGES : Reg := 0x200F20

/-! Registers of YARD. -/

abbrev Reg.YARD_CTRL : Reg := 0x280040
abbrev Reg.YARD_STAT : Reg := 0x280044
abbrev Reg.YARD_SCRUB_CFG : Reg := 0x280048
abbrev Reg.YARD_ERR_LOC : Reg := 0x28004C
abbrev Reg.YARD_ERR_INFO : Reg := 0x280050
abbrev Reg.YARD_MIR_LINE : Reg := 0x280100
abbrev Reg.YARD_MIR_SRC : Reg := 0x280104
abbrev Reg.YARD_MIR_LEN : Reg := 0x280108
abbrev Reg.YARD_PARITY_ERRORS : Reg := 0x280F00
abbrev Reg.YARD_REFETCHES : Reg := 0x280F04
abbrev Reg.YARD_DATA_POISONS : Reg := 0x280F08
abbrev Reg.YARD_SCRUB_PASSES : Reg := 0x280F0C
abbrev Reg.YARD_HARD_ERRORS : Reg := 0x280F10
abbrev Reg.YARD_WIPES : Reg := 0x280F14

/-! Registers of LOFT. -/

abbrev Reg.LOFT_CFG : Reg := 0x2C0040
abbrev Reg.LOFT_CTRL : Reg := 0x2C0044
abbrev Reg.LOFT_STAT : Reg := 0x2C0048
abbrev Reg.LOFT_CAP : Reg := 0x2C004C
abbrev Reg.LOFT_DERATE : Reg := 0x2C0050
abbrev Reg.LOFT_SCRUB_CFG : Reg := 0x2C0054
abbrev Reg.LOFT_WIPE_LEFT : Reg := 0x2C0058
abbrev Reg.LOFT_ERR_ADDR : Reg := 0x2C0060
abbrev Reg.LOFT_ERR_INFO : Reg := 0x2C0068
abbrev Reg.LOFT_SEAL : Reg := 0x2C0080
abbrev Reg.LOFT_CE_BLOCKS : Reg := 0x2C0F00
abbrev Reg.LOFT_UE_BLOCKS : Reg := 0x2C0F04
abbrev Reg.LOFT_LINK_CE : Reg := 0x2C0F08
abbrev Reg.LOFT_LINK_RETRIES : Reg := 0x2C0F0C
abbrev Reg.LOFT_RMW_WRITES : Reg := 0x2C0F10
abbrev Reg.LOFT_WB_DROPPED : Reg := 0x2C0F14
abbrev Reg.LOFT_SCRUB_PASSES : Reg := 0x2C0F18
abbrev Reg.LOFT_BAND_CHANGES : Reg := 0x2C0F1C
abbrev Reg.LOFT_HARD_ERRORS : Reg := 0x2C0F20

/-! Registers of BRDL. -/

abbrev Reg.BRDL_CFG : Reg := 0x300040
abbrev Reg.BRDL_LOFT_RATE : Reg := 0x300044
abbrev Reg.BRDL_LOFT_BURST : Reg := 0x300048
abbrev Reg.BRDL_YARD_RATE : Reg := 0x30004C
abbrev Reg.BRDL_YARD_BURST : Reg := 0x300050
abbrev Reg.BRDL_LAT_TARGET : Reg := 0x300054
abbrev Reg.BRDL_STAT : Reg := 0x300058
abbrev Reg.BRDL_EFF_RATE : Reg := 0x30005C
abbrev Reg.BRDL_MAXLAT : Reg := 0x300060
abbrev Reg.BRDL_MAXLAT_CLR : Reg := 0x300064
abbrev Reg.BRDL_OLDEST : Reg := 0x300068
abbrev Reg.BRDL_REQ_ISSUED : Reg := 0x300F00
abbrev Reg.BRDL_BLOCKS_CHARGED : Reg := 0x300F04
abbrev Reg.BRDL_HELD_CYCLES : Reg := 0x300F08
abbrev Reg.BRDL_TARGET_MISS : Reg := 0x300F0C
abbrev Reg.BRDL_BREACHES : Reg := 0x300F10
abbrev Reg.BRDL_ADMIT_BAND : Reg := 0x300040
abbrev Reg.BRDL_GUAR_SUM : Reg := 0x300044
abbrev Reg.BRDL_PROT_SUM : Reg := 0x300048
abbrev Reg.BRDL_ACTIVE_SUM : Reg := 0x30004C
abbrev Reg.BRDL_HEADROOM : Reg := 0x300050
abbrev Reg.BRDL_WITHDRAWALS : Reg := 0x300F00
abbrev Reg.BRDL_RESTORATIONS : Reg := 0x300F04

/-! Registers of GFX. -/

abbrev Reg.GFX_STAT : Reg := 0x340040
abbrev Reg.GFX_COMP_CFG : Reg := 0x340044
abbrev Reg.GFX_HINT_SEL : Reg := 0x340048
abbrev Reg.GFX_HINT_PRIMS : Reg := 0x34004C
abbrev Reg.GFX_HINT_FRAGS : Reg := 0x340050
abbrev Reg.GFX_HINT_TILES : Reg := 0x340054
abbrev Reg.GFX_CTX_CFG : Reg := 0x340060
abbrev Reg.GFX_CTX_RGN : Reg := 0x340064
abbrev Reg.GFX_CTX_STAT : Reg := 0x340068
abbrev Reg.GFX_CTX_FAULT : Reg := 0x34006C
abbrev Reg.GFX_WG_DONE : Reg := 0x340F00
abbrev Reg.GFX_WG_KILLED : Reg := 0x340F04
abbrev Reg.GFX_COMP_JOBS : Reg := 0x340F08
abbrev Reg.GFX_COMP_DROPPED : Reg := 0x340F0C
abbrev Reg.GFX_COMP_OVERRUN : Reg := 0x340F10
abbrev Reg.GFX_WINDOW_FAULTS : Reg := 0x340F14
abbrev Reg.GFX_PARITY_FIXED : Reg := 0x340F18

/-! Registers of DPY. -/

abbrev Reg.DPY_CTRL : Reg := 0x380040
abbrev Reg.DPY_STAT : Reg := 0x380044
abbrev Reg.DPY_FRAME : Reg := 0x380048
abbrev Reg.DPY_PCLK : Reg := 0x380050
abbrev Reg.DPY_H : Reg := 0x380054
abbrev Reg.DPY_V : Reg := 0x380058
abbrev Reg.DPY_HSYNC : Reg := 0x38005C
abbrev Reg.DPY_VSYNC : Reg := 0x380060
abbrev Reg.DPY_LINK_CFG : Reg := 0x380064
abbrev Reg.DPY_RGN : Reg := 0x380068
abbrev Reg.PL_CFG : Reg := 0x380100
abbrev Reg.PL_SRC : Reg := 0x380104
abbrev Reg.PL_DST : Reg := 0x380108
abbrev Reg.PL_DSTSZ : Reg := 0x38010C
abbrev Reg.PL_ADDR : Reg := 0x380110
abbrev Reg.PL_FLIP : Reg := 0x380118
abbrev Reg.DPY_FRAMES : Reg := 0x380F00
abbrev Reg.DPY_REPEATED_FRAMES : Reg := 0x380F04
abbrev Reg.DPY_UNDERRUNS : Reg := 0x380F08
abbrev Reg.DPY_FLIPS_REPLACED : Reg := 0x380F0C
abbrev Reg.DPY_WINDOW_FAULTS : Reg := 0x380F10
abbrev Reg.TT_CTRL : Reg := 0x380040
abbrev Reg.TT_STAT : Reg := 0x380044
abbrev Reg.TT_ATLAS : Reg := 0x380048
abbrev Reg.TT_POS : Reg := 0x380100
abbrev Reg.TT_SIZE : Reg := 0x380104
abbrev Reg.TT_RCTRL : Reg := 0x380108
abbrev Reg.TT_BG : Reg := 0x38010C
abbrev Reg.TT_CRC_ON : Reg := 0x380110
abbrev Reg.TT_CRC_OFF : Reg := 0x380114
abbrev Reg.TT_CRC_LAST : Reg := 0x380118
abbrev Reg.DPY_TT_FRAMES : Reg := 0x380F00
abbrev Reg.DPY_TT_CRC_FAIL : Reg := 0x380F04
abbrev Reg.DPY_TT_STALLS : Reg := 0x380F08
abbrev Reg.DPY_TT_PARITY : Reg := 0x380F0C

/-! Registers of NET. -/

abbrev Reg.NET_PORT_CFG : Reg := 0x3C0040
abbrev Reg.NET_PORT_STAT : Reg := 0x3C0044
abbrev Reg.NET_TX_FRAMES : Reg := 0x3C0F00
abbrev Reg.NET_RX_FRAMES : Reg := 0x3C0F04
abbrev Reg.NET_FCS_ERRORS : Reg := 0x3C0F08
abbrev Reg.NET_OVERSIZE : Reg := 0x3C0F0C
abbrev Reg.NET_GATE_HELD : Reg := 0x3C0F10
abbrev Reg.NET_STOMPED : Reg := 0x3C0F14
abbrev Reg.NET_QCI_DROPPED : Reg := 0x3C0F18
abbrev Reg.NET_IMG_ADDR : Reg := 0x3C0040
abbrev Reg.NET_IMG_RGN : Reg := 0x3C0048
abbrev Reg.NET_IMG_LOAD : Reg := 0x3C004C
abbrev Reg.NET_IMG_RESULT : Reg := 0x3C0050
abbrev Reg.NET_STAT : Reg := 0x3C0054
abbrev Reg.NET_MAC : Reg := 0x3C0058
abbrev Reg.NET_FDB_CFG : Reg := 0x3C0060
abbrev Reg.NET_IMG_VERSION : Reg := 0x3C0064
abbrev Reg.NET_PUB_SENT : Reg := 0x3C0F00
abbrev Reg.NET_PUB_TOO_LONG : Reg := 0x3C0F04
abbrev Reg.NET_CB_ELIMINATED : Reg := 0x3C0F08
abbrev Reg.NET_IMG_REFUSED : Reg := 0x3C0F0C
abbrev Reg.NET_IMG_PARITY : Reg := 0x3C0F10

/-! Registers of CANG. -/

abbrev Reg.CANG_CFG : Reg := 0x400040
abbrev Reg.CANG_NBT : Reg := 0x400044
abbrev Reg.CANG_DBT : Reg := 0x400048
abbrev Reg.CANG_TDC : Reg := 0x40004C
abbrev Reg.CANG_STAT : Reg := 0x400050
abbrev Reg.CANG_RECOVER : Reg := 0x400054
abbrev Reg.CANG_GW_CTRL : Reg := 0x400060
abbrev Reg.CANG_RX_FRAMES : Reg := 0x400F00
abbrev Reg.CANG_TX_FRAMES : Reg := 0x400F04
abbrev Reg.CANG_BUS_OFFS : Reg := 0x400F08
abbrev Reg.CANG_GW_TX_DROPPED : Reg := 0x400F0C
abbrev Reg.CANG_ROUTED : Reg := 0x400F10
abbrev Reg.CANG_NO_ROUTE : Reg := 0x400F14
abbrev Reg.CANG_CONVERT_FAIL : Reg := 0x400F18
abbrev Reg.CANG_ACF_TX : Reg := 0x400F1C
abbrev Reg.CANG_ACF_MALFORMED : Reg := 0x400F20

/-! Registers of CBB. -/

abbrev Reg.CBB_CTRL : Reg := 0x440040
abbrev Reg.CBB_STAT : Reg := 0x440044
abbrev Reg.CBB_TIMEOUT : Reg := 0x440048
abbrev Reg.CBB_RB_HOLD : Reg := 0x44004C
abbrev Reg.CBB_SEM : Reg := 0x440050
abbrev Reg.CBB_SEM_MAX : Reg := 0x440060
abbrev Reg.CBB_ERR_ADDR : Reg := 0x440064
abbrev Reg.CBB_ERR_INFO : Reg := 0x440068
abbrev Reg.CBB_CS_TIMING : Reg := 0x440070
abbrev Reg.CBB_WIN_NEAR : Reg := 0x440100
abbrev Reg.CBB_WIN_FAR : Reg := 0x440104
abbrev Reg.CBB_WIN_CFG : Reg := 0x440108
abbrev Reg.CBB_FAR_READS : Reg := 0x440F00
abbrev Reg.CBB_FAR_WRITES : Reg := 0x440F04
abbrev Reg.CBB_RETRIES : Reg := 0x440F08
abbrev Reg.CBB_RB_EXPIRED : Reg := 0x440F0C
abbrev Reg.CBB_TIMEOUTS : Reg := 0x440F10
abbrev Reg.CBB_FAR_ERRORS : Reg := 0x440F14
abbrev Reg.CBB_NO_WINDOW : Reg := 0x440F18
abbrev Reg.CBB_ATOMIC_REFUSED : Reg := 0x440F1C
abbrev Reg.CBB_SEM_FORCED : Reg := 0x440F20
abbrev Reg.CBB_WQ_FULL : Reg := 0x440F24

/-! Registers of SAFE. -/

abbrev Reg.SAFE_STAT : Reg := 0x480040
abbrev Reg.SAFE_CFG : Reg := 0x480044
abbrev Reg.SAFE_KICK : Reg := 0x480048
abbrev Reg.SAFE_READY : Reg := 0x48004C
abbrev Reg.SAFE_ENTER : Reg := 0x480050
abbrev Reg.SAFE_RELEASE : Reg := 0x480054
abbrev Reg.SAFE_MSG_CFG : Reg := 0x480058
abbrev Reg.SAFE_CAN_ID : Reg := 0x48005C
abbrev Reg.SAFE_KICK_MAX : Reg := 0x480060
abbrev Reg.SAFE_COV_K : Reg := 0x480064
abbrev Reg.SAFE_DEBT_UNITS : Reg := 0x480068
abbrev Reg.SAFE_DEBT_BANKS : Reg := 0x48006C
abbrev Reg.SAFE_UNIT_FENCE : Reg := 0x480070
abbrev Reg.SAFE_BANK_FENCE : Reg := 0x480074
abbrev Reg.SAFE_LAPSED : Reg := 0x480078
abbrev Reg.SAFE_ENTER_VT : Reg := 0x48007C
abbrev Reg.AV_CFG : Reg := 0x480100
abbrev Reg.AV_LIMIT : Reg := 0x480104
abbrev Reg.AV_ACT : Reg := 0x480108
abbrev Reg.AV_STAT : Reg := 0x48010C
abbrev Reg.SAFE_ENTRIES : Reg := 0x480F00
abbrev Reg.SAFE_RELEASES : Reg := 0x480F04
abbrev Reg.SAFE_FAULT_RESETS : Reg := 0x480F08
abbrev Reg.SAFE_MSGS_SENT : Reg := 0x480F0C
abbrev Reg.SAFE_MSG_LATE : Reg := 0x480F10
abbrev Reg.SAFE_AGE_MISSES : Reg := 0x480F14
abbrev Reg.SAFE_SLICES_RUN : Reg := 0x480F18
abbrev Reg.SAFE_SLICES_SKIPPED : Reg := 0x480F1C
abbrev Reg.SAFE_SLICES_FAILED : Reg := 0x480F20
abbrev Reg.SAFE_DEBT_PERIODS : Reg := 0x480F24
abbrev Reg.SAFE_KICK_MISSES : Reg := 0x480F28

/-! Registers of GLV. -/

abbrev Reg.GLV_STAT : Reg := 0x4C0040
abbrev Reg.GLV_MISMATCH_VT : Reg := 0x4C0044
abbrev Reg.GLV_MISMATCH_PORT : Reg := 0x4C004C
abbrev Reg.GLV_ST_RESULT : Reg := 0x4C0050
abbrev Reg.GLV_MISMATCHES : Reg := 0x4C0F00
abbrev Reg.GLV_TRANSIENTS : Reg := 0x4C0F04
abbrev Reg.GLV_SELFTESTS : Reg := 0x4C0F08

/-! Registers of HBX. -/

abbrev Reg.HBX_STAT : Reg := 0x500040
abbrev Reg.HBX_CLAIM : Reg := 0x500044
abbrev Reg.HBX_MB_DOOR : Reg := 0x500048
abbrev Reg.HBX_MB_DONE : Reg := 0x50004C
abbrev Reg.HBX_LMS_BLOCKS : Reg := 0x500050
abbrev Reg.HBX_LMS_LEFT : Reg := 0x500054
abbrev Reg.HBX_SLOTS : Reg := 0x500058
abbrev Reg.HBX_NETCMD : Reg := 0x50005C
abbrev Reg.HBX_NONCE : Reg := 0x500060
abbrev Reg.HBX_VERIFY_OK : Reg := 0x500F00
abbrev Reg.HBX_VERIFY_FAIL : Reg := 0x500F04
abbrev Reg.HBX_AUTH_OK : Reg := 0x500F08
abbrev Reg.HBX_AUTH_FAILS : Reg := 0x500F0C
abbrev Reg.HBX_ATTESTS : Reg := 0x500F10
abbrev Reg.HBX_CLAIM_REFUSED : Reg := 0x500F14
abbrev Reg.HBX_CLAIMS_BROKEN : Reg := 0x500F18
abbrev Reg.HBX_DEBUG_DENIED : Reg := 0x500F1C
abbrev Reg.HBX_NETCMD_DROPPED : Reg := 0x500F20
abbrev Reg.HBX_RESTARTS : Reg := 0x500F24

/-! Registers of PWR. -/

abbrev Reg.PWR_DOM_STAT : Reg := 0x540040
abbrev Reg.PWR_REQ : Reg := 0x540044
abbrev Reg.PWR_REQ_STAT : Reg := 0x540048
abbrev Reg.PWR_THERM_STAT : Reg := 0x54004C
abbrev Reg.PWR_TJ_MAX : Reg := 0x540050
abbrev Reg.PWR_TH_CFG : Reg := 0x540054
abbrev Reg.PWR_SENSOR_SEL : Reg := 0x540058
abbrev Reg.PWR_SENSOR : Reg := 0x54005C
abbrev Reg.PWR_RAIL : Reg := 0x540060
abbrev Reg.PWR_STAGE_ENTRIES : Reg := 0x540F00
abbrev Reg.PWR_EMERGENCIES : Reg := 0x540F04
abbrev Reg.PWR_REQUESTS : Reg := 0x540F08
abbrev Reg.PWR_REQ_REFUSED : Reg := 0x540F0C

/-! Registers of CLK. -/

abbrev Reg.CLK_STAT : Reg := 0x580040
abbrev Reg.CLK_DEV : Reg := 0x580044
abbrev Reg.CLK_FAULTS : Reg := 0x580F00

/-! Registers of RST. -/

abbrev Reg.RST_CAUSE : Reg := 0x5C0040
abbrev Reg.RST_VT : Reg := 0x5C0044
abbrev Reg.RST_COLD_RESETS : Reg := 0x5C0F00

/-! Registers of ID. -/

abbrev Reg.ID_REC : Reg := 0x600040
abbrev Reg.ID_STAT : Reg := 0x600080

/-! Registers of REC. -/

abbrev Reg.REC_CTRL : Reg := 0x640040
abbrev Reg.REC_RGN : Reg := 0x640044
abbrev Reg.REC_TAIL : Reg := 0x640048
abbrev Reg.REC_SEQ : Reg := 0x64004C
abbrev Reg.REC_EXPORT_OFS : Reg := 0x640050
abbrev Reg.REC_EXPORT_BYTES : Reg := 0x640058
abbrev Reg.REC_RECORDS : Reg := 0x640F00
abbrev Reg.REC_DROPPED : Reg := 0x640F04
abbrev Reg.REC_EXPORTS : Reg := 0x640F08
abbrev Reg.REC_EXPORT_CUT : Reg := 0x640F0C
abbrev Reg.REC_REPLAY_FRAMES : Reg := 0x640F10
abbrev Reg.REC_REPLAY_DIFFS : Reg := 0x640F14

/-! Registers of EVA. -/

abbrev Reg.EVA_PEND_TYPE : Reg := 0x680040
abbrev Reg.EVA_SEL : Reg := 0x680044
abbrev Reg.EVA_PEND_INST : Reg := 0x680048
abbrev Reg.EVA_DELIVERED_HOST : Reg := 0x680F00
abbrev Reg.EVA_DELIVERED_FW : Reg := 0x680F04
abbrev Reg.EVA_DELIVERED_SAFE : Reg := 0x680F08
abbrev Reg.EVA_PIN_TRIGGERS : Reg := 0x680F0C
abbrev Reg.EVA_OWNER_DENIED : Reg := 0x680F10
abbrev Reg.EVA_INJECTED : Reg := 0x680F14

/-! Registers of HUB_PCI. -/

abbrev Reg.PCI_LINK_CFG : Reg := 0x800040
abbrev Reg.PCI_LINK_STAT : Reg := 0x800044
abbrev Reg.PCI_AER_SUM : Reg := 0x800048
abbrev Reg.PCI_LINK_DOWNS : Reg := 0x800F00
abbrev Reg.PCI_RETRAINS : Reg := 0x800F04
abbrev Reg.PCI_CORRECTABLE : Reg := 0x800F08

/-! Registers of HUB_IOV. -/

abbrev Reg.IOV_MAP : Reg := 0x840040
abbrev Reg.IOV_WIN : Reg := 0x840044
abbrev Reg.IOV_CTRL : Reg := 0x840048
abbrev Reg.IOV_STAT : Reg := 0x84004C
abbrev Reg.IOV_ERR_INFO : Reg := 0x840050
abbrev Reg.IOV_ERR_OFF : Reg := 0x840054
abbrev Reg.RXQ_CFG : Reg := 0x840060
abbrev Reg.RXQ_BASE : Reg := 0x840064
abbrev Reg.RXQ_HEAD : Reg := 0x84006C
abbrev Reg.RXQ_TAIL : Reg := 0x840070
abbrev Reg.IOV_OUT_OF_WINDOW : Reg := 0x840F00
abbrev Reg.IOV_POISONED : Reg := 0x840F04
abbrev Reg.IOV_RESETS : Reg := 0x840F08
abbrev Reg.IOV_SQUASHES : Reg := 0x840F0C
abbrev Reg.IOV_DOORBELL_DROPPED : Reg := 0x840F10
abbrev Reg.IOV_RXQ_DROPPED : Reg := 0x840F14

/-! Registers of HUB_SHED. -/

abbrev Reg.SHED_BASE : Reg := 0x880040
abbrev Reg.SHED_SIZE : Reg := 0x880048
abbrev Reg.SHED_STAT : Reg := 0x880050
abbrev Reg.SHED_PAGES_OUT : Reg := 0x880F00
abbrev Reg.SHED_PAGES_IN : Reg := 0x880F04
abbrev Reg.SHED_FLUSH_READS : Reg := 0x880F08

/-! Registers of HUB_PEER. -/

abbrev Reg.HB_CFG : Reg := 0x8C0040
abbrev Reg.PEER_STAT : Reg := 0x8C0044
abbrev Reg.MB_CFG : Reg := 0x8C0048
abbrev Reg.MB_TX : Reg := 0x8C0100
abbrev Reg.MB_SEND : Reg := 0x8C0180
abbrev Reg.MB_RX : Reg := 0x8C0200
abbrev Reg.MB_POP : Reg := 0x8C0280
abbrev Reg.PEER_HB_MISSED : Reg := 0x8C0F00
abbrev Reg.PEER_LOSSES : Reg := 0x8C0F08
abbrev Reg.PEER_MB_SENT : Reg := 0x8C0F0C
abbrev Reg.PEER_MB_DISCARDED : Reg := 0x8C0F10
abbrev Reg.PEER_MB_QUEUE_FULL : Reg := 0x8C0F14

/-! Registers of RM. -/

abbrev Reg.RM_ID : Reg := 0xC00000
abbrev Reg.RM_STATE : Reg := 0xC00004
abbrev Reg.RM_CAUSE : Reg := 0xC00008
abbrev Reg.RM_FW_IFVER : Reg := 0xC0000C
abbrev Reg.RM_HOST_IFVER : Reg := 0xC00010
abbrev Reg.RM_ROM_VER : Reg := 0xC00014
abbrev Reg.RM_CMD : Reg := 0xC00018
abbrev Reg.RM_CMD_STAT : Reg := 0xC0001C
abbrev Reg.RM_ARG : Reg := 0xC00020
abbrev Reg.RM_RES : Reg := 0xC00040
abbrev Reg.RM_RESTART_INFO : Reg := 0xC00060
abbrev Reg.RM_RESTART_VT : Reg := 0xC00064
abbrev Reg.RM_LOG_MASK : Reg := 0xC0006C
abbrev Reg.RM_CNT_OVF : Reg := 0xC000F0
abbrev Reg.RM_RESTARTS : Reg := 0xC00F00
abbrev Reg.RM_VERSION_REFUSALS : Reg := 0xC00F10
abbrev Reg.RM_IMAGE_FAILS : Reg := 0xC00F14
abbrev Reg.RM_RING_ERRORS : Reg := 0xC00F18
abbrev Reg.RM_CQ_WAITS : Reg := 0xC00F1C
abbrev Reg.RM_EQ_DROPPED : Reg := 0xC00F20
abbrev Reg.RM_LOG_DROPPED : Reg := 0xC00F24
abbrev Reg.RM_COMMANDS_RESTARTED : Reg := 0xC00F28

/-! Registers of DB. -/

abbrev Reg.SQ_TAIL : Reg := 0xC40000
abbrev Reg.CQ_HEAD : Reg := 0xC40010
abbrev Reg.EQ_HEAD : Reg := 0xC40014
abbrev Reg.LOG_HEAD : Reg := 0xC40018

/-- The register table of the common head. -/
def rowsHEAD : List Row := [
  ⟨0, 63, 0x0, 1, 4, 1, .ro, 0xFFFFFFFF, 0x0⟩,
  ⟨0, 63, 0x4, 1, 4, 1, .ro, 0xFFFFFFFF, 0xB010001⟩,
  ⟨0, 63, 0x8, 1, 4, 1, .rw, 0x3, 0x1⟩,
  ⟨0, 63, 0xC, 1, 4, 1, .ro, 0xF, 0x1⟩,
  ⟨0, 63, 0x10, 1, 4, 1, .w1c, 0xFFFFFFFF, 0x0⟩,
  ⟨0, 63, 0x14, 1, 4, 1, .rw, 0xFFFFFFFF, 0x0⟩,
  ⟨0, 63, 0x18, 1, 4, 1, .ro, 0xFFFFFFFF, 0x0⟩,
  ⟨0, 63, 0x1C, 1, 4, 1, .w1s, 0xFFFFFFFF, 0x0⟩,
  ⟨0, 63, 0x20, 1, 4, 1, .rwl, 0x3FF, 0x0⟩,
  ⟨0, 63, 0x24, 1, 4, 1, .w1c, 0xFFFFFFFF, 0x0⟩,
  ⟨0, 63, 0x28, 1, 4, 1, .rwl, 0xFFFFFFFF, 0x0⟩,
  ⟨0, 63, 0x2C, 1, 4, 1, .w1s, 0x1, 0x0⟩,
  ⟨0, 63, 0x30, 1, 4, 1, .rwl, 0xFFFFFFFF, 0x0⟩
]

/-- The register table of TIME. -/
def rowsTIME : List Row := [
  ⟨0, 0, 0x40, 1, 4, 1, .rw, 0x3F, 0x0⟩,
  ⟨0, 0, 0x44, 1, 4, 1, .ro, 0xFFF, 0x0⟩,
  ⟨0, 0, 0x48, 1, 4, 1, .wo, 0xFFFFFFFF, 0x0⟩,
  ⟨0, 0, 0x50, 2, 4, 1, .ro, 0xFFFFFFFF, 0x0⟩,
  ⟨0, 0, 0x58, 2, 4, 1, .ro, 0xFFFFFFFF, 0x0⟩,
  ⟨0, 0, 0x60, 2, 4, 1, .ro, 0xFFFFFFFF, 0x0⟩,
  ⟨0, 0, 0x68, 2, 4, 1, .ro, 0xFFFFFFFF, 0x0⟩,
  ⟨0, 0, 0x70, 1, 4, 1, .rwl, 0x7F, 0x1⟩,
  ⟨0, 0, 0x74, 1, 4, 1, .rw, 0xFFFFFFFF, 0x3E8⟩,
  ⟨0, 0, 0x78, 1, 4, 1, .rw, 0xF, 0x3⟩,
  ⟨0, 0, 0x7C, 1, 4, 1, .rw, 0xFF01, 0x6400⟩,
  ⟨0, 0, 0x80, 1, 4, 1, .wo, 0x3, 0x0⟩,
  ⟨0, 0, 0x84, 2, 4, 1, .rw, 0xFFFFFFFF, 0x0⟩,
  ⟨0, 0, 0x8C, 1, 4, 1, .rw, 0xFFFFFFFF, 0x64⟩,
  ⟨0, 0, 0x90, 1, 4, 1, .rw, 0xFFFFFFFF, 0x20000⟩,
  ⟨0, 0, 0x94, 1, 4, 1, .rw, 0xFFFFFFFF, 0x4000⟩,
  ⟨0, 0, 0x98, 1, 4, 1, .ro, 0xFFFFFFFF, 0x0⟩,
  ⟨0, 0, 0x9C, 1, 4, 1, .ro, 0xFFFFFFFF, 0x0⟩,
  ⟨0, 0, 0xA0, 1, 4, 1, .rw, 0xFFFFFFFF, 0x1E⟩,
  ⟨0, 0, 0xA4, 1, 4, 1, .rw, 0x3, 0x0⟩,
  ⟨0, 0, 0xA8, 1, 4, 1, .rw, 0xFFFFFFFF, 0x2710⟩,
  ⟨0, 0, 0xAC, 1, 4, 1, .ro, 0xFFFFFFFF, 0x0⟩,
  ⟨0, 0, 0xB0, 2, 4, 1, .ro, 0xFFFFFFFF, 0x0⟩,
  ⟨0, 0, 0xB8, 2, 4, 1, .ro, 0xFFFFFFFF, 0x0⟩,
  ⟨0, 0, 0x200, 8, 16, 1, .rw, 0xFFFFF, 0x0⟩,
  ⟨0, 0, 0x204, 8, 16, 1, .rw, 0xFFFFF, 0x0⟩,
  ⟨0, 0, 0x208, 8, 16, 1, .rw, 0xFFFFFFFF, 0x0⟩,
  ⟨0, 0, 0x20C, 8, 16, 1, .rw, 0xF, 0x0⟩,
  ⟨0, 0, 0xF00, 1, 4, 1, .ro, 0xFFFFFFFF, 0x0⟩,
  ⟨0, 0, 0xF04, 1, 4, 1, .ro, 0xFFFFFFFF, 0x0⟩,
  ⟨0, 0, 0xF08, 1, 4, 1, .ro, 0xFFFFFFFF, 0x0⟩,
  ⟨0, 0, 0xF0C, 1, 4, 1, .ro, 0xFFFFFFFF, 0x0⟩,
  ⟨0, 0, 0xF10, 1, 4, 1, .ro, 0xFFFFFFFF, 0x0⟩,
  ⟨0, 0, 0xF14, 1, 4, 1, .ro, 0xFFFFFFFF, 0x0⟩
]

/-- The register table of CAD. -/
def rowsCAD : List Row := [
  ⟨0, 0, 0x40, 1, 4, 1, .rw, 0x3, 0x0⟩,
  ⟨0, 0, 0x44, 1, 4, 1, .ro, 0x1F, 0x0⟩,
  ⟨0, 0, 0x48, 1, 4, 1, .wo, 0xFFFFFFFF, 0x0⟩,
  ⟨0, 0, 0x50, 2, 4, 1, .rw, 0xFFFFFFFF, 0x0⟩,
  ⟨0, 0, 0x58, 1, 4, 1, .rw, 0xFFFFFFFF, 0x1FCA055⟩,
  ⟨0, 0, 0x5C, 1, 4, 1, .rw, 0x7FF, 0x60⟩,
  ⟨0, 0, 0x60, 2, 4, 1, .ro, 0xFFFFFFFF, 0x0⟩,
  ⟨0, 0, 0x68, 1, 4, 1, .ro, 0x3FF, 0x0⟩,
  ⟨0, 0, 0x6C, 1, 4, 1, .ro, 0xFFFFFFFF, 0x0⟩,
  ⟨0, 0, 0x70, 1, 4, 1, .rw, 0xFFFFFFFF, 0x7F2815⟩,
  ⟨0, 0, 0x80, 8, 16, 1, .rw, 0x7FFFFF, 0x0⟩,
  ⟨0, 0, 0x84, 8, 16, 1, .rw, 0xFFFFFFFF, 0x0⟩,
  ⟨0, 0, 0x88, 8, 16, 1, .rw, 0xFFFFFFFF, 0x2710⟩,
  ⟨0, 0, 0x100, 4, 8, 1, .rw, 0x3FFFFF, 0x0⟩,
  ⟨0, 0, 0x120, 1, 4, 1, .rw, 0x3FFFFF, 0x0⟩,
  ⟨0, 0, 0xF00, 1, 4, 1, .ro, 0xFFFFFFFF, 0x0⟩,
  ⟨0, 0, 0xF04, 1, 4, 1, .ro, 0xFFFFFFFF, 0x0⟩,
  ⟨0, 0, 0xF08, 1, 4, 1, .ro, 0xFFFFFFFF, 0x0⟩,
  ⟨0, 0, 0xF0C, 1, 4, 1, .ro, 0xFFFFFFFF, 0x0⟩,
  ⟨0, 0, 0xF10, 1, 4, 1, .ro, 0xFFFFFFFF, 0x0⟩,
  ⟨0, 0, 0xF14, 1, 4, 1, .ro, 0xFFFFFFFF, 0x0⟩
]

/-- The register table of SNS. -/
def rowsSNS : List Row := [
  ⟨0, 7, 0x40, 1, 4, 1, .rwl, 0xFFFF, 0x0⟩,
  ⟨0, 7, 0x44, 1, 4, 1, .ro, 0x7F, 0x0⟩,
  ⟨0, 7, 0x48, 2, 4, 1, .ro, 0xFFFFFFFF, 0x0⟩,
  ⟨0, 7, 0x50, 1, 4, 1, .ro, 0xFFFF, 0x0⟩,
  ⟨0, 7, 0xF00, 1, 4, 1, .ro, 0xFFFFFFFF, 0x0⟩,
  ⟨0, 7, 0xF04, 1, 4, 1, .ro, 0xFFFFFFFF, 0x0⟩,
  ⟨0, 7, 0xF08, 1, 4, 1, .ro, 0xFFFFFFFF, 0x0⟩,
  ⟨0, 7, 0xF0C, 1, 4, 1, .ro, 0xFFFFFFFF, 0x0⟩,
  ⟨0, 7, 0xF10, 1, 4, 1, .ro, 0xFFFFFFFF, 0x0⟩,
  ⟨0, 7, 0xF14, 1, 4, 1, .ro, 0xFFFFFFFF, 0x0⟩,
  ⟨0, 7, 0xF18, 1, 4, 1, .ro, 0xFFFFFFFF, 0x0⟩
]

/-- The register table of FUS. -/
def rowsFUS : List Row := [
  ⟨0, 0, 0x40, 1, 4, 1, .rw, 0x1, 0x0⟩,
  ⟨0, 0, 0x44, 1, 4, 1, .ro, 0x7F, 0x0⟩,
  ⟨0, 0, 0x48, 1, 4, 1, .rwl, 0x7, 0x0⟩,
  ⟨0, 0, 0x50, 2, 4, 1, .rwl, 0xFFFFFFFF, 0x0⟩,
  ⟨0, 0, 0x58, 2, 4, 1, .rwl, 0xFFFFFFFF, 0x0⟩,
  ⟨0, 0, 0x60, 1, 4, 1, .wo, 0xFFFFFFFF, 0x0⟩,
  ⟨0, 0, 0x64, 1, 4, 1, .ro, 0xFF, 0x0⟩,
  ⟨0, 0, 0x68, 1, 4, 1, .rw, 0xFFFFFFFF, 0x0⟩,
  ⟨0, 0, 0x6C, 1, 4, 1, .rw, 0xFFFFFFFF, 0x4C4B40⟩,
  ⟨0, 0, 0x70, 1, 4, 1, .rw, 0xFFFFFFFF, 0x5F5E100⟩,
  ⟨0, 0, 0x74, 1, 4, 1, .rw, 0x1F, 0x0⟩,
  ⟨0, 0, 0x78, 1, 4, 1, .ro, 0x1FFF, 0x0⟩,
  ⟨0, 0, 0x7C, 1, 4, 1, .ro, 0xFFFFFFFF, 0x0⟩,
  ⟨0, 0, 0x80, 1, 4, 1, .ro, 0xFFFFFFFF, 0x0⟩,
  ⟨0, 0, 0x84, 1, 4, 1, .ro, 0xFFFFFFFF, 0x0⟩,
  ⟨0, 0, 0x88, 1, 4, 1, .ro, 0xFFFFFFFF, 0x0⟩,
  ⟨0, 0, 0x90, 2, 4, 1, .ro, 0xFFFFFFFF, 0x0⟩,
  ⟨0, 0, 0x98, 1, 4, 1, .ro, 0xF, 0x0⟩,
  ⟨0, 0, 0xF00, 1, 4, 1, .ro, 0xFFFFFFFF, 0x0⟩,
  ⟨0, 0, 0xF04, 1, 4, 1, .ro, 0xFFFFFFFF, 0x0⟩,
  ⟨0, 0, 0xF08, 1, 4, 1, .ro, 0xFFFFFFFF, 0x0⟩,
  ⟨0, 0, 0xF0C, 1, 4, 1, .ro, 0xFFFFFFFF, 0x0⟩,
  ⟨0, 0, 0xF10, 1, 4, 1, .ro, 0xFFFFFFFF, 0x0⟩,
  ⟨0, 0, 0xF14, 1, 4, 1, .ro, 0xFFFFFFFF, 0x0⟩,
  ⟨0, 0, 0xF18, 1, 4, 1, .ro, 0xFFFFFFFF, 0x0⟩,
  ⟨0, 0, 0xF1C, 1, 4, 1, .ro, 0xFFFFFFFF, 0x0⟩,
  ⟨0, 0, 0xF20, 1, 4, 1, .ro, 0xFFFFFFFF, 0x0⟩,
  ⟨0, 0, 0xF24, 1, 4, 1, .ro, 0xFFFFFFFF, 0x0⟩,
  ⟨0, 0, 0xF28, 1, 4, 1, .ro, 0xFFFFFFFF, 0x0⟩,
  ⟨0, 0, 0xF2C, 1, 4, 1, .ro, 0xFFFFFFFF, 0x0⟩,
  ⟨0, 0, 0xF30, 1, 4, 1, .ro, 0xFFFFFFFF, 0x0⟩,
  ⟨0, 0, 0xF34, 1, 4, 1, .ro, 0xFFFFFFFF, 0x0⟩,
  ⟨0, 0, 0xF38, 1, 4, 1, .ro, 0xFFFFFFFF, 0x0⟩
]

/-- The register table of TE. -/
def rowsTE : List Row := [
  ⟨0, 7, 0x40, 1, 4, 1, .ro, 0xF7, 0x0⟩,
  ⟨0, 7, 0x44, 1, 4, 1, .rwl, 0x3, 0x1⟩,
  ⟨0, 7, 0x48, 2, 4, 1, .ro, 0xFFFFFFFF, 0x0⟩,
  ⟨0, 7, 0x50, 1, 4, 1, .ro, 0xFFFFFFFF, 0x0⟩,
  ⟨0, 7, 0x54, 1, 4, 1, .ro, 0x3, 0x0⟩,
  ⟨0, 7, 0x58, 1, 4, 1, .ro, 0xFFFFFFFF, 0x0⟩,
  ⟨0, 7, 0x5C, 1, 4, 1, .ro, 0xFFFFFFFF, 0x0⟩,
  ⟨0, 7, 0x60, 2, 4, 1, .ro, 0xFFFFFFFF, 0x0⟩,
  ⟨0, 7, 0x68, 1, 4, 1, .ro, 0x3FFFFFFF, 0x0⟩,
  ⟨0, 7, 0x6C, 1, 4, 1, .ro, 0xFFFFFFFF, 0x0⟩,
  ⟨0, 7, 0x70, 1, 4, 1, .ro, 0xFFFFFFFF, 0x0⟩,
  ⟨0, 7, 0x74, 1, 4, 1, .ro, 0x7, 0x0⟩,
  ⟨0, 7, 0xF00, 1, 4, 1, .ro, 0xFFFFFFFF, 0x0⟩,
  ⟨0, 7, 0xF04, 1, 4, 1, .ro, 0xFFFFFFFF, 0x0⟩,
  ⟨0, 7, 0xF08, 1, 4, 1, .ro, 0xFFFF, 0x0⟩,
  ⟨0, 7, 0xF0C, 1, 4, 1, .ro, 0xFFFFFFFF, 0x0⟩,
  ⟨0, 7, 0xF10, 1, 4, 1, .ro, 0xFFFFFFFF, 0x0⟩,
  ⟨0, 7, 0xF14, 1, 4, 1, .ro, 0xFFFFFFFF, 0x0⟩,
  ⟨0, 7, 0xF18, 1, 4, 1, .ro, 0xFFFFFFFF, 0x0⟩,
  ⟨0, 7, 0xF1C, 1, 4, 1, .ro, 0xFFFFFFFF, 0x0⟩,
  ⟨0, 7, 0xF20, 1, 4, 1, .ro, 0xFFFFFFFF, 0x0⟩,
  ⟨0, 7, 0xF24, 1, 4, 1, .ro, 0xFFFFFFFF, 0x0⟩,
  ⟨0, 7, 0xF28, 1, 4, 1, .ro, 0xFFFFFFFF, 0x0⟩,
  ⟨0, 7, 0xF2C, 1, 4, 1, .ro, 0xFFFFFFFF, 0x0⟩,
  ⟨0, 7, 0xF30, 1, 4, 1, .ro, 0xFFFFFFFF, 0x0⟩,
  ⟨0, 7, 0xF34, 1, 4, 1, .ro, 0xFFFFFFFF, 0x0⟩,
  ⟨0, 7, 0x78, 1, 4, 1, .ro, 0xFFF, 0x0⟩,
  ⟨0, 7, 0x7C, 2, 4, 1, .ro, 0xFFFFFFFF, 0x0⟩,
  ⟨0, 7, 0xF38, 1, 4, 1, .ro, 0xFFFFFFFF, 0x0⟩
]

/-- The register table of PSQ. -/
def rowsPSQ : List Row := [
  ⟨0, 7, 0x40, 1, 4, 1, .ro, 0x7FF1F, 0x0⟩,
  ⟨0, 7, 0x44, 1, 4, 1, .rwl, 0x3, 0x0⟩,
  ⟨0, 7, 0x48, 1, 4, 1, .rwl, 0xFF, 0x0⟩,
  ⟨0, 7, 0x4C, 1, 4, 1, .rwl, 0xFFFFFFFF, 0x0⟩,
  ⟨0, 7, 0x50, 1, 4, 1, .rwl, 0xFFFFFFFF, 0x0⟩,
  ⟨0, 7, 0x54, 1, 4, 1, .rwl, 0xFFFFFFFF, 0x0⟩,
  ⟨0, 7, 0x58, 1, 4, 1, .rwl, 0xF, 0x0⟩,
  ⟨0, 7, 0x60, 2, 4, 1, .rwl, 0xFFFFFFFF, 0x0⟩,
  ⟨0, 7, 0x68, 2, 4, 1, .rwl, 0xFFFFFFFF, 0x0⟩,
  ⟨0, 7, 0x70, 2, 4, 1, .rwl, 0xFFFFFFFF, 0x0⟩,
  ⟨0, 7, 0x78, 1, 4, 1, .ro, 0xFFFFFFFF, 0x0⟩,
  ⟨0, 7, 0x7C, 1, 4, 1, .ro, 0xFFFFFFFF, 0x0⟩,
  ⟨0, 7, 0x80, 2, 4, 1, .ro, 0xFFFFFFFF, 0x0⟩,
  ⟨0, 7, 0x88, 1, 4, 1, .ro, 0x7F, 0x0⟩,
  ⟨0, 7, 0x90, 8, 4, 1, .ro, 0xFFFFFFFF, 0x0⟩,
  ⟨0, 7, 0xB0, 8, 4, 1, .ro, 0xFFFFFFFF, 0x0⟩,
  ⟨0, 7, 0xF00, 1, 4, 1, .ro, 0xFFFFFFFF, 0x0⟩,
  ⟨0, 7, 0xF04, 1, 4, 1, .ro, 0xFFFFFFFF, 0x0⟩,
  ⟨0, 7, 0xF08, 1, 4, 1, .ro, 0xFFFFFFFF, 0x0⟩,
  ⟨0, 7, 0xF0C, 1, 4, 1, .ro, 0xFFFFFFFF, 0x0⟩,
  ⟨0, 7, 0xF10, 1, 4, 1, .ro, 0xFFFFFFFF, 0x0⟩,
  ⟨0, 7, 0xF14, 1, 4, 1, .ro, 0xFFFFFFFF, 0x0⟩,
  ⟨0, 7, 0xF18, 1, 4, 1, .ro, 0xFFFFFFFF, 0x0⟩
]

/-- The register table of BSQ. -/
def rowsBSQ : List Row := [
  ⟨0, 7, 0x100, 1, 4, 1, .rwl, 0xFFFFFFFF, 0x0⟩,
  ⟨0, 7, 0x104, 1, 4, 1, .rwl, 0x1FFFFF, 0x0⟩,
  ⟨0, 7, 0x108, 1, 4, 1, .rwl, 0x3FF, 0x0⟩,
  ⟨0, 7, 0x10C, 1, 4, 1, .rwl, 0xFFFFFFFF, 0x0⟩,
  ⟨0, 7, 0x110, 1, 4, 1, .rwl, 0xFFFFFFFF, 0x0⟩,
  ⟨0, 7, 0x114, 1, 4, 1, .rwl, 0x3FFFF, 0x0⟩,
  ⟨0, 7, 0x118, 2, 4, 1, .rwl, 0xFFFFFFFF, 0x0⟩,
  ⟨0, 7, 0x120, 1, 4, 1, .rwl, 0x3FFFFFFF, 0x0⟩,
  ⟨0, 7, 0x124, 2, 4, 1, .rwl, 0xFFFFFFFF, 0x0⟩,
  ⟨0, 7, 0x12C, 1, 4, 1, .rwl, 0x3FFFFFFF, 0x0⟩,
  ⟨0, 7, 0x130, 1, 4, 1, .rw, 0xFFFFFFFF, 0x0⟩,
  ⟨0, 7, 0x134, 1, 4, 1, .rw, 0xFFFFFFFF, 0x0⟩,
  ⟨0, 7, 0x138, 1, 4, 1, .rw, 0xFFFFFFFF, 0x0⟩,
  ⟨0, 7, 0x13C, 1, 4, 1, .rw, 0xFFFFFFFF, 0x0⟩,
  ⟨0, 7, 0x140, 1, 4, 1, .rw, 0xFFFFFFFF, 0x1F40⟩,
  ⟨0, 7, 0x144, 1, 4, 1, .ro, 0xFFFFFFFF, 0x0⟩,
  ⟨0, 7, 0x148, 1, 4, 1, .ro, 0xFFFFFFFF, 0x0⟩,
  ⟨0, 7, 0x14C, 1, 4, 1, .ro, 0xFFFFFFFF, 0x0⟩,
  ⟨0, 7, 0x150, 1, 4, 1, .rw, 0xFFFFFFFF, 0x0⟩,
  ⟨0, 7, 0x154, 1, 4, 1, .ro, 0xFFFFFFFF, 0x0⟩,
  ⟨0, 7, 0x158, 1, 4, 1, .ro, 0xFFFFFFFF, 0x0⟩,
  ⟨0, 7, 0xF40, 1, 4, 1, .ro, 0xFFFFFFFF, 0x0⟩,
  ⟨0, 7, 0xF44, 1, 4, 1, .ro, 0xFFFFFFFF, 0x0⟩,
  ⟨0, 7, 0xF48, 1, 4, 1, .ro, 0xFFFFFFFF, 0x0⟩,
  ⟨0, 7, 0xF4C, 1, 4, 1, .ro, 0xFFFFFFFF, 0x0⟩,
  ⟨0, 7, 0xF50, 1, 4, 1, .ro, 0xFFFFFFFF, 0x0⟩,
  ⟨0, 7, 0xF54, 1, 4, 1, .ro, 0xFFFFFFFF, 0x0⟩,
  ⟨0, 7, 0xF58, 1, 4, 1, .ro, 0xFFFFFFFF, 0x0⟩,
  ⟨0, 7, 0xF5C, 1, 4, 1, .ro, 0xFFFFFFFF, 0x0⟩,
  ⟨0, 7, 0xF60, 1, 4, 1, .ro, 0xFFFFFFFF, 0x0⟩,
  ⟨0, 7, 0xF64, 1, 4, 1, .ro, 0xFFFFFFFF, 0x0⟩,
  ⟨0, 7, 0x40, 1, 4, 1, .ro, 0x3FFFF07, 0x0⟩,
  ⟨0, 7, 0x44, 1, 4, 1, .rw, 0x1FF, 0x40⟩,
  ⟨0, 7, 0x48, 1, 4, 1, .rw, 0x7FF, 0x100⟩,
  ⟨0, 7, 0x4C, 1, 4, 1, .rw, 0x7FF, 0x80⟩,
  ⟨0, 7, 0x50, 1, 4, 1, .rw, 0xFFFF, 0x0⟩,
  ⟨0, 7, 0x54, 1, 4, 1, .rwl, 0x1FF, 0x40⟩,
  ⟨0, 7, 0x58, 2, 4, 1, .rwl, 0xFFFFFFFF, 0x0⟩,
  ⟨0, 7, 0x60, 8, 4, 1, .rwl, 0x7FF, 0x0⟩,
  ⟨0, 7, 0x80, 2, 4, 1, .ro, 0xFFFFFFFF, 0x0⟩,
  ⟨0, 7, 0x88, 1, 4, 1, .ro, 0x3FFFFF, 0x0⟩,
  ⟨0, 7, 0xF00, 1, 4, 1, .ro, 0xFFFFFFFF, 0x0⟩,
  ⟨0, 7, 0xF04, 1, 4, 1, .ro, 0xFFFFFFFF, 0x0⟩,
  ⟨0, 7, 0xF08, 1, 4, 1, .ro, 0xFFFFFFFF, 0x0⟩,
  ⟨0, 7, 0xF0C, 1, 4, 1, .ro, 0xFFFFFFFF, 0x0⟩,
  ⟨0, 7, 0xF10, 1, 4, 1, .ro, 0xFFFFFFFF, 0x0⟩,
  ⟨0, 7, 0xF14, 1, 4, 1, .ro, 0xFFFFFFFF, 0x0⟩,
  ⟨0, 7, 0xF18, 1, 4, 1, .ro, 0xFFFFFFFF, 0x0⟩,
  ⟨0, 7, 0xF1C, 1, 4, 1, .ro, 0xFFFFFFFF, 0x0⟩,
  ⟨0, 7, 0xF20, 1, 4, 1, .ro, 0xFFFFFFFF, 0x0⟩,
  ⟨0, 7, 0x8C, 1, 4, 1, .ro, 0xFFFF, 0x0⟩,
  ⟨0, 7, 0xF24, 1, 4, 1, .ro, 0xFFFFFFFF, 0x0⟩
]

/-- The register table of PDMA. -/
def rowsPDMA : List Row := [
  ⟨0, 3, 0x40, 1, 4, 1, .ro, 0xF3, 0x0⟩,
  ⟨0, 3, 0x44, 1, 4, 1, .rwl, 0x7F, 0x8⟩,
  ⟨0, 3, 0x48, 1, 4, 1, .ro, 0xFFFF, 0x0⟩,
  ⟨0, 3, 0x4C, 1, 4, 1, .ro, 0xFFFFFFFF, 0x0⟩,
  ⟨0, 3, 0x50, 1, 4, 1, .ro, 0xFFFFFFFF, 0x0⟩,
  ⟨0, 3, 0x54, 1, 4, 1, .ro, 0x7, 0x0⟩,
  ⟨0, 3, 0xF00, 1, 4, 1, .ro, 0xFFFFFFFF, 0x0⟩,
  ⟨0, 3, 0xF04, 1, 4, 1, .ro, 0xFFFFFFFF, 0x0⟩,
  ⟨0, 3, 0xF08, 1, 4, 1, .ro, 0xFFFFFFFF, 0x0⟩,
  ⟨0, 3, 0xF0C, 1, 4, 1, .ro, 0xFFFFFFFF, 0x0⟩,
  ⟨0, 3, 0xF10, 1, 4, 1, .ro, 0xFFFFFFFF, 0x0⟩,
  ⟨0, 3, 0xF14, 1, 4, 1, .ro, 0xFFFFFFFF, 0x0⟩,
  ⟨0, 3, 0xF18, 1, 4, 1, .ro, 0xFFFFFFFF, 0x0⟩,
  ⟨0, 3, 0xF1C, 1, 4, 1, .ro, 0xFFFFFFFF, 0x0⟩,
  ⟨0, 3, 0xF20, 1, 4, 1, .ro, 0xFFFFFFFF, 0x0⟩
]

/-- The register table of GDMA. -/
def rowsGDMA : List Row := [
]

/-- The register table of YARD. -/
def rowsYARD : List Row := [
  ⟨0, 0, 0x40, 1, 4, 1, .rw, 0x1, 0x1⟩,
  ⟨0, 0, 0x44, 1, 4, 1, .ro, 0x1F07, 0x0⟩,
  ⟨0, 0, 0x48, 1, 4, 1, .rw, 0xF, 0xA⟩,
  ⟨0, 0, 0x4C, 1, 4, 1, .ro, 0xFFFFFFF, 0x0⟩,
  ⟨0, 0, 0x50, 1, 4, 1, .ro, 0xFF, 0x0⟩,
  ⟨0, 0, 0x100, 32, 16, 1, .rwl, 0x81FFFFFF, 0x0⟩,
  ⟨0, 0, 0x104, 32, 16, 1, .rwl, 0x3FFFFFFF, 0x0⟩,
  ⟨0, 0, 0x108, 32, 16, 1, .rwl, 0x3FFFF, 0x0⟩,
  ⟨0, 0, 0xF00, 1, 4, 1, .ro, 0xFFFFFFFF, 0x0⟩,
  ⟨0, 0, 0xF04, 1, 4, 1, .ro, 0xFFFFFFFF, 0x0⟩,
  ⟨0, 0, 0xF08, 1, 4, 1, .ro, 0xFFFFFFFF, 0x0⟩,
  ⟨0, 0, 0xF0C, 1, 4, 1, .ro, 0xFFFFFFFF, 0x0⟩,
  ⟨0, 0, 0xF10, 1, 4, 1, .ro, 0xFFFFFFFF, 0x0⟩,
  ⟨0, 0, 0xF14, 1, 4, 1, .ro, 0xFFFFFFFF, 0x0⟩
]

/-- The register table of LOFT. -/
def rowsLOFT : List Row := [
  ⟨0, 0, 0x40, 1, 4, 1, .rwl, 0x1, 0x0⟩,
  ⟨0, 0, 0x44, 1, 4, 1, .rw, 0x1, 0x1⟩,
  ⟨0, 0, 0x48, 1, 4, 1, .ro, 0x7F, 0x0⟩,
  ⟨0, 0, 0x4C, 1, 4, 1, .ro, 0xFFFF, 0x0⟩,
  ⟨0, 0, 0x50, 1, 4, 1, .ro, 0xFFFFFFFF, 0x0⟩,
  ⟨0, 0, 0x54, 1, 4, 1, .rw, 0x1F, 0x4⟩,
  ⟨0, 0, 0x58, 1, 4, 1, .ro, 0xFFFF, 0x0⟩,
  ⟨0, 0, 0x60, 2, 4, 1, .ro, 0xFFFFFFFF, 0x0⟩,
  ⟨0, 0, 0x68, 1, 4, 1, .ro, 0x1FF, 0x0⟩,
  ⟨0, 0, 0x80, 8, 4, 1, .rwl, 0xFFFFFFFF, 0x0⟩,
  ⟨0, 0, 0xF00, 1, 4, 1, .ro, 0xFFFFFFFF, 0x0⟩,
  ⟨0, 0, 0xF04, 1, 4, 1, .ro, 0xFFFFFFFF, 0x0⟩,
  ⟨0, 0, 0xF08, 1, 4, 1, .ro, 0xFFFFFFFF, 0x0⟩,
  ⟨0, 0, 0xF0C, 1, 4, 1, .ro, 0xFFFFFFFF, 0x0⟩,
  ⟨0, 0, 0xF10, 1, 4, 1, .ro, 0xFFFFFFFF, 0x0⟩,
  ⟨0, 0, 0xF14, 1, 4, 1, .ro, 0xFFFFFFFF, 0x0⟩,
  ⟨0, 0, 0xF18, 1, 4, 1, .ro, 0xFFFFFFFF, 0x0⟩,
  ⟨0, 0, 0xF1C, 1, 4, 1, .ro, 0xFFFFFFFF, 0x0⟩,
  ⟨0, 0, 0xF20, 1, 4, 1, .ro, 0xFFFFFFFF, 0x0⟩
]

/-- The register table of BRDL. -/
def rowsBRDL : List Row := [
  ⟨0, 19, 0x40, 1, 4, 1, .rwl, 0xFF, 0x0⟩,
  ⟨0, 19, 0x44, 1, 4, 1, .rwl, 0x7FFFF, 0x0⟩,
  ⟨0, 19, 0x48, 1, 4, 1, .rwl, 0x1FFFF, 0x200⟩,
  ⟨0, 19, 0x4C, 1, 4, 1, .rwl, 0x7FFFF, 0x0⟩,
  ⟨0, 19, 0x50, 1, 4, 1, .rwl, 0x1FFFF, 0x200⟩,
  ⟨0, 19, 0x54, 1, 4, 1, .rwl, 0xFFFF, 0x0⟩,
  ⟨0, 19, 0x58, 1, 4, 1, .ro, 0x3F, 0x0⟩,
  ⟨0, 19, 0x5C, 1, 4, 1, .ro, 0xFFFFFFFF, 0x0⟩,
  ⟨0, 19, 0x60, 1, 4, 1, .ro, 0xFFFFFFFF, 0x0⟩,
  ⟨0, 19, 0x64, 1, 4, 1, .wo, 0xFFFFFFFF, 0x0⟩,
  ⟨0, 19, 0x68, 1, 4, 1, .ro, 0xFFFFFFFF, 0x0⟩,
  ⟨0, 19, 0xF00, 1, 4, 1, .ro, 0xFFFFFFFF, 0x0⟩,
  ⟨0, 19, 0xF04, 1, 4, 1, .ro, 0xFFFFFFFF, 0x0⟩,
  ⟨0, 19, 0xF08, 1, 4, 1, .ro, 0xFFFFFFFF, 0x0⟩,
  ⟨0, 19, 0xF0C, 1, 4, 1, .ro, 0xFFFFFFFF, 0x0⟩,
  ⟨0, 19, 0xF10, 1, 4, 1, .ro, 0xFFFFFFFF, 0x0⟩,
  ⟨20, 20, 0x40, 1, 4, 1, .rwl, 0x3, 0x1⟩,
  ⟨20, 20, 0x44, 1, 4, 1, .ro, 0xFFFFFFFF, 0x0⟩,
  ⟨20, 20, 0x48, 1, 4, 1, .ro, 0xFFFFFFFF, 0x0⟩,
  ⟨20, 20, 0x4C, 1, 4, 1, .ro, 0xFFFFFFFF, 0x0⟩,
  ⟨20, 20, 0x50, 1, 4, 1, .ro, 0xFFFFFFFF, 0x0⟩,
  ⟨20, 20, 0xF00, 1, 4, 1, .ro, 0xFFFFFFFF, 0x0⟩,
  ⟨20, 20, 0xF04, 1, 4, 1, .ro, 0xFFFFFFFF, 0x0⟩
]

/-- The register table of GFX. -/
def rowsGFX : List Row := [
  ⟨0, 0, 0x40, 1, 4, 1, .ro, 0xFFFFFF, 0x0⟩,
  ⟨0, 0, 0x44, 1, 4, 1, .rwl, 0xF, 0x2⟩,
  ⟨0, 0, 0x48, 1, 4, 1, .rw, 0xF, 0x0⟩,
  ⟨0, 0, 0x4C, 1, 4, 1, .ro, 0xFFFFFFFF, 0x0⟩,
  ⟨0, 0, 0x50, 1, 4, 1, .ro, 0xFFFFFFFF, 0x0⟩,
  ⟨0, 0, 0x54, 1, 4, 1, .ro, 0xFFFFFFFF, 0x0⟩,
  ⟨1, 16, 0x60, 1, 4, 1, .rwl, 0x7, 0x0⟩,
  ⟨1, 16, 0x64, 1, 4, 1, .rwl, 0xFFFFFFFF, 0x0⟩,
  ⟨1, 16, 0x68, 1, 4, 1, .ro, 0x3F, 0x0⟩,
  ⟨1, 16, 0x6C, 2, 4, 1, .ro, 0xFFFFFFFF, 0x0⟩,
  ⟨0, 16, 0xF00, 1, 4, 1, .ro, 0xFFFFFFFF, 0x0⟩,
  ⟨0, 16, 0xF04, 1, 4, 1, .ro, 0xFFFFFFFF, 0x0⟩,
  ⟨0, 16, 0xF08, 1, 4, 1, .ro, 0xFFFFFFFF, 0x0⟩,
  ⟨0, 16, 0xF0C, 1, 4, 1, .ro, 0xFFFFFFFF, 0x0⟩,
  ⟨0, 16, 0xF10, 1, 4, 1, .ro, 0xFFFFFFFF, 0x0⟩,
  ⟨0, 16, 0xF14, 1, 4, 1, .ro, 0xFFFFFFFF, 0x0⟩,
  ⟨0, 16, 0xF18, 1, 4, 1, .ro, 0xFFFFFFFF, 0x0⟩
]

/-- The register table of DPY. -/
def rowsDPY : List Row := [
  ⟨0, 3, 0x40, 1, 4, 1, .rw, 0x7, 0x0⟩,
  ⟨0, 3, 0x44, 1, 4, 1, .ro, 0xF, 0x0⟩,
  ⟨0, 3, 0x48, 2, 4, 1, .ro, 0xFFFFFFFF, 0x0⟩,
  ⟨0, 3, 0x50, 1, 4, 1, .rwl, 0xFFFFFFFF, 0x0⟩,
  ⟨0, 3, 0x54, 1, 4, 1, .rwl, 0x3FFF3FFF, 0x0⟩,
  ⟨0, 3, 0x58, 1, 4, 1, .rwl, 0x3FFF3FFF, 0x0⟩,
  ⟨0, 3, 0x5C, 1, 4, 1, .rwl, 0x3FFF3FFF, 0x0⟩,
  ⟨0, 3, 0x60, 1, 4, 1, .rwl, 0x3FFF3FFF, 0x0⟩,
  ⟨0, 3, 0x64, 1, 4, 1, .rwl, 0x7FFFF, 0x0⟩,
  ⟨0, 3, 0x68, 1, 4, 1, .rwl, 0xFFFFFFFF, 0x0⟩,
  ⟨0, 3, 0x100, 6, 32, 1, .rw, 0x3FFF, 0x0⟩,
  ⟨0, 3, 0x104, 6, 32, 1, .rw, 0x3FFF3FFF, 0x0⟩,
  ⟨0, 3, 0x108, 6, 32, 1, .rw, 0x3FFF3FFF, 0x0⟩,
  ⟨0, 3, 0x10C, 6, 32, 1, .rw, 0x3FFF3FFF, 0x0⟩,
  ⟨0, 3, 0x110, 6, 32, 2, .rw, 0xFFFFFFFF, 0x0⟩,
  ⟨0, 3, 0x118, 6, 32, 1, .rw, 0xFFFFFFFF, 0x0⟩,
  ⟨0, 3, 0xF00, 1, 4, 1, .ro, 0xFFFFFFFF, 0x0⟩,
  ⟨0, 3, 0xF04, 1, 4, 1, .ro, 0xFFFFFFFF, 0x0⟩,
  ⟨0, 3, 0xF08, 1, 4, 1, .ro, 0xFFFFFFFF, 0x0⟩,
  ⟨0, 3, 0xF0C, 1, 4, 1, .ro, 0xFFFFFFFF, 0x0⟩,
  ⟨0, 3, 0xF10, 1, 4, 1, .ro, 0xFFFFFFFF, 0x0⟩,
  ⟨4, 7, 0x40, 1, 4, 1, .rw, 0xFF01, 0x200⟩,
  ⟨4, 7, 0x44, 1, 4, 1, .ro, 0x7FFFF, 0x0⟩,
  ⟨4, 7, 0x48, 2, 4, 1, .rwl, 0xFFFFFFFF, 0x0⟩,
  ⟨4, 7, 0x100, 16, 32, 1, .rw, 0x3FFF3FFF, 0x0⟩,
  ⟨4, 7, 0x104, 16, 32, 1, .rw, 0x3FF03FF, 0x0⟩,
  ⟨4, 7, 0x108, 16, 32, 1, .rw, 0x7FFFFFF, 0x0⟩,
  ⟨4, 7, 0x10C, 16, 32, 1, .rw, 0xFFFFFF, 0x0⟩,
  ⟨4, 7, 0x110, 16, 32, 1, .rw, 0xFFFFFFFF, 0x0⟩,
  ⟨4, 7, 0x114, 16, 32, 1, .rw, 0xFFFFFFFF, 0x0⟩,
  ⟨4, 7, 0x118, 16, 32, 1, .ro, 0xFFFFFFFF, 0x0⟩,
  ⟨4, 7, 0xF00, 1, 4, 1, .ro, 0xFFFFFFFF, 0x0⟩,
  ⟨4, 7, 0xF04, 1, 4, 1, .ro, 0xFFFFFFFF, 0x0⟩,
  ⟨4, 7, 0xF08, 1, 4, 1, .ro, 0xFFFFFFFF, 0x0⟩,
  ⟨4, 7, 0xF0C, 1, 4, 1, .ro, 0xFFFFFFFF, 0x0⟩
]

/-- The register table of NET. -/
def rowsNET : List Row := [
  ⟨0, 8, 0x40, 1, 4, 1, .rwl, 0x3FFF1FFF, 0x0⟩,
  ⟨0, 8, 0x44, 1, 4, 1, .ro, 0x7FF, 0x0⟩,
  ⟨0, 8, 0xF00, 1, 4, 1, .ro, 0xFFFFFFFF, 0x0⟩,
  ⟨0, 8, 0xF04, 1, 4, 1, .ro, 0xFFFFFFFF, 0x0⟩,
  ⟨0, 8, 0xF08, 1, 4, 1, .ro, 0xFFFFFFFF, 0x0⟩,
  ⟨0, 8, 0xF0C, 1, 4, 1, .ro, 0xFFFFFFFF, 0x0⟩,
  ⟨0, 8, 0xF10, 1, 4, 1, .ro, 0xFFFFFFFF, 0x0⟩,
  ⟨0, 8, 0xF14, 1, 4, 1, .ro, 0xFFFFFFFF, 0x0⟩,
  ⟨0, 8, 0xF18, 1, 4, 1, .ro, 0xFFFFFFFF, 0x0⟩,
  ⟨9, 9, 0x40, 2, 4, 1, .rw, 0xFFFFFFFF, 0x0⟩,
  ⟨9, 9, 0x48, 1, 4, 1, .rwl, 0xFFFFFFFF, 0x0⟩,
  ⟨9, 9, 0x4C, 1, 4, 1, .wo, 0xFFFFFFFF, 0x0⟩,
  ⟨9, 9, 0x50, 1, 4, 1, .ro, 0xFF, 0x0⟩,
  ⟨9, 9, 0x54, 1, 4, 1, .ro, 0xF, 0x0⟩,
  ⟨9, 9, 0x58, 2, 4, 1, .rwl, 0xFFFFFFFF, 0x0⟩,
  ⟨9, 9, 0x60, 1, 4, 1, .rw, 0x1FFF, 0x12D⟩,
  ⟨9, 9, 0x64, 1, 4, 1, .ro, 0xFFFFFFFF, 0x0⟩,
  ⟨9, 9, 0xF00, 1, 4, 1, .ro, 0xFFFFFFFF, 0x0⟩,
  ⟨9, 9, 0xF04, 1, 4, 1, .ro, 0xFFFFFFFF, 0x0⟩,
  ⟨9, 9, 0xF08, 1, 4, 1, .ro, 0xFFFFFFFF, 0x0⟩,
  ⟨9, 9, 0xF0C, 1, 4, 1, .ro, 0xFFFFFFFF, 0x0⟩,
  ⟨9, 9, 0xF10, 1, 4, 1, .ro, 0xFFFFFFFF, 0x0⟩
]

/-- The register table of CANG. -/
def rowsCANG : List Row := [
  ⟨0, 15, 0x40, 1, 4, 1, .rwl, 0xF, 0x0⟩,
  ⟨0, 15, 0x44, 1, 4, 1, .rwl, 0x3FFFFFFF, 0x0⟩,
  ⟨0, 15, 0x48, 1, 4, 1, .rwl, 0xFFFFFFFF, 0x0⟩,
  ⟨0, 15, 0x4C, 1, 4, 1, .rwl, 0x1FF, 0x0⟩,
  ⟨0, 15, 0x50, 1, 4, 1, .ro, 0x3FFFF, 0x3⟩,
  ⟨0, 15, 0x54, 1, 4, 1, .wo, 0xFFFFFFFF, 0x0⟩,
  ⟨16, 16, 0x60, 1, 4, 1, .rw, 0x3, 0x0⟩,
  ⟨0, 15, 0xF00, 1, 4, 1, .ro, 0xFFFFFFFF, 0x0⟩,
  ⟨0, 15, 0xF04, 1, 4, 1, .ro, 0xFFFFFFFF, 0x0⟩,
  ⟨0, 15, 0xF08, 1, 4, 1, .ro, 0xFFFFFFFF, 0x0⟩,
  ⟨0, 15, 0xF0C, 1, 4, 1, .ro, 0xFFFFFFFF, 0x0⟩,
  ⟨16, 16, 0xF10, 1, 4, 1, .ro, 0xFFFFFFFF, 0x0⟩,
  ⟨16, 16, 0xF14, 1, 4, 1, .ro, 0xFFFFFFFF, 0x0⟩,
  ⟨16, 16, 0xF18, 1, 4, 1, .ro, 0xFFFFFFFF, 0x0⟩,
  ⟨16, 16, 0xF1C, 1, 4, 1, .ro, 0xFFFFFFFF, 0x0⟩,
  ⟨16, 16, 0xF20, 1, 4, 1, .ro, 0xFFFFFFFF, 0x0⟩
]

/-- The register table of CBB. -/
def rowsCBB : List Row := [
  ⟨0, 0, 0x40, 1, 4, 1, .rwl, 0x3F01, 0xC00⟩,
  ⟨0, 0, 0x44, 1, 4, 1, .ro, 0x7FFF, 0x0⟩,
  ⟨0, 0, 0x48, 1, 4, 1, .rwl, 0xFFFF, 0x400⟩,
  ⟨0, 0, 0x4C, 1, 4, 1, .rw, 0x3FF, 0x64⟩,
  ⟨0, 0, 0x50, 4, 4, 1, .rw, 0x1F, 0x0⟩,
  ⟨0, 0, 0x60, 1, 4, 1, .rw, 0x3FF, 0x32⟩,
  ⟨0, 0, 0x64, 1, 4, 1, .ro, 0xFFFFFFF, 0x0⟩,
  ⟨0, 0, 0x68, 1, 4, 1, .ro, 0xFFF, 0x0⟩,
  ⟨0, 0, 0x70, 4, 4, 1, .rwl, 0x7FF, 0x3FF⟩,
  ⟨0, 0, 0x100, 16, 16, 1, .rwl, 0x1FFFFFF, 0x0⟩,
  ⟨0, 0, 0x104, 16, 16, 1, .rwl, 0x3FFFFFFF, 0x0⟩,
  ⟨0, 0, 0x108, 16, 16, 1, .rwl, 0x3FFF, 0x0⟩,
  ⟨0, 0, 0xF00, 1, 4, 1, .ro, 0xFFFFFFFF, 0x0⟩,
  ⟨0, 0, 0xF04, 1, 4, 1, .ro, 0xFFFFFFFF, 0x0⟩,
  ⟨0, 0, 0xF08, 1, 4, 1, .ro, 0xFFFFFFFF, 0x0⟩,
  ⟨0, 0, 0xF0C, 1, 4, 1, .ro, 0xFFFFFFFF, 0x0⟩,
  ⟨0, 0, 0xF10, 1, 4, 1, .ro, 0xFFFFFFFF, 0x0⟩,
  ⟨0, 0, 0xF14, 1, 4, 1, .ro, 0xFFFFFFFF, 0x0⟩,
  ⟨0, 0, 0xF18, 1, 4, 1, .ro, 0xFFFFFFFF, 0x0⟩,
  ⟨0, 0, 0xF1C, 1, 4, 1, .ro, 0xFFFFFFFF, 0x0⟩,
  ⟨0, 0, 0xF20, 1, 4, 1, .ro, 0xFFFFFFFF, 0x0⟩,
  ⟨0, 0, 0xF24, 1, 4, 1, .ro, 0xFFFFFFFF, 0x0⟩
]

/-- The register table of SAFE. -/
def rowsSAFE : List Row := [
  ⟨0, 0, 0x40, 1, 4, 1, .ro, 0x1FFFF, 0x0⟩,
  ⟨0, 0, 0x44, 1, 4, 1, .rwl, 0xFFFFFFFF, 0xA00C814⟩,
  ⟨0, 0, 0x48, 1, 4, 1, .wo, 0xFFFFFFFF, 0x0⟩,
  ⟨0, 0, 0x4C, 1, 4, 1, .wo, 0xFFFFFFFF, 0x0⟩,
  ⟨0, 0, 0x50, 1, 4, 1, .wo, 0xFF, 0x0⟩,
  ⟨0, 0, 0x54, 1, 4, 1, .wo, 0xFFFFFFFF, 0x0⟩,
  ⟨0, 0, 0x58, 1, 4, 1, .rwl, 0x7FFF, 0x0⟩,
  ⟨0, 0, 0x5C, 1, 4, 1, .rwl, 0x1FFFFFFF, 0x0⟩,
  ⟨0, 0, 0x60, 1, 4, 1, .rw, 0xFFFFFFFF, 0xF4240⟩,
  ⟨0, 0, 0x64, 1, 4, 1, .ro, 0xFF, 0x0⟩,
  ⟨0, 0, 0x68, 1, 4, 1, .ro, 0x1FFF, 0x0⟩,
  ⟨0, 0, 0x6C, 1, 4, 1, .ro, 0xFFFFFFFF, 0x0⟩,
  ⟨0, 0, 0x70, 1, 4, 1, .ro, 0x1F, 0x0⟩,
  ⟨0, 0, 0x74, 1, 4, 1, .ro, 0xFFFFFFFF, 0x0⟩,
  ⟨0, 0, 0x78, 1, 4, 1, .ro, 0xFF, 0x0⟩,
  ⟨0, 0, 0x7C, 2, 4, 1, .ro, 0xFFFFFFFF, 0x0⟩,
  ⟨0, 0, 0x100, 16, 16, 1, .rwl, 0x3FFFFFFF, 0x0⟩,
  ⟨0, 0, 0x104, 16, 16, 1, .rwl, 0xFFFFFFFF, 0x0⟩,
  ⟨0, 0, 0x108, 16, 16, 1, .rwl, 0x1FF, 0x3⟩,
  ⟨0, 0, 0x10C, 16, 16, 1, .ro, 0xFFF, 0x0⟩,
  ⟨0, 0, 0xF00, 1, 4, 1, .ro, 0xFFFF, 0x0⟩,
  ⟨0, 0, 0xF04, 1, 4, 1, .ro, 0xFFFFFFFF, 0x0⟩,
  ⟨0, 0, 0xF08, 1, 4, 1, .ro, 0xFFFF, 0x0⟩,
  ⟨0, 0, 0xF0C, 1, 4, 1, .ro, 0xFFFFFFFF, 0x0⟩,
  ⟨0, 0, 0xF10, 1, 4, 1, .ro, 0xFFFFFFFF, 0x0⟩,
  ⟨0, 0, 0xF14, 1, 4, 1, .ro, 0xFFFFFFFF, 0x0⟩,
  ⟨0, 0, 0xF18, 1, 4, 1, .ro, 0xFFFFFFFF, 0x0⟩,
  ⟨0, 0, 0xF1C, 1, 4, 1, .ro, 0xFFFFFFFF, 0x0⟩,
  ⟨0, 0, 0xF20, 1, 4, 1, .ro, 0xFFFF, 0x0⟩,
  ⟨0, 0, 0xF24, 1, 4, 1, .ro, 0xFFFFFFFF, 0x0⟩,
  ⟨0, 0, 0xF28, 1, 4, 1, .ro, 0xFFFFFFFF, 0x0⟩
]

/-- The register table of GLV. -/
def rowsGLV : List Row := [
  ⟨0, 3, 0x40, 1, 4, 1, .ro, 0x1F, 0x0⟩,
  ⟨0, 3, 0x44, 2, 4, 1, .ro, 0xFFFFFFFF, 0x0⟩,
  ⟨0, 3, 0x4C, 1, 4, 1, .ro, 0x7, 0x0⟩,
  ⟨0, 3, 0x50, 1, 4, 1, .ro, 0x7, 0x0⟩,
  ⟨0, 3, 0xF00, 1, 4, 1, .ro, 0xFFFF, 0x0⟩,
  ⟨0, 3, 0xF04, 1, 4, 1, .ro, 0xFFFF, 0x0⟩,
  ⟨0, 3, 0xF08, 1, 4, 1, .ro, 0xFFFFFFFF, 0x0⟩
]

/-- The register table of HBX. -/
def rowsHBX : List Row := [
  ⟨0, 0, 0x40, 1, 4, 1, .ro, 0xFF, 0x0⟩,
  ⟨0, 0, 0x44, 1, 4, 1, .ro, 0xFFFFFF, 0x0⟩,
  ⟨0, 0, 0x48, 1, 4, 1, .wo, 0xF, 0x0⟩,
  ⟨0, 0, 0x4C, 1, 4, 1, .ro, 0xF, 0x0⟩,
  ⟨0, 0, 0x50, 1, 4, 1, .ro, 0x1FFFF, 0x0⟩,
  ⟨0, 0, 0x54, 1, 4, 1, .ro, 0x7FFF, 0x0⟩,
  ⟨0, 0, 0x58, 1, 4, 1, .ro, 0xFFFF, 0x0⟩,
  ⟨0, 0, 0x5C, 1, 4, 1, .rwl, 0x1FFFF, 0x0⟩,
  ⟨0, 0, 0x60, 8, 4, 1, .ro, 0xFFFFFFFF, 0x0⟩,
  ⟨0, 0, 0xF00, 1, 4, 1, .ro, 0xFFFFFFFF, 0x0⟩,
  ⟨0, 0, 0xF04, 1, 4, 1, .ro, 0xFFFFFFFF, 0x0⟩,
  ⟨0, 0, 0xF08, 1, 4, 1, .ro, 0xFFFFFFFF, 0x0⟩,
  ⟨0, 0, 0xF0C, 1, 4, 1, .ro, 0xFFFFFFFF, 0x0⟩,
  ⟨0, 0, 0xF10, 1, 4, 1, .ro, 0xFFFFFFFF, 0x0⟩,
  ⟨0, 0, 0xF14, 1, 4, 1, .ro, 0xFFFFFFFF, 0x0⟩,
  ⟨0, 0, 0xF18, 1, 4, 1, .ro, 0xFFFFFFFF, 0x0⟩,
  ⟨0, 0, 0xF1C, 1, 4, 1, .ro, 0xFFFFFFFF, 0x0⟩,
  ⟨0, 0, 0xF20, 1, 4, 1, .ro, 0xFFFFFFFF, 0x0⟩,
  ⟨0, 0, 0xF24, 1, 4, 1, .ro, 0xFFFF, 0x0⟩
]

/-- The register table of PWR. -/
def rowsPWR : List Row := [
  ⟨0, 0, 0x40, 1, 4, 1, .ro, 0xFFFFFF, 0xFC0000⟩,
  ⟨0, 0, 0x44, 1, 4, 1, .wo, 0x11F, 0x0⟩,
  ⟨0, 0, 0x48, 1, 4, 1, .ro, 0xF, 0x0⟩,
  ⟨0, 0, 0x4C, 1, 4, 1, .ro, 0xFF, 0x0⟩,
  ⟨0, 0, 0x50, 1, 4, 1, .ro, 0xFFF, 0x0⟩,
  ⟨0, 0, 0x54, 1, 4, 1, .rwl, 0xFF, 0x73⟩,
  ⟨0, 0, 0x58, 1, 4, 1, .rw, 0xF, 0x0⟩,
  ⟨0, 0, 0x5C, 1, 4, 1, .ro, 0xFFF, 0x0⟩,
  ⟨0, 0, 0x60, 25, 4, 1, .ro, 0xFFFF, 0x0⟩,
  ⟨0, 0, 0xF00, 1, 4, 1, .ro, 0xFFFFFFFF, 0x0⟩,
  ⟨0, 0, 0xF04, 1, 4, 1, .ro, 0xFFFF, 0x0⟩,
  ⟨0, 0, 0xF08, 1, 4, 1, .ro, 0xFFFFFFFF, 0x0⟩,
  ⟨0, 0, 0xF0C, 1, 4, 1, .ro, 0xFFFFFFFF, 0x0⟩
]

/-- The register table of CLK. -/
def rowsCLK : List Row := [
  ⟨0, 0, 0x40, 1, 4, 1, .ro, 0x7F, 0x0⟩,
  ⟨0, 0, 0x44, 1, 4, 1, .ro, 0xFFFFF, 0x0⟩,
  ⟨0, 0, 0xF00, 1, 4, 1, .ro, 0xFFFF, 0x0⟩
]

/-- The register table of RST. -/
def rowsRST : List Row := [
  ⟨0, 0, 0x40, 1, 4, 1, .ro, 0xFF, 0x0⟩,
  ⟨0, 0, 0x44, 2, 4, 1, .ro, 0xFFFFFFFF, 0x0⟩,
  ⟨0, 0, 0xF00, 1, 4, 1, .ro, 0xFFFF, 0x0⟩
]

/-- The register table of ID. -/
def rowsID : List Row := [
  ⟨0, 0, 0x40, 16, 4, 1, .ro, 0xFFFFFFFF, 0x0⟩,
  ⟨0, 0, 0x80, 1, 4, 1, .ro, 0x1, 0x0⟩
]

/-- The register table of REC. -/
def rowsREC : List Row := [
  ⟨0, 0, 0x40, 1, 4, 1, .rw, 0x1, 0x0⟩,
  ⟨0, 0, 0x44, 1, 4, 1, .rwl, 0xFFFFFFFF, 0x0⟩,
  ⟨0, 0, 0x48, 1, 4, 1, .ro, 0xFFFFFFFF, 0x0⟩,
  ⟨0, 0, 0x4C, 1, 4, 1, .ro, 0xFFFFFFFF, 0x0⟩,
  ⟨0, 0, 0x50, 2, 4, 1, .rw, 0xFFFFFFFF, 0x0⟩,
  ⟨0, 0, 0x58, 1, 4, 1, .rw, 0xFFFFFFFF, 0x0⟩,
  ⟨0, 0, 0xF00, 1, 4, 1, .ro, 0xFFFFFFFF, 0x0⟩,
  ⟨0, 0, 0xF04, 1, 4, 1, .ro, 0xFFFFFFFF, 0x0⟩,
  ⟨0, 0, 0xF08, 1, 4, 1, .ro, 0xFFFFFFFF, 0x0⟩,
  ⟨0, 0, 0xF0C, 1, 4, 1, .ro, 0xFFFFFFFF, 0x0⟩,
  ⟨0, 0, 0xF10, 1, 4, 1, .ro, 0xFFFFFFFF, 0x0⟩,
  ⟨0, 0, 0xF14, 1, 4, 1, .ro, 0xFFFFFFFF, 0x0⟩
]

/-- The register table of EVA. -/
def rowsEVA : List Row := [
  ⟨0, 0, 0x40, 1, 4, 1, .ro, 0xFFFFFFFF, 0x0⟩,
  ⟨0, 0, 0x44, 1, 4, 1, .rw, 0xFF, 0x0⟩,
  ⟨0, 0, 0x48, 2, 4, 1, .ro, 0xFFFFFFFF, 0x0⟩,
  ⟨0, 0, 0xF00, 1, 4, 1, .ro, 0xFFFFFFFF, 0x0⟩,
  ⟨0, 0, 0xF04, 1, 4, 1, .ro, 0xFFFFFFFF, 0x0⟩,
  ⟨0, 0, 0xF08, 1, 4, 1, .ro, 0xFFFFFFFF, 0x0⟩,
  ⟨0, 0, 0xF0C, 1, 4, 1, .ro, 0xFFFFFFFF, 0x0⟩,
  ⟨0, 0, 0xF10, 1, 4, 1, .ro, 0xFFFFFFFF, 0x0⟩,
  ⟨0, 0, 0xF14, 1, 4, 1, .ro, 0xFFFFFFFF, 0x0⟩
]

/-- The register table of HUB_PCI. -/
def rowsHUB_PCI : List Row := [
  ⟨0, 0, 0x40, 1, 4, 1, .rwl, 0xFF, 0x85⟩,
  ⟨0, 0, 0x44, 1, 4, 1, .ro, 0x3FF, 0x0⟩,
  ⟨0, 0, 0x48, 1, 4, 1, .ro, 0x7, 0x0⟩,
  ⟨0, 0, 0xF00, 1, 4, 1, .ro, 0xFFFFFFFF, 0x0⟩,
  ⟨0, 0, 0xF04, 1, 4, 1, .ro, 0xFFFFFFFF, 0x0⟩,
  ⟨0, 0, 0xF08, 1, 4, 1, .ro, 0xFFFFFFFF, 0x0⟩
]

/-- The register table of HUB_IOV. -/
def rowsHUB_IOV : List Row := [
  ⟨0, 33, 0x40, 1, 4, 1, .rw, 0x3F, 0x0⟩,
  ⟨0, 33, 0x44, 1, 4, 1, .rw, 0xFFFFFFFF, 0x0⟩,
  ⟨0, 33, 0x48, 1, 4, 1, .rw, 0x1, 0x0⟩,
  ⟨0, 33, 0x4C, 1, 4, 1, .ro, 0x7, 0x0⟩,
  ⟨0, 33, 0x50, 1, 4, 1, .ro, 0x7, 0x0⟩,
  ⟨0, 33, 0x54, 2, 4, 1, .ro, 0xFFFFFFFF, 0x0⟩,
  ⟨0, 33, 0x60, 1, 4, 1, .rw, 0xFFFFF, 0x0⟩,
  ⟨0, 33, 0x64, 2, 4, 1, .rw, 0xFFFFFFFF, 0x0⟩,
  ⟨0, 33, 0x6C, 1, 4, 1, .rw, 0xFFFFFFFF, 0x0⟩,
  ⟨0, 33, 0x70, 1, 4, 1, .ro, 0xFFFFFFFF, 0x0⟩,
  ⟨0, 33, 0xF00, 1, 4, 1, .ro, 0xFFFFFFFF, 0x0⟩,
  ⟨0, 33, 0xF04, 1, 4, 1, .ro, 0xFFFFFFFF, 0x0⟩,
  ⟨0, 33, 0xF08, 1, 4, 1, .ro, 0xFFFFFFFF, 0x0⟩,
  ⟨0, 33, 0xF0C, 1, 4, 1, .ro, 0xFFFFFFFF, 0x0⟩,
  ⟨0, 33, 0xF10, 1, 4, 1, .ro, 0xFFFFFFFF, 0x0⟩,
  ⟨0, 33, 0xF14, 1, 4, 1, .ro, 0xFFFFFFFF, 0x0⟩
]

/-- The register table of HUB_SHED. -/
def rowsHUB_SHED : List Row := [
  ⟨0, 1, 0x40, 2, 4, 1, .rw, 0xFFFFFFFF, 0x0⟩,
  ⟨0, 1, 0x48, 2, 4, 1, .rw, 0xFFFFFFFF, 0x0⟩,
  ⟨0, 1, 0x50, 1, 4, 1, .ro, 0x3, 0x0⟩,
  ⟨0, 1, 0xF00, 1, 4, 1, .ro, 0xFFFFFFFF, 0x0⟩,
  ⟨0, 1, 0xF04, 1, 4, 1, .ro, 0xFFFFFFFF, 0x0⟩,
  ⟨0, 1, 0xF08, 1, 4, 1, .ro, 0xFFFFFFFF, 0x0⟩
]

/-- The register table of HUB_PEER. -/
def rowsHUB_PEER : List Row := [
  ⟨0, 0, 0x40, 1, 4, 1, .rwl, 0xFF3FFF, 0x330064⟩,
  ⟨0, 0, 0x44, 1, 4, 1, .ro, 0xFF, 0x0⟩,
  ⟨0, 0, 0x48, 1, 4, 1, .rwl, 0x3FFF, 0x3E8⟩,
  ⟨0, 0, 0x100, 32, 4, 1, .wo, 0xFFFFFFFF, 0x0⟩,
  ⟨0, 0, 0x180, 2, 4, 1, .wo, 0xFFFFFFFF, 0x0⟩,
  ⟨0, 0, 0x200, 32, 4, 1, .ro, 0xFFFFFFFF, 0x0⟩,
  ⟨0, 0, 0x280, 2, 4, 1, .wo, 0xFFFFFFFF, 0x0⟩,
  ⟨0, 0, 0xF00, 2, 4, 1, .ro, 0xFFFFFFFF, 0x0⟩,
  ⟨0, 0, 0xF08, 1, 4, 1, .ro, 0xFFFFFFFF, 0x0⟩,
  ⟨0, 0, 0xF0C, 1, 4, 1, .ro, 0xFFFFFFFF, 0x0⟩,
  ⟨0, 0, 0xF10, 1, 4, 1, .ro, 0xFFFFFFFF, 0x0⟩,
  ⟨0, 0, 0xF14, 1, 4, 1, .ro, 0xFFFFFFFF, 0x0⟩
]

/-- The register table of RM. -/
def rowsRM : List Row := [
  ⟨0, 1, 0x0, 1, 4, 1, .ro, 0x1FFFF, 0x1⟩,
  ⟨0, 1, 0x4, 1, 4, 1, .ro, 0xF, 0x0⟩,
  ⟨0, 1, 0x8, 1, 4, 1, .ro, 0xFF, 0x0⟩,
  ⟨0, 1, 0xC, 1, 4, 1, .ro, 0xFFFFFFFF, 0x0⟩,
  ⟨0, 1, 0x10, 1, 4, 1, .rw, 0xFFFFFFFF, 0x0⟩,
  ⟨0, 1, 0x14, 1, 4, 1, .ro, 0xFFFFFFFF, 0x0⟩,
  ⟨0, 1, 0x18, 1, 4, 1, .rw, 0xFF, 0x0⟩,
  ⟨0, 1, 0x1C, 1, 4, 1, .ro, 0xFFFF01, 0x0⟩,
  ⟨0, 1, 0x20, 8, 4, 1, .rw, 0xFFFFFFFF, 0x0⟩,
  ⟨0, 1, 0x40, 8, 4, 1, .ro, 0xFFFFFFFF, 0x0⟩,
  ⟨0, 1, 0x60, 1, 4, 1, .ro, 0x1F, 0x0⟩,
  ⟨0, 1, 0x64, 2, 4, 1, .ro, 0xFFFFFFFF, 0x0⟩,
  ⟨0, 1, 0x6C, 2, 4, 1, .ro, 0xFFFFFFFF, 0x1⟩,
  ⟨0, 1, 0xF0, 1, 4, 1, .w1c, 0xFFFFFFFF, 0x0⟩,
  ⟨0, 1, 0xF00, 4, 4, 1, .ro, 0xFFFF, 0x0⟩,
  ⟨0, 1, 0xF10, 1, 4, 1, .ro, 0xFFFFFFFF, 0x0⟩,
  ⟨0, 1, 0xF14, 1, 4, 1, .ro, 0xFFFFFFFF, 0x0⟩,
  ⟨0, 1, 0xF18, 1, 4, 1, .ro, 0xFFFFFFFF, 0x0⟩,
  ⟨0, 1, 0xF1C, 1, 4, 1, .ro, 0xFFFFFFFF, 0x0⟩,
  ⟨0, 1, 0xF20, 1, 4, 1, .ro, 0xFFFFFFFF, 0x0⟩,
  ⟨0, 1, 0xF24, 1, 4, 1, .ro, 0xFFFFFFFF, 0x0⟩,
  ⟨0, 1, 0xF28, 1, 4, 1, .ro, 0xFFFFFFFF, 0x0⟩
]

/-- The register table of DB. -/
def rowsDB : List Row := [
  ⟨0, 33, 0x0, 4, 4, 1, .wo, 0xFFFFFFFF, 0x0⟩,
  ⟨0, 33, 0x10, 1, 4, 1, .wo, 0xFFFFFFFF, 0x0⟩,
  ⟨0, 33, 0x14, 1, 4, 1, .wo, 0xFFFFFFFF, 0x0⟩,
  ⟨0, 33, 0x18, 1, 4, 1, .wo, 0xFFFFFFFF, 0x0⟩
]

/-- The register table of a block type (R865). -/
def rowsOf : Nat → List Row
  | 0x01 => rowsTIME
  | 0x02 => rowsCAD
  | 0x03 => rowsSNS
  | 0x04 => rowsFUS
  | 0x05 => rowsTE
  | 0x06 => rowsPSQ
  | 0x07 => rowsBSQ
  | 0x08 => rowsPDMA
  | 0x09 => rowsGDMA
  | 0x0A => rowsYARD
  | 0x0B => rowsLOFT
  | 0x0C => rowsBRDL
  | 0x0D => rowsGFX
  | 0x0E => rowsDPY
  | 0x0F => rowsNET
  | 0x10 => rowsCANG
  | 0x11 => rowsCBB
  | 0x12 => rowsSAFE
  | 0x13 => rowsGLV
  | 0x14 => rowsHBX
  | 0x15 => rowsPWR
  | 0x16 => rowsCLK
  | 0x17 => rowsRST
  | 0x18 => rowsID
  | 0x19 => rowsREC
  | 0x1A => rowsEVA
  | 0x20 => rowsHUB_PCI
  | 0x21 => rowsHUB_IOV
  | 0x22 => rowsHUB_SHED
  | 0x23 => rowsHUB_PEER
  | 0x30 => rowsRM
  | 0x31 => rowsDB
  | _ => []

/-- An event: its block type and its EVT_RAW bit (R875). -/
structure Ev where
  t : Nat
  bit : Nat
deriving DecidableEq, Repr

abbrev Ev.TIME_CFG_ERR : Ev := ⟨0x01, 0⟩
abbrev Ev.TIME_CNT_SAT : Ev := ⟨0x01, 1⟩
abbrev Ev.TIME_GM_CHANGE : Ev := ⟨0x01, 2⟩
abbrev Ev.TIME_HOLDOVER : Ev := ⟨0x01, 3⟩
abbrev Ev.TIME_HOLDOVER_EXPIRED : Ev := ⟨0x01, 4⟩
abbrev Ev.TIME_JUMP_REFUSED : Ev := ⟨0x01, 5⟩
abbrev Ev.TIME_LOCK : Ev := ⟨0x01, 6⟩
abbrev Ev.TIME_PEER_DISAGREE : Ev := ⟨0x01, 7⟩
abbrev Ev.TIME_SERVO_SAT : Ev := ⟨0x01, 8⟩
abbrev Ev.TIME_SLEW_DONE : Ev := ⟨0x01, 9⟩
abbrev Ev.CAD_ALIGN_DONE : Ev := ⟨0x02, 0⟩
abbrev Ev.CAD_CFG_ERR : Ev := ⟨0x02, 1⟩
abbrev Ev.CAD_CNT_SAT : Ev := ⟨0x02, 2⟩
abbrev Ev.CAD_DPY_UNLOCK : Ev := ⟨0x02, 3⟩
abbrev Ev.CAD_GRID_FAR : Ev := ⟨0x02, 4⟩
abbrev Ev.CAD_SRC : Ev := ⟨0x02, 5⟩
abbrev Ev.CAD_STEP : Ev := ⟨0x02, 6⟩
abbrev Ev.SNS_CNT_SAT : Ev := ⟨0x03, 0⟩
abbrev Ev.SNS_DAMAGED : Ev := ⟨0x03, 1⟩
abbrev Ev.SNS_LINK : Ev := ⟨0x03, 2⟩
abbrev Ev.SNS_UNSUPPORTED : Ev := ⟨0x03, 3⟩
abbrev Ev.FUS_AID_STALE : Ev := ⟨0x04, 0⟩
abbrev Ev.FUS_ALIGN : Ev := ⟨0x04, 1⟩
abbrev Ev.FUS_CNT_SAT : Ev := ⟨0x04, 2⟩
abbrev Ev.FUS_LATE_DISCARD : Ev := ⟨0x04, 3⟩
abbrev Ev.FUS_NO_POSE : Ev := ⟨0x04, 4⟩
abbrev Ev.FUS_PROJ_LATE : Ev := ⟨0x04, 5⟩
abbrev Ev.FUS_SWAP_REFUSED : Ev := ⟨0x04, 6⟩
abbrev Ev.FUS_UNALIGNED : Ev := ⟨0x04, 7⟩
abbrev Ev.FUS_WINDOW : Ev := ⟨0x04, 8⟩
abbrev Ev.TE_CHECK_FAIL : Ev := ⟨0x05, 0⟩
abbrev Ev.TE_CNT_SAT : Ev := ⟨0x05, 1⟩
abbrev Ev.TE_DESC_FAULT : Ev := ⟨0x05, 2⟩
abbrev Ev.TE_FENCED : Ev := ⟨0x05, 3⟩
abbrev Ev.TE_NONFINITE : Ev := ⟨0x05, 4⟩
abbrev Ev.TE_TB_PARITY : Ev := ⟨0x05, 5⟩
abbrev Ev.TE_WCET_OVERRUN : Ev := ⟨0x05, 6⟩
abbrev Ev.PSQ_ADMIT_REFUSED : Ev := ⟨0x06, 0⟩
abbrev Ev.PSQ_CNT_SAT : Ev := ⟨0x06, 1⟩
abbrev Ev.PSQ_HALT : Ev := ⟨0x06, 2⟩
abbrev Ev.PSQ_LATE : Ev := ⟨0x06, 3⟩
abbrev Ev.PSQ_LAUNCH_DELAY : Ev := ⟨0x06, 4⟩
abbrev Ev.PSQ_PLAN_SWITCH : Ev := ⟨0x06, 5⟩
abbrev Ev.PSQ_WINDOW : Ev := ⟨0x06, 6⟩
abbrev Ev.BSQ_ADMIT_HOLD : Ev := ⟨0x07, 0⟩
abbrev Ev.BSQ_CFG_ERR : Ev := ⟨0x07, 1⟩
abbrev Ev.BSQ_CNT_SAT : Ev := ⟨0x07, 2⟩
abbrev Ev.BSQ_CTX_FULL : Ev := ⟨0x07, 3⟩
abbrev Ev.BSQ_PAGE_CFG_ERR : Ev := ⟨0x07, 4⟩
abbrev Ev.BSQ_POISON : Ev := ⟨0x07, 5⟩
abbrev Ev.BSQ_PREEMPT : Ev := ⟨0x07, 6⟩
abbrev Ev.BSQ_SEQ_REFUSED : Ev := ⟨0x07, 7⟩
abbrev Ev.BSQ_STEP_DISCARD : Ev := ⟨0x07, 8⟩
abbrev Ev.BSQ_SWAP_ABANDON : Ev := ⟨0x07, 9⟩
abbrev Ev.BSQ_SWAP_IN : Ev := ⟨0x07, 10⟩
abbrev Ev.BSQ_SWAP_OUT : Ev := ⟨0x07, 11⟩
abbrev Ev.BSQ_WINDOW_STOP : Ev := ⟨0x07, 12⟩
abbrev Ev.PDMA_BAD_PAGE : Ev := ⟨0x08, 0⟩
abbrev Ev.PDMA_CNT_SAT : Ev := ⟨0x08, 1⟩
abbrev Ev.PDMA_PARITY : Ev := ⟨0x08, 2⟩
abbrev Ev.PDMA_SHED_CRC : Ev := ⟨0x08, 3⟩
abbrev Ev.PDMA_WINDOW : Ev := ⟨0x08, 4⟩
abbrev Ev.GDMA_CNT_SAT : Ev := ⟨0x09, 0⟩
abbrev Ev.YARD_CFG_ERR : Ev := ⟨0x0A, 0⟩
abbrev Ev.YARD_CNT_SAT : Ev := ⟨0x0A, 1⟩
abbrev Ev.YARD_HARD : Ev := ⟨0x0A, 2⟩
abbrev Ev.YARD_PARITY : Ev := ⟨0x0A, 3⟩
abbrev Ev.YARD_ZERO_DONE : Ev := ⟨0x0A, 4⟩
abbrev Ev.LOFT_BAND : Ev := ⟨0x0B, 0⟩
abbrev Ev.LOFT_CFG_ERR : Ev := ⟨0x0B, 1⟩
abbrev Ev.LOFT_CNT_SAT : Ev := ⟨0x0B, 2⟩
abbrev Ev.LOFT_HARD : Ev := ⟨0x0B, 3⟩
abbrev Ev.LOFT_SEALED_POISON : Ev := ⟨0x0B, 4⟩
abbrev Ev.LOFT_TEMP_HIGH : Ev := ⟨0x0B, 5⟩
abbrev Ev.LOFT_TRAIN_FAIL : Ev := ⟨0x0B, 6⟩
abbrev Ev.LOFT_UE : Ev := ⟨0x0B, 7⟩
abbrev Ev.LOFT_WB_FULL : Ev := ⟨0x0B, 8⟩
abbrev Ev.LOFT_WIPE_DONE : Ev := ⟨0x0B, 9⟩
abbrev Ev.BRDL_BREACH : Ev := ⟨0x0C, 0⟩
abbrev Ev.BRDL_CNT_SAT : Ev := ⟨0x0C, 1⟩
abbrev Ev.BRDL_RESTORE : Ev := ⟨0x0C, 2⟩
abbrev Ev.BRDL_TARGET_MISS : Ev := ⟨0x0C, 3⟩
abbrev Ev.GFX_CNT_SAT : Ev := ⟨0x0D, 0⟩
abbrev Ev.GFX_COMP_MISS : Ev := ⟨0x0D, 1⟩
abbrev Ev.GFX_WG_KILL : Ev := ⟨0x0D, 2⟩
abbrev Ev.GFX_WINDOW : Ev := ⟨0x0D, 3⟩
abbrev Ev.DPY_CFG_ERR : Ev := ⟨0x0E, 0⟩
abbrev Ev.DPY_CNT_SAT : Ev := ⟨0x0E, 1⟩
abbrev Ev.DPY_LINK : Ev := ⟨0x0E, 2⟩
abbrev Ev.DPY_REPEAT : Ev := ⟨0x0E, 3⟩
abbrev Ev.DPY_TT_CRC : Ev := ⟨0x0E, 4⟩
abbrev Ev.DPY_TT_FAULT : Ev := ⟨0x0E, 5⟩
abbrev Ev.DPY_TT_PARITY : Ev := ⟨0x0E, 6⟩
abbrev Ev.DPY_TT_STALL : Ev := ⟨0x0E, 7⟩
abbrev Ev.DPY_UNDERRUN : Ev := ⟨0x0E, 8⟩
abbrev Ev.DPY_WINDOW : Ev := ⟨0x0E, 9⟩
abbrev Ev.NET_CNT_SAT : Ev := ⟨0x0F, 0⟩
abbrev Ev.NET_IMG_PARITY : Ev := ⟨0x0F, 1⟩
abbrev Ev.NET_IMG_REFUSED : Ev := ⟨0x0F, 2⟩
abbrev Ev.NET_LINK : Ev := ⟨0x0F, 3⟩
abbrev Ev.NET_PUB_DROP : Ev := ⟨0x0F, 4⟩
abbrev Ev.CANG_BUS_OFF : Ev := ⟨0x10, 0⟩
abbrev Ev.CANG_CNT_SAT : Ev := ⟨0x10, 1⟩
abbrev Ev.CANG_NO_ROUTE : Ev := ⟨0x10, 2⟩
abbrev Ev.CBB_CFG_ERR : Ev := ⟨0x11, 0⟩
abbrev Ev.CBB_CNT_SAT : Ev := ⟨0x11, 1⟩
abbrev Ev.CBB_FAR_ERR : Ev := ⟨0x11, 2⟩
abbrev Ev.CBB_NO_WINDOW : Ev := ⟨0x11, 3⟩
abbrev Ev.CBB_RB_EXPIRED : Ev := ⟨0x11, 4⟩
abbrev Ev.CBB_SEM_FORCED : Ev := ⟨0x11, 5⟩
abbrev Ev.SAFE_AGE : Ev := ⟨0x12, 0⟩
abbrev Ev.SAFE_AV_SELF : Ev := ⟨0x12, 1⟩
abbrev Ev.SAFE_CFG_ERR : Ev := ⟨0x12, 2⟩
abbrev Ev.SAFE_CNT_SAT : Ev := ⟨0x12, 3⟩
abbrev Ev.SAFE_DEBT : Ev := ⟨0x12, 4⟩
abbrev Ev.SAFE_ENTER : Ev := ⟨0x12, 5⟩
abbrev Ev.SAFE_KICK : Ev := ⟨0x12, 6⟩
abbrev Ev.SAFE_RELEASE : Ev := ⟨0x12, 7⟩
abbrev Ev.SAFE_UNIT_FENCE : Ev := ⟨0x12, 8⟩
abbrev Ev.GLV_CNT_SAT : Ev := ⟨0x13, 0⟩
abbrev Ev.GLV_DEGRADED : Ev := ⟨0x13, 1⟩
abbrev Ev.GLV_LOG_DROP : Ev := ⟨0x13, 2⟩
abbrev Ev.GLV_MISMATCH : Ev := ⟨0x13, 3⟩
abbrev Ev.GLV_RESTART : Ev := ⟨0x13, 4⟩
abbrev Ev.GLV_RESTART_LIMIT : Ev := ⟨0x13, 5⟩
abbrev Ev.GLV_RING_ERR : Ev := ⟨0x13, 6⟩
abbrev Ev.GLV_VERSION_REFUSED : Ev := ⟨0x13, 7⟩
abbrev Ev.HBX_ATTEST_LOW : Ev := ⟨0x14, 0⟩
abbrev Ev.HBX_AUTH_FAIL : Ev := ⟨0x14, 1⟩
abbrev Ev.HBX_CLAIM_BROKEN : Ev := ⟨0x14, 2⟩
abbrev Ev.HBX_CLAIM_REFUSED : Ev := ⟨0x14, 3⟩
abbrev Ev.HBX_CNT_SAT : Ev := ⟨0x14, 4⟩
abbrev Ev.HBX_ID_ERR : Ev := ⟨0x14, 5⟩
abbrev Ev.HBX_KEY_RETIRED : Ev := ⟨0x14, 6⟩
abbrev Ev.HBX_LC_CHANGE : Ev := ⟨0x14, 7⟩
abbrev Ev.HBX_RESTART : Ev := ⟨0x14, 8⟩
abbrev Ev.HBX_RNG_FAIL : Ev := ⟨0x14, 9⟩
abbrev Ev.HBX_VERIFY_FAIL : Ev := ⟨0x14, 10⟩
abbrev Ev.PWR_CFG_ERR : Ev := ⟨0x15, 0⟩
abbrev Ev.PWR_CNT_SAT : Ev := ⟨0x15, 1⟩
abbrev Ev.PWR_EMERGENCY : Ev := ⟨0x15, 2⟩
abbrev Ev.PWR_REQ_REFUSED : Ev := ⟨0x15, 3⟩
abbrev Ev.PWR_STAGE : Ev := ⟨0x15, 4⟩
abbrev Ev.CLK_CNT_SAT : Ev := ⟨0x16, 0⟩
abbrev Ev.CLK_FAULT : Ev := ⟨0x16, 1⟩
abbrev Ev.CLK_REF_LOST : Ev := ⟨0x16, 2⟩
abbrev Ev.RST_CFG_ERR : Ev := ⟨0x17, 0⟩
abbrev Ev.RST_CNT_SAT : Ev := ⟨0x17, 1⟩
abbrev Ev.REC_CFG_ERR : Ev := ⟨0x19, 0⟩
abbrev Ev.REC_CNT_SAT : Ev := ⟨0x19, 1⟩
abbrev Ev.REC_DROP : Ev := ⟨0x19, 2⟩
abbrev Ev.REC_EXPORT_DONE : Ev := ⟨0x19, 3⟩
abbrev Ev.REC_REPLAY_DIFF : Ev := ⟨0x19, 4⟩
abbrev Ev.EVA_CFG_ERR : Ev := ⟨0x1A, 0⟩
abbrev Ev.EVA_CNT_SAT : Ev := ⟨0x1A, 1⟩
abbrev Ev.EVA_OWNER_DENIED : Ev := ⟨0x1A, 2⟩
abbrev Ev.HUB_PCI_CNT_SAT : Ev := ⟨0x20, 0⟩
abbrev Ev.HUB_PCI_LINK : Ev := ⟨0x20, 1⟩
abbrev Ev.HUB_IOV_CFG_ERR : Ev := ⟨0x21, 0⟩
abbrev Ev.HUB_IOV_CNT_SAT : Ev := ⟨0x21, 1⟩
abbrev Ev.HUB_IOV_RESET_DONE : Ev := ⟨0x21, 2⟩
abbrev Ev.HUB_IOV_RXQ_DROP : Ev := ⟨0x21, 3⟩
abbrev Ev.HUB_IOV_WINDOW : Ev := ⟨0x21, 4⟩
abbrev Ev.HUB_SHED_CFG_ERR : Ev := ⟨0x22, 0⟩
abbrev Ev.HUB_SHED_CNT_SAT : Ev := ⟨0x22, 1⟩
abbrev Ev.HUB_PEER_BACK : Ev := ⟨0x23, 0⟩
abbrev Ev.HUB_PEER_CNT_SAT : Ev := ⟨0x23, 1⟩
abbrev Ev.HUB_PEER_LOST : Ev := ⟨0x23, 2⟩
abbrev Ev.HUB_PEER_MB_DISCARD : Ev := ⟨0x23, 3⟩

/-- The EVT_RAW bit of EVT_<prefix>_CNT_SAT of a block type. -/
def cntSatBit : Nat → Nat
  | 0x01 => 1
  | 0x02 => 2
  | 0x03 => 0
  | 0x04 => 2
  | 0x05 => 1
  | 0x06 => 1
  | 0x07 => 2
  | 0x08 => 1
  | 0x09 => 0
  | 0x0A => 1
  | 0x0B => 2
  | 0x0C => 1
  | 0x0D => 0
  | 0x0E => 1
  | 0x0F => 0
  | 0x10 => 1
  | 0x11 => 1
  | 0x12 => 3
  | 0x13 => 0
  | 0x14 => 4
  | 0x15 => 1
  | 0x16 => 0
  | 0x17 => 1
  | 0x19 => 1
  | 0x1A => 1
  | 0x20 => 0
  | 0x21 => 1
  | 0x22 => 1
  | 0x23 => 1
  | _ => 31

/-- How many events a block type has. -/
def eventCount : Nat → Nat
  | 0x01 => 10
  | 0x02 => 7
  | 0x03 => 4
  | 0x04 => 9
  | 0x05 => 7
  | 0x06 => 7
  | 0x07 => 13
  | 0x08 => 5
  | 0x09 => 1
  | 0x0A => 5
  | 0x0B => 10
  | 0x0C => 4
  | 0x0D => 4
  | 0x0E => 10
  | 0x0F => 5
  | 0x10 => 3
  | 0x11 => 6
  | 0x12 => 9
  | 0x13 => 8
  | 0x14 => 11
  | 0x15 => 5
  | 0x16 => 3
  | 0x17 => 2
  | 0x18 => 0
  | 0x19 => 5
  | 0x1A => 3
  | 0x20 => 2
  | 0x21 => 5
  | 0x22 => 2
  | 0x23 => 4
  | _ => 0

/-- A counter: its block type, its number b (it lies at 0xF00 + 4b), and the value it sticks at (R882, R883). -/
structure Ct where
  t : Nat
  n : Nat
  max : Nat
deriving DecidableEq, Repr

abbrev Ct.TIME_SYNC_RX : Ct := ⟨0x01, 0, 0xFFFFFFFF⟩
abbrev Ct.TIME_JUMP_REFUSED : Ct := ⟨0x01, 1, 0xFFFFFFFF⟩
abbrev Ct.TIME_GM_REFUSED : Ct := ⟨0x01, 2, 0xFFFFFFFF⟩
abbrev Ct.TIME_SYNC_TIMEOUT : Ct := ⟨0x01, 3, 0xFFFFFFFF⟩
abbrev Ct.TIME_PEER_DISAGREE : Ct := ⟨0x01, 4, 0xFFFFFFFF⟩
abbrev Ct.TIME_PDELAY_FAIL : Ct := ⟨0x01, 5, 0xFFFFFFFF⟩
abbrev Ct.CAD_FRAMES : Ct := ⟨0x02, 0, 0xFFFFFFFF⟩
abbrev Ct.CAD_MT_FRAMES : Ct := ⟨0x02, 1, 0xFFFFFFFF⟩
abbrev Ct.CAD_ALIGN_FRAMES : Ct := ⟨0x02, 2, 0xFFFFFFFF⟩
abbrev Ct.CAD_GRID_FAR_FRAMES : Ct := ⟨0x02, 3, 0xFFFFFFFF⟩
abbrev Ct.CAD_LAUNCH_SKIPPED : Ct := ⟨0x02, 4, 0xFFFFFFFF⟩
abbrev Ct.CAD_DPY_UNLOCKS : Ct := ⟨0x02, 5, 0xFFFFFFFF⟩
abbrev Ct.TE_DESC_DONE : Ct := ⟨0x05, 0, 0xFFFFFFFF⟩
abbrev Ct.TE_CHECK_UNITS : Ct := ⟨0x05, 1, 0xFFFFFFFF⟩
abbrev Ct.TE_CHECK_FAIL_FRAMES : Ct := ⟨0x05, 2, 0xFFFF⟩
abbrev Ct.TE_CHECK_FAIL_UNITS : Ct := ⟨0x05, 3, 0xFFFFFFFF⟩
abbrev Ct.TE_NONFINITE_UNITS : Ct := ⟨0x05, 4, 0xFFFFFFFF⟩
abbrev Ct.TE_TB_CONFLICT_CYCLES : Ct := ⟨0x05, 5, 0xFFFFFFFF⟩
abbrev Ct.TE_WCET_OVERRUN : Ct := ⟨0x05, 6, 0xFFFFFFFF⟩
abbrev Ct.TE_LATE_STOPS : Ct := ⟨0x05, 7, 0xFFFFFFFF⟩
abbrev Ct.TE_RETRIES : Ct := ⟨0x05, 8, 0xFFFFFFFF⟩
abbrev Ct.TE_SAT_ELEMENTS : Ct := ⟨0x05, 9, 0xFFFFFFFF⟩
abbrev Ct.TE_LADDER_UP : Ct := ⟨0x05, 10, 0xFFFFFFFF⟩
abbrev Ct.TE_LADDER_DOWN : Ct := ⟨0x05, 11, 0xFFFFFFFF⟩
abbrev Ct.TE_LADDER_HELD : Ct := ⟨0x05, 12, 0xFFFFFFFF⟩
abbrev Ct.TE_PAD_TAPS : Ct := ⟨0x05, 13, 0xFFFFFFFF⟩
abbrev Ct.BSQ_PREEMPTIONS : Ct := ⟨0x07, 16, 0xFFFFFFFF⟩
abbrev Ct.BSQ_SWAP_ABANDONED : Ct := ⟨0x07, 17, 0xFFFFFFFF⟩
abbrev Ct.BSQ_DEFERRED : Ct := ⟨0x07, 18, 0xFFFFFFFF⟩
abbrev Ct.BSQ_REPREFILLS : Ct := ⟨0x07, 19, 0xFFFFFFFF⟩
abbrev Ct.BSQ_PAGES_TRIMMED : Ct := ⟨0x07, 20, 0xFFFFFFFF⟩
abbrev Ct.BSQ_CAND_OFFERED : Ct := ⟨0x07, 21, 0xFFFFFFFF⟩
abbrev Ct.BSQ_CAND_ACCEPTED : Ct := ⟨0x07, 22, 0xFFFFFFFF⟩
abbrev Ct.BSQ_VERIFY_CLAMP : Ct := ⟨0x07, 23, 0xFFFFFFFF⟩
abbrev Ct.BSQ_EMPTY_ROWS : Ct := ⟨0x07, 24, 0xFFFFFFFF⟩
abbrev Ct.BSQ_POISONED_PAGES : Ct := ⟨0x07, 25, 0xFFFFFFFF⟩
abbrev Ct.PDMA_PAGES_DELIVERED : Ct := ⟨0x08, 0, 0xFFFFFFFF⟩
abbrev Ct.PDMA_PAGES_SPILLED : Ct := ⟨0x08, 1, 0xFFFFFFFF⟩
abbrev Ct.PDMA_PAGES_FILLED : Ct := ⟨0x08, 2, 0xFFFFFFFF⟩
abbrev Ct.PDMA_PAGES_SHED_OUT : Ct := ⟨0x08, 3, 0xFFFFFFFF⟩
abbrev Ct.PDMA_PAGES_SHED_IN : Ct := ⟨0x08, 4, 0xFFFFFFFF⟩
abbrev Ct.PDMA_SHED_CRC_FAIL : Ct := ⟨0x08, 5, 0xFFFFFFFF⟩
abbrev Ct.PDMA_WINDOW_FAULTS : Ct := ⟨0x08, 6, 0xFFFFFFFF⟩
abbrev Ct.PDMA_BAD_PAGES : Ct := ⟨0x08, 7, 0xFFFFFFFF⟩
abbrev Ct.PDMA_PARITY_PAGES : Ct := ⟨0x08, 8, 0xFFFFFFFF⟩
abbrev Ct.PSQ_FRAMES_RUN : Ct := ⟨0x06, 0, 0xFFFFFFFF⟩
abbrev Ct.PSQ_LISTS_LAUNCHED : Ct := ⟨0x06, 1, 0xFFFFFFFF⟩
abbrev Ct.PSQ_LISTS_LATE : Ct := ⟨0x06, 2, 0xFFFFFFFF⟩
abbrev Ct.PSQ_LAUNCH_DELAYED : Ct := ⟨0x06, 3, 0xFFFFFFFF⟩
abbrev Ct.PSQ_WINDOW_FAULTS : Ct := ⟨0x06, 4, 0xFFFFFFFF⟩
abbrev Ct.PSQ_PLAN_SWITCHES : Ct := ⟨0x06, 5, 0xFFFFFFFF⟩
abbrev Ct.PSQ_ADMIT_REFUSED : Ct := ⟨0x06, 6, 0xFFFFFFFF⟩
abbrev Ct.BSQ_STEPS : Ct := ⟨0x07, 0, 0xFFFFFFFF⟩
abbrev Ct.BSQ_STEP_ROWS_CNT : Ct := ⟨0x07, 1, 0xFFFFFFFF⟩
abbrev Ct.BSQ_SEQ_ADMITTED : Ct := ⟨0x07, 2, 0xFFFFFFFF⟩
abbrev Ct.BSQ_SEQ_RETIRED : Ct := ⟨0x07, 3, 0xFFFFFFFF⟩
abbrev Ct.BSQ_SEQ_ABORTED : Ct := ⟨0x07, 4, 0xFFFFFFFF⟩
abbrev Ct.BSQ_STEPS_DISCARDED : Ct := ⟨0x07, 5, 0xFFFFFFFF⟩
abbrev Ct.BSQ_WINDOW_STOPS : Ct := ⟨0x07, 6, 0xFFFFFFFF⟩
abbrev Ct.BSQ_ADMIT_HELD : Ct := ⟨0x07, 7, 0xFFFFFFFF⟩
abbrev Ct.BSQ_DESC_NOT_FIT : Ct := ⟨0x07, 8, 0xFFFFFFFF⟩
abbrev Ct.TE_DESC_FAULTS : Ct := ⟨0x05, 14, 0xFFFFFFFF⟩
abbrev Ct.BSQ_SEQ_REFUSED : Ct := ⟨0x07, 9, 0xFFFFFFFF⟩
abbrev Ct.YARD_PARITY_ERRORS : Ct := ⟨0x0A, 0, 0xFFFFFFFF⟩
abbrev Ct.YARD_REFETCHES : Ct := ⟨0x0A, 1, 0xFFFFFFFF⟩
abbrev Ct.YARD_DATA_POISONS : Ct := ⟨0x0A, 2, 0xFFFFFFFF⟩
abbrev Ct.YARD_SCRUB_PASSES : Ct := ⟨0x0A, 3, 0xFFFFFFFF⟩
abbrev Ct.YARD_HARD_ERRORS : Ct := ⟨0x0A, 4, 0xFFFFFFFF⟩
abbrev Ct.YARD_WIPES : Ct := ⟨0x0A, 5, 0xFFFFFFFF⟩
abbrev Ct.LOFT_CE_BLOCKS : Ct := ⟨0x0B, 0, 0xFFFFFFFF⟩
abbrev Ct.LOFT_UE_BLOCKS : Ct := ⟨0x0B, 1, 0xFFFFFFFF⟩
abbrev Ct.LOFT_LINK_CE : Ct := ⟨0x0B, 2, 0xFFFFFFFF⟩
abbrev Ct.LOFT_LINK_RETRIES : Ct := ⟨0x0B, 3, 0xFFFFFFFF⟩
abbrev Ct.LOFT_RMW_WRITES : Ct := ⟨0x0B, 4, 0xFFFFFFFF⟩
abbrev Ct.LOFT_WB_DROPPED : Ct := ⟨0x0B, 5, 0xFFFFFFFF⟩
abbrev Ct.LOFT_SCRUB_PASSES : Ct := ⟨0x0B, 6, 0xFFFFFFFF⟩
abbrev Ct.LOFT_BAND_CHANGES : Ct := ⟨0x0B, 7, 0xFFFFFFFF⟩
abbrev Ct.LOFT_HARD_ERRORS : Ct := ⟨0x0B, 8, 0xFFFFFFFF⟩
abbrev Ct.BRDL_REQ_ISSUED : Ct := ⟨0x0C, 0, 0xFFFFFFFF⟩
abbrev Ct.BRDL_BLOCKS_CHARGED : Ct := ⟨0x0C, 1, 0xFFFFFFFF⟩
abbrev Ct.BRDL_HELD_CYCLES : Ct := ⟨0x0C, 2, 0xFFFFFFFF⟩
abbrev Ct.BRDL_TARGET_MISS : Ct := ⟨0x0C, 3, 0xFFFFFFFF⟩
abbrev Ct.BRDL_BREACHES : Ct := ⟨0x0C, 4, 0xFFFFFFFF⟩
abbrev Ct.BRDL_WITHDRAWALS : Ct := ⟨0x0C, 0, 0xFFFFFFFF⟩
abbrev Ct.BRDL_RESTORATIONS : Ct := ⟨0x0C, 1, 0xFFFFFFFF⟩
abbrev Ct.SNS_FRAMES : Ct := ⟨0x03, 0, 0xFFFFFFFF⟩
abbrev Ct.SNS_DAMAGED : Ct := ⟨0x03, 1, 0xFFFFFFFF⟩
abbrev Ct.SNS_HDR_ECC_FIXED : Ct := ⟨0x03, 2, 0xFFFFFFFF⟩
abbrev Ct.SNS_CRC_ERRORS : Ct := ⟨0x03, 3, 0xFFFFFFFF⟩
abbrev Ct.SNS_UNSUPPORTED : Ct := ⟨0x03, 4, 0xFFFFFFFF⟩
abbrev Ct.SNS_OVERFLOWS : Ct := ⟨0x03, 5, 0xFFFFFFFF⟩
abbrev Ct.SNS_IMU_GAPS : Ct := ⟨0x03, 6, 0xFFFFFFFF⟩
abbrev Ct.FUS_INSTANTS : Ct := ⟨0x04, 0, 0xFFFFFFFF⟩
abbrev Ct.FUS_SAMPLES : Ct := ⟨0x04, 1, 0xFFFFFFFF⟩
abbrev Ct.FUS_FOLDED : Ct := ⟨0x04, 2, 0xFFFFFFFF⟩
abbrev Ct.FUS_LATE_DISCARDED : Ct := ⟨0x04, 3, 0xFFFFFFFF⟩
abbrev Ct.FUS_SUPERSEDED : Ct := ⟨0x04, 4, 0xFFFFFFFF⟩
abbrev Ct.FUS_UNALIGNS : Ct := ⟨0x04, 5, 0xFFFFFFFF⟩
abbrev Ct.FUS_RELOCKS : Ct := ⟨0x04, 6, 0xFFFFFFFF⟩
abbrev Ct.FUS_NO_POSE_INSTANTS : Ct := ⟨0x04, 7, 0xFFFFFFFF⟩
abbrev Ct.FUS_PROJ_LATE : Ct := ⟨0x04, 8, 0xFFFFFFFF⟩
abbrev Ct.FUS_TRK_LATE : Ct := ⟨0x04, 9, 0xFFFFFFFF⟩
abbrev Ct.FUS_TRACKS_DROPPED : Ct := ⟨0x04, 10, 0xFFFFFFFF⟩
abbrev Ct.FUS_SWAPS_REFUSED : Ct := ⟨0x04, 11, 0xFFFFFFFF⟩
abbrev Ct.FUS_AID_STALE_EVENTS : Ct := ⟨0x04, 12, 0xFFFFFFFF⟩
abbrev Ct.FUS_ETH_DROPPED : Ct := ⟨0x04, 13, 0xFFFFFFFF⟩
abbrev Ct.FUS_WINDOW_FAULTS : Ct := ⟨0x04, 14, 0xFFFFFFFF⟩
abbrev Ct.GFX_WG_DONE : Ct := ⟨0x0D, 0, 0xFFFFFFFF⟩
abbrev Ct.GFX_WG_KILLED : Ct := ⟨0x0D, 1, 0xFFFFFFFF⟩
abbrev Ct.GFX_COMP_JOBS : Ct := ⟨0x0D, 2, 0xFFFFFFFF⟩
abbrev Ct.GFX_COMP_DROPPED : Ct := ⟨0x0D, 3, 0xFFFFFFFF⟩
abbrev Ct.GFX_COMP_OVERRUN : Ct := ⟨0x0D, 4, 0xFFFFFFFF⟩
abbrev Ct.GFX_WINDOW_FAULTS : Ct := ⟨0x0D, 5, 0xFFFFFFFF⟩
abbrev Ct.GFX_PARITY_FIXED : Ct := ⟨0x0D, 6, 0xFFFFFFFF⟩
abbrev Ct.DPY_FRAMES : Ct := ⟨0x0E, 0, 0xFFFFFFFF⟩
abbrev Ct.DPY_REPEATED_FRAMES : Ct := ⟨0x0E, 1, 0xFFFFFFFF⟩
abbrev Ct.DPY_UNDERRUNS : Ct := ⟨0x0E, 2, 0xFFFFFFFF⟩
abbrev Ct.DPY_FLIPS_REPLACED : Ct := ⟨0x0E, 3, 0xFFFFFFFF⟩
abbrev Ct.DPY_WINDOW_FAULTS : Ct := ⟨0x0E, 4, 0xFFFFFFFF⟩
abbrev Ct.DPY_TT_FRAMES : Ct := ⟨0x0E, 0, 0xFFFFFFFF⟩
abbrev Ct.DPY_TT_CRC_FAIL : Ct := ⟨0x0E, 1, 0xFFFFFFFF⟩
abbrev Ct.DPY_TT_STALLS : Ct := ⟨0x0E, 2, 0xFFFFFFFF⟩
abbrev Ct.DPY_TT_PARITY : Ct := ⟨0x0E, 3, 0xFFFFFFFF⟩
abbrev Ct.NET_TX_FRAMES : Ct := ⟨0x0F, 0, 0xFFFFFFFF⟩
abbrev Ct.NET_RX_FRAMES : Ct := ⟨0x0F, 1, 0xFFFFFFFF⟩
abbrev Ct.NET_FCS_ERRORS : Ct := ⟨0x0F, 2, 0xFFFFFFFF⟩
abbrev Ct.NET_OVERSIZE : Ct := ⟨0x0F, 3, 0xFFFFFFFF⟩
abbrev Ct.NET_GATE_HELD : Ct := ⟨0x0F, 4, 0xFFFFFFFF⟩
abbrev Ct.NET_STOMPED : Ct := ⟨0x0F, 5, 0xFFFFFFFF⟩
abbrev Ct.NET_QCI_DROPPED : Ct := ⟨0x0F, 6, 0xFFFFFFFF⟩
abbrev Ct.NET_PUB_SENT : Ct := ⟨0x0F, 0, 0xFFFFFFFF⟩
abbrev Ct.NET_PUB_TOO_LONG : Ct := ⟨0x0F, 1, 0xFFFFFFFF⟩
abbrev Ct.NET_CB_ELIMINATED : Ct := ⟨0x0F, 2, 0xFFFFFFFF⟩
abbrev Ct.NET_IMG_REFUSED : Ct := ⟨0x0F, 3, 0xFFFFFFFF⟩
abbrev Ct.NET_IMG_PARITY : Ct := ⟨0x0F, 4, 0xFFFFFFFF⟩
abbrev Ct.CANG_RX_FRAMES : Ct := ⟨0x10, 0, 0xFFFFFFFF⟩
abbrev Ct.CANG_TX_FRAMES : Ct := ⟨0x10, 1, 0xFFFFFFFF⟩
abbrev Ct.CANG_BUS_OFFS : Ct := ⟨0x10, 2, 0xFFFFFFFF⟩
abbrev Ct.CANG_GW_TX_DROPPED : Ct := ⟨0x10, 3, 0xFFFFFFFF⟩
abbrev Ct.CANG_ROUTED : Ct := ⟨0x10, 4, 0xFFFFFFFF⟩
abbrev Ct.CANG_NO_ROUTE : Ct := ⟨0x10, 5, 0xFFFFFFFF⟩
abbrev Ct.CANG_CONVERT_FAIL : Ct := ⟨0x10, 6, 0xFFFFFFFF⟩
abbrev Ct.CANG_ACF_TX : Ct := ⟨0x10, 7, 0xFFFFFFFF⟩
abbrev Ct.CANG_ACF_MALFORMED : Ct := ⟨0x10, 8, 0xFFFFFFFF⟩
abbrev Ct.CBB_FAR_READS : Ct := ⟨0x11, 0, 0xFFFFFFFF⟩
abbrev Ct.CBB_FAR_WRITES : Ct := ⟨0x11, 1, 0xFFFFFFFF⟩
abbrev Ct.CBB_RETRIES : Ct := ⟨0x11, 2, 0xFFFFFFFF⟩
abbrev Ct.CBB_RB_EXPIRED : Ct := ⟨0x11, 3, 0xFFFFFFFF⟩
abbrev Ct.CBB_TIMEOUTS : Ct := ⟨0x11, 4, 0xFFFFFFFF⟩
abbrev Ct.CBB_FAR_ERRORS : Ct := ⟨0x11, 5, 0xFFFFFFFF⟩
abbrev Ct.CBB_NO_WINDOW : Ct := ⟨0x11, 6, 0xFFFFFFFF⟩
abbrev Ct.CBB_ATOMIC_REFUSED : Ct := ⟨0x11, 7, 0xFFFFFFFF⟩
abbrev Ct.CBB_SEM_FORCED : Ct := ⟨0x11, 8, 0xFFFFFFFF⟩
abbrev Ct.CBB_WQ_FULL : Ct := ⟨0x11, 9, 0xFFFFFFFF⟩
abbrev Ct.PCI_LINK_DOWNS : Ct := ⟨0x20, 0, 0xFFFFFFFF⟩
abbrev Ct.PCI_RETRAINS : Ct := ⟨0x20, 1, 0xFFFFFFFF⟩
abbrev Ct.PCI_CORRECTABLE : Ct := ⟨0x20, 2, 0xFFFFFFFF⟩
abbrev Ct.IOV_OUT_OF_WINDOW : Ct := ⟨0x21, 0, 0xFFFFFFFF⟩
abbrev Ct.IOV_POISONED : Ct := ⟨0x21, 1, 0xFFFFFFFF⟩
abbrev Ct.IOV_RESETS : Ct := ⟨0x21, 2, 0xFFFFFFFF⟩
abbrev Ct.IOV_SQUASHES : Ct := ⟨0x21, 3, 0xFFFFFFFF⟩
abbrev Ct.IOV_DOORBELL_DROPPED : Ct := ⟨0x21, 4, 0xFFFFFFFF⟩
abbrev Ct.IOV_RXQ_DROPPED : Ct := ⟨0x21, 5, 0xFFFFFFFF⟩
abbrev Ct.SHED_PAGES_OUT : Ct := ⟨0x22, 0, 0xFFFFFFFF⟩
abbrev Ct.SHED_PAGES_IN : Ct := ⟨0x22, 1, 0xFFFFFFFF⟩
abbrev Ct.SHED_FLUSH_READS : Ct := ⟨0x22, 2, 0xFFFFFFFF⟩
abbrev Ct.PEER_HB_MISSED : Ct := ⟨0x23, 0, 0xFFFFFFFF⟩
abbrev Ct.PEER_LOSSES : Ct := ⟨0x23, 2, 0xFFFFFFFF⟩
abbrev Ct.PEER_MB_SENT : Ct := ⟨0x23, 3, 0xFFFFFFFF⟩
abbrev Ct.PEER_MB_DISCARDED : Ct := ⟨0x23, 4, 0xFFFFFFFF⟩
abbrev Ct.PEER_MB_QUEUE_FULL : Ct := ⟨0x23, 5, 0xFFFFFFFF⟩
abbrev Ct.RM_RESTARTS : Ct := ⟨0x30, 0, 0xFFFF⟩
abbrev Ct.RM_VERSION_REFUSALS : Ct := ⟨0x30, 4, 0xFFFFFFFF⟩
abbrev Ct.RM_IMAGE_FAILS : Ct := ⟨0x30, 5, 0xFFFFFFFF⟩
abbrev Ct.RM_RING_ERRORS : Ct := ⟨0x30, 6, 0xFFFFFFFF⟩
abbrev Ct.RM_CQ_WAITS : Ct := ⟨0x30, 7, 0xFFFFFFFF⟩
abbrev Ct.RM_EQ_DROPPED : Ct := ⟨0x30, 8, 0xFFFFFFFF⟩
abbrev Ct.RM_LOG_DROPPED : Ct := ⟨0x30, 9, 0xFFFFFFFF⟩
abbrev Ct.RM_COMMANDS_RESTARTED : Ct := ⟨0x30, 10, 0xFFFFFFFF⟩
abbrev Ct.SAFE_ENTRIES : Ct := ⟨0x12, 0, 0xFFFF⟩
abbrev Ct.SAFE_RELEASES : Ct := ⟨0x12, 1, 0xFFFFFFFF⟩
abbrev Ct.SAFE_FAULT_RESETS : Ct := ⟨0x12, 2, 0xFFFF⟩
abbrev Ct.SAFE_MSGS_SENT : Ct := ⟨0x12, 3, 0xFFFFFFFF⟩
abbrev Ct.SAFE_MSG_LATE : Ct := ⟨0x12, 4, 0xFFFFFFFF⟩
abbrev Ct.SAFE_AGE_MISSES : Ct := ⟨0x12, 5, 0xFFFFFFFF⟩
abbrev Ct.SAFE_SLICES_RUN : Ct := ⟨0x12, 6, 0xFFFFFFFF⟩
abbrev Ct.SAFE_SLICES_SKIPPED : Ct := ⟨0x12, 7, 0xFFFFFFFF⟩
abbrev Ct.SAFE_SLICES_FAILED : Ct := ⟨0x12, 8, 0xFFFF⟩
abbrev Ct.SAFE_DEBT_PERIODS : Ct := ⟨0x12, 9, 0xFFFFFFFF⟩
abbrev Ct.SAFE_KICK_MISSES : Ct := ⟨0x12, 10, 0xFFFFFFFF⟩
abbrev Ct.GLV_MISMATCHES : Ct := ⟨0x13, 0, 0xFFFF⟩
abbrev Ct.GLV_TRANSIENTS : Ct := ⟨0x13, 1, 0xFFFF⟩
abbrev Ct.GLV_SELFTESTS : Ct := ⟨0x13, 2, 0xFFFFFFFF⟩
abbrev Ct.HBX_VERIFY_OK : Ct := ⟨0x14, 0, 0xFFFFFFFF⟩
abbrev Ct.HBX_VERIFY_FAIL : Ct := ⟨0x14, 1, 0xFFFFFFFF⟩
abbrev Ct.HBX_AUTH_OK : Ct := ⟨0x14, 2, 0xFFFFFFFF⟩
abbrev Ct.HBX_AUTH_FAILS : Ct := ⟨0x14, 3, 0xFFFFFFFF⟩
abbrev Ct.HBX_ATTESTS : Ct := ⟨0x14, 4, 0xFFFFFFFF⟩
abbrev Ct.HBX_CLAIM_REFUSED : Ct := ⟨0x14, 5, 0xFFFFFFFF⟩
abbrev Ct.HBX_CLAIMS_BROKEN : Ct := ⟨0x14, 6, 0xFFFFFFFF⟩
abbrev Ct.HBX_DEBUG_DENIED : Ct := ⟨0x14, 7, 0xFFFFFFFF⟩
abbrev Ct.HBX_NETCMD_DROPPED : Ct := ⟨0x14, 8, 0xFFFFFFFF⟩
abbrev Ct.HBX_RESTARTS : Ct := ⟨0x14, 9, 0xFFFF⟩
abbrev Ct.PWR_STAGE_ENTRIES : Ct := ⟨0x15, 0, 0xFFFFFFFF⟩
abbrev Ct.PWR_EMERGENCIES : Ct := ⟨0x15, 1, 0xFFFF⟩
abbrev Ct.PWR_REQUESTS : Ct := ⟨0x15, 2, 0xFFFFFFFF⟩
abbrev Ct.PWR_REQ_REFUSED : Ct := ⟨0x15, 3, 0xFFFFFFFF⟩
abbrev Ct.RST_COLD_RESETS : Ct := ⟨0x17, 0, 0xFFFF⟩
abbrev Ct.CLK_FAULTS : Ct := ⟨0x16, 0, 0xFFFF⟩
abbrev Ct.REC_RECORDS : Ct := ⟨0x19, 0, 0xFFFFFFFF⟩
abbrev Ct.REC_DROPPED : Ct := ⟨0x19, 1, 0xFFFFFFFF⟩
abbrev Ct.REC_EXPORTS : Ct := ⟨0x19, 2, 0xFFFFFFFF⟩
abbrev Ct.REC_EXPORT_CUT : Ct := ⟨0x19, 3, 0xFFFFFFFF⟩
abbrev Ct.REC_REPLAY_FRAMES : Ct := ⟨0x19, 4, 0xFFFFFFFF⟩
abbrev Ct.REC_REPLAY_DIFFS : Ct := ⟨0x19, 5, 0xFFFFFFFF⟩
abbrev Ct.EVA_DELIVERED_HOST : Ct := ⟨0x1A, 0, 0xFFFFFFFF⟩
abbrev Ct.EVA_DELIVERED_FW : Ct := ⟨0x1A, 1, 0xFFFFFFFF⟩
abbrev Ct.EVA_DELIVERED_SAFE : Ct := ⟨0x1A, 2, 0xFFFFFFFF⟩
abbrev Ct.EVA_PIN_TRIGGERS : Ct := ⟨0x1A, 3, 0xFFFFFFFF⟩
abbrev Ct.EVA_OWNER_DENIED : Ct := ⟨0x1A, 4, 0xFFFFFFFF⟩
abbrev Ct.EVA_INJECTED : Ct := ⟨0x1A, 5, 0xFFFFFFFF⟩

/-- The register of a counter. -/
def Ct.reg (c : Ct) : Reg := c.t * 0x40000 + 0xF00 + 4 * c.n

/-- The page address of instance i of block type t. -/
def pageAt (t i : Nat) : Reg := t * 0x40000 + 0x1000 * i

/-- A head register of instance i of block type t. -/
def headReg (t i : Nat) (r : Reg) : Reg := pageAt t i + r

/-- The row that covers a register, if a page has it: the common head of a page (R867), which the register pages of Rhordo
and the doorbell pages do not carry, or the rows of its block. -/
def rowAt (a : Reg) : Option Row :=
  let i := a % 0x40000 / 0x1000
  let o := a % 0x1000
  match (if a / 0x40000 < T.RM then rowsHEAD.find? fun r => r.covers 0 o else none) with
  | some r => some r
  | none => (rowsOf (a / 0x40000)).find? fun r => r.covers i o

/-- What BLK_ID reads (R867): type code, instance, die. -/
def blkId (die a : Nat) : Word := BitVec.ofNat 32 (a / 0x40000 * 0x10000 + a % 0x40000 / 0x1000 * 0x100 + die)

/-- The value of a register right after its reset; die is 0 A, 1 B, 2 hub. RM_ID differs by channel (R682), the page
of the hub's PWR block shows the hub's four domains on, and BLK_ID is by page. DESIGN CHOICE, note 1. -/
def resetOf (die : Nat) (a : Reg) : Word :=
  if a % 0x1000 = 0 && decide (a / 0x40000 < 0x30) then blkId die a
  else if a = Reg.RM_ID.inst 1 then 0x00010001#32
  else if decide (die = 2) && a == Reg.PWR_DOM_STAT then 0xF#32
  else match rowAt a with
  | some r => if 0xF00 ≤ a % 0x1000 && decide (a / 0x40000 < 0x30) then 0 else BitVec.ofNat 32 (if a == Reg.RM_LOG_MASK.hi || a == (Reg.RM_LOG_MASK.inst 1).hi then 0 else r.reset)
  | none => 0

end Sys2Proof.Machine
end

