-- ==== Sys2Proof/Syntax.lean ====
section
/-!
DEFINITION. The commands of the module, one constructor for each row of the table, with their operands.
Every command carries the time that passed before it on each die (`n`) and, where it concerns one channel, that
channel (`d`). A command is a register write or read, a protocol event, a pin event, or an instant that one of the
module's own sequencers reaches.
-/

namespace Sys2Proof

/-- Who makes a register access (R871): the physical function of a channel through BAR0, a glove pair of the page's
channel, the Hatbox of the page's die, or virtual function v + 1 of a channel, whose BAR0 holds its own HUB_IOV page alone
(R639, R641). -/
inductive Init where
  | pf (c : Ch)
  | pair (p : Fin 4)
  | hatbox
  | vf (c : Ch) (v : Fin 16)
deriving DecidableEq, Repr

/-- An initiator that no virtual function is. -/
def Init.wide : Init → Bool
  | .vf _ _ => false
  | _ => true

/-- What names a command accepted from a submission ring: the function of the channel (17 stands for the network,
function 0x7F of R806), the ring and the CMD_ID. -/
structure CmdRef where
  fn : Fin 18
  ring : Fin 4
  id : Nat
deriving DecidableEq, Repr

/-- What the start-up self-test found failing (R766), as masks. -/
structure SelfTest where
  engines : Nat
  banks : Nat
  pdmas : Nat
  fus : Bool
  /-- Pairs whose main core fails, and pairs whose checker fails. -/
  pairMain : Nat
  pairChecker : Nat
deriving DecidableEq, Repr

/-- What resets the hub (R825). -/
inductive HubTrigger where
  | perst
  | hotReset
  | thermal
deriving DecidableEq, Repr

/-- A launch configuration register (R100). -/
inductive LaunchReg where
  | fsync (i : Fin 8)
  | dpyLock (p : Fin 4)
  | gate
  | av (s : Fin 16)
deriving DecidableEq, Repr

/-- The glove-pair crash causes that are not a watchdog, a lockup or a mismatch (R723). -/
inductive CrashCause where
  | exception
  | parity
deriving DecidableEq, Repr

/-- What a debugger does at the debug port of a glove pair (R748, R749). -/
inductive DebugAct where
  | attach
  | halt
  | resume
  | other
  | hatbox
deriving DecidableEq, Repr

/-- A unit that online self-test covers (R757). -/
inductive TestUnit where
  | te (i : Fin 8)
  | bank (i : Fin 32)
  | pdma (i : Fin 4)
  | fus
deriving DecidableEq, Repr

/-- An exit of the fault message (R767). -/
inductive MsgExit where
  | eth
  | can
  | mailbox
deriving DecidableEq, Repr

/-- What the signature engines find for a container (R784, R785): the key digest equals an entry, the two signatures hold. -/
structure SigCheck where
  keyKnown : Bool
  ecdsa : Bool
  hss : Bool
deriving DecidableEq, Repr

/-- What a firmware image that passes verification tells the boot (R690, R787): its version, its rollback fields, its
length, the boot configuration (INLINE_EN, the physical function's window, the companion-bus windows as offset and
value) and the 2 MiB unit its sealed copy begins at. -/
structure ImageInfo where
  version : Nat
  secVer : Nat
  rollback : Bool
  bytes : Nat
  inline : Bool
  pfWin : Word
  cbb : List (Nat × Word)
  sealBase : Nat
deriving DecidableEq, Repr

/-- A request of a master to the loft or the yard (R447): a data address, a length and the bytes of a write. -/
structure MemReq where
  loft : Bool
  addr : Nat
  len : Nat
  write : Option (List Byte)
deriving DecidableEq, Repr

/-- One bit of the loft's DRAM: x16 channel, row, byte of the row's page, bit of the byte (R407 to R409). -/
structure DramCell where
  x16 : Fin 16
  row : Nat
  byte : Fin 2048
  bit : Fin 8
deriving DecidableEq, Repr

/-- What a request of the loft meets: cells that an upset has changed (R410), and blocks whose burst has a single-bit error
of the link (R415). -/
structure LoftErr where
  flips : List DramCell
  link : List Nat
deriving DecidableEq, Repr

/-- An SRAM with valid bits and parity: the yard or the tile buffer of an engine (R402, R403). -/
inductive RamSel where
  | yard
  | tile (e : Fin 8)
deriving DecidableEq, Repr

/-- A region of the register space that REGISTER_WRITE or LOW_WORD_READ addresses: the pages of the channel's die, the
hub's pages, or the register page of Rhordo (R682). -/
inductive RegSpace where
  | die
  | hub
  | rm
deriving DecidableEq, Repr

/-- The bridle values that a plan records for one master, or that CHAN_CFG gives (R450, R455): the instance, class,
GPRIO, UPRIO, loft RATE and BURST, yard RATE and BURST, LAT_TARGET. -/
structure BridleCfg where
  inst : Nat
  cls : Nat
  gprio : Nat
  uprio : Nat
  loftRate : Nat
  loftBurst : Nat
  yardRate : Nat
  yardBurst : Nat
  lat : Nat
deriving DecidableEq, Repr

/-- The paging configuration of a stall (R222 to R231, R283), in the order of the BSQ page; the buckets of a served
stall. -/
structure PageCfg where
  stride : Nat
  geom : Word
  rope : Word
  ropeFreq : Nat
  yardBase : Nat
  yardPages : Nat
  loftBase : Nat
  loftPages : Nat
  shedBase : Nat
  shedPages : Nat
  attnPages : Nat
  seqTable : Nat
  buckets : List Nat
deriving DecidableEq, Repr

/-- A mirror of sealed loft content in the yard (R404): bank, first line, lines, source block. -/
structure MirrorCfg where
  bank : Nat
  line : Nat
  lines : Nat
  src : Nat
deriving DecidableEq, Repr

/-- The refresh-rate fields of mode register 4 of the four loft packages, as the band that each requests (R419, R443): 1 to
3, 4 a temperature above band 3, 0 no answer. -/
structure Mr4 where
  p0 : Fin 5
  p1 : Fin 5
  p2 : Fin 5
  p3 : Fin 5
deriving DecidableEq, Repr

/-- The values of a bridle that a plan records, for which alone its worst-case counts hold (R455). -/
structure BridleRec where
  inst : Nat
  loftRate : Nat
  loftBurst : Nat
  yardRate : Nat
  yardBurst : Nat
  lat : Nat
deriving DecidableEq, Repr

/-- What an admission command names (R303): the resources, the sealed plan, the activation frame. -/
structure AdmitReq where
  stall : Fin 8
  served : Bool
  duplex : Bool
  engines : Nat
  banks : Nat
  loftBase : Nat
  loftUnits : Nat
  export_ : Word
  import_ : Word
  shedBase : Nat
  shedSize : Nat
  planBase : Nat
  pdmas : Nat
  paging : Option PageCfg
  bridles : List BridleCfg
  recorded : List BridleRec
  mirrors : List MirrorCfg
  fAct : Nat
deriving DecidableEq, Repr

/-- An accumulator that a fault changes before the check (R130, R142): quad, row of the unit, column (128 is the checksum
column), and the bits that differ; `held` says that they changed in the accumulator bank, under its byte parity. -/
structure Upset where
  quad : Fin 4
  row : Nat
  col : Nat
  mask : BitVec 32
  held : Bool
deriving DecidableEq, Repr

/-- What the step program of a served stall put out for one sequence of the step (R258 to R260, R339): the output tokens
at its rows, the count that a TENSOR verification wrote, the candidates that the plan's draft descriptors made. -/
structure SeqOut where
  seq : Nat
  tokens : List Nat
  tensor : Nat
  cands : List Nat
deriving DecidableEq, Repr

/-- An atomic request at the companion-bus bridge (R624). -/
inductive AtomicOp where
  | swap (v : Word)
  | cas (compare v : Word)
  | add (v : Word)
deriving DecidableEq, Repr

/-- A register of a companion-bus window (R615). -/
inductive WindowReg where
  | near
  | far
  | cfg
deriving DecidableEq, Repr

/-- The kinds of PTP message that the switch treats apart (R48, R49): Sync, Follow_Up, any other event message. -/
inductive PtpKind where
  | sync
  | followUp
  | event
deriving DecidableEq, Repr

/-- The PTP message a frame carries (R48, R49): its kind, whether it is a two-step Sync, which a Follow_Up follows (R41),
whether it is of the IEEE 802.1AS profile, domain, sequenceId, the time in ps that a Follow_Up or a one-step Sync gives
(preciseOriginTimestamp), the cumulative rate offset beside it in ppt, its correctionField in 2^-16 ns, what carries it (0
IEEE 802.3, 1 UDP over IPv4, 2 UDP over IPv6), and the UDP checksum or the two trailing bytes. -/
structure PtpMsg where
  kind : PtpKind
  twoStep : Bool
  gptp : Bool
  domain : Nat
  seq : Nat
  origin : Int
  rate : Int
  corr : BitVec 64
  carrier : Fin 3
  check : BitVec 16
deriving DecidableEq, Repr

/-- The response of a neighbour in a peer-delay exchange (R41): cycles of MT since the Pdelay_Req left, and in ps the
neighbour's stamps t2 of the request's arrival and t3 of the response's departure, correctionFields included. -/
structure PdelayResp where
  turn : Nat
  t2 : Int
  t3 : Int
deriving DecidableEq, Repr

/-- The CAN frame formats (R595). -/
inductive CanFmt where
  | classical
  | fd
  | xl
deriving DecidableEq, Repr

/-- A CAN frame: format, identifier width and identifier (an XL frame's priority ID), remote, bit-rate switch, data. -/
structure CanFrame where
  fmt : CanFmt
  ide : Bool
  id : Nat
  rtr : Bool
  brs : Bool
  data : List Byte
deriving DecidableEq, Repr

/-- An ACF CAN message: bus_id, the frame, its VT stamp in the long form (R598). -/
structure AcfMsg where
  bus : Nat
  frame : CanFrame
  stamp : Option Nat
deriving DecidableEq, Repr

/-- An IEEE 1722 frame of ACF messages (R598, R599): TSCF, stream_id, sequence_num, avtp_timestamp, the messages; `overrun` says that
they overrun the frame. -/
structure AcfPdu where
  tscf : Bool
  stream : Nat
  seq : Nat := 0
  time : Nat
  msgs : List AcfMsg
  overrun : Bool
deriving DecidableEq, Repr

/-- An Ethernet frame without its FCS: addresses, VLAN tag (VID and PCP), R-TAG sequence number, EtherType, payload, and
what the payload is when the switch acts on it. -/
structure EthFrame where
  dst : Nat
  src : Nat
  tag : Option (Nat × Nat)
  rtag : Option Nat
  etype : Nat
  body : List Byte
  acf : Option AcfPdu
  ptp : Option PtpMsg
deriving DecidableEq, Repr

/-- What a bus error adds to a CAN controller's error counters (R595): a transmitter's error, a receiver's error, a
receiver's error that counts 8. -/
inductive CanErr where
  | tx
  | rx
  | rx8
deriving DecidableEq, Repr

/-- The compositor fields of a job (R552): target pipe and display frame, plane, buffer, budget in ns, cores. -/
structure CompJob where
  pipe : Fin 4
  frame : Nat
  plane : Fin 6
  addr : Nat
  budget : Nat
  cores : Nat
deriving DecidableEq, Repr

/-- A swizzled surface (R548): its first byte in the context's window, texels per row, bytes per texel. -/
structure Surface where
  off : Nat
  width : Nat
  bpt : Nat
deriving DecidableEq, Repr

/-- A render pass (R542 to R546): the tile grid of a BINNED pass; its colour, depth and stencil surfaces; its blend, depth
and stencil state; for each primitive in submission order the 8 × 8-pixel blocks it touches. -/
structure Pass where
  binned : Option (Nat × Nat)
  targets : List Surface
  state : Word
  prims : List (List (Nat × Nat))
deriving DecidableEq, Repr

/-- A shaded fragment: the sequence number of its primitive, its pixel, and what it brings for each surface of the pass,
all samples included. -/
structure Frag where
  prim : Nat
  x : Nat
  y : Nat
  data : List (List Byte)
deriving DecidableEq, Repr

/-- What stands at the end of a workgroup: the fragments it shaded, the lines that the caches gave up, as (cache, line), and the
bytes of lines that an upset has changed, as (cache, loft address). -/
structure Shaded where
  frags : List Frag
  gone : List (Fin 13 × Nat)
  parity : List (Fin 13 × Nat)
deriving DecidableEq, Repr

/-- A raster or compositor job (R535, R542, R552): its context when the physical function submits it, the workgroups of a
compute dispatch, its render pass, the compositor's fields. -/
structure GfxJob where
  ctx : Fin 16
  groups : Nat
  pass : Option Pass
  comp : Option CompJob
deriving DecidableEq, Repr

/-- An access of a workgroup or compositor job (R532): the context whose window it names, an offset in that window, a
length, and the bytes of a write. -/
structure GfxAccess where
  ctx : Fin 16
  off : Nat
  len : Nat
  write : Option (List Byte)
deriving DecidableEq, Repr

/-- A register of a telltale region (R566, R569). -/
inductive TtReg where
  | pos
  | size
  | rctrl
  | bg
  | crcOn
  | crcOff
deriving DecidableEq, Repr

/-- What the receiver finds in a CSI-2 long packet (R488, R492): its header corrected, beyond correction, a payload CRC
error, a buffer overflow. -/
structure CsiErr where
  fixed : Bool
  header : Bool
  crc : Bool
  overflow : Bool
deriving DecidableEq, Repr

/-- A command. DESIGN CHOICE, note 7. DEDUCED, note 8. -/
inductive Instr where
  -- Sensor ingress and fusion
  | csiFrameStart (n : Now) (d : Ch) (port : Fin 4) (vc : Fin 16) (num : Nat)
  | csiLine (n : Now) (d : Ch) (port : Fin 4) (vc : Fin 16) (dtype : Nat) (payload : List Byte) (err : CsiErr)
  | csiFrameEnd (n : Now) (d : Ch) (port : Fin 4) (vc : Fin 16)
  | csiFrameTimeout (n : Now) (d : Ch) (port : Fin 4) (vc : Fin 4)
  | imuDrdy (n : Now) (d : Ch) (u : Fin 2)
  | imuBurstDone (n : Now) (d : Ch) (u : Fin 2) (burst : List Byte)
  | ethSensorFrame (n : Now) (d : Ch) (fcsOk : Bool)
  | projectionCommit (n : Now) (d : Ch)
  | projectionBudgetEnd (n : Now) (d : Ch)
  | trackCommit (n : Now) (d : Ch)
  | trackBudgetEnd (n : Now) (d : Ch)
  | fusSwap (n : Now) (d : Ch) (w : Init) (v : Word)
  | fusEnable (n : Now) (d : Ch) (w : Init) (v : Word)
  | csiLinkChange (n : Now) (d : Ch) (port : Fin 4) (up : Bool)
  -- Raster cluster and display
  | gfxJob (n : Now) (d : Ch) (r : CmdRef) (j : GfxJob)
  | workgroupDispatch (n : Now) (d : Ch) (core : Fin 12)
  | workgroupEnd (n : Now) (d : Ch) (core : Fin 12) (acc : List GfxAccess) (w : Shaded)
  | workgroupKill (n : Now) (d : Ch) (core : Fin 12)
  | compJobStart (n : Now) (d : Ch) (r : CmdRef)
  | compLatestStart (n : Now) (d : Ch) (r : CmdRef)
  | jobCommit (n : Now) (d : Ch) (r : CmdRef) (acc : List GfxAccess) (gone : List (Fin 13 × Nat))
  | displayFrameStart (n : Now) (d : Ch) (p : Fin 4)
  | dpyLineStart (n : Now) (d : Ch) (p : Fin 4) (starved : List (Fin 6 × Nat))
  | telltaleCrcCheck (n : Now) (d : Ch) (p : Fin 4) (r : Fin 16) (wrong flips : List (Nat × Byte))
  | telltaleStall (n : Now) (d : Ch) (p : Fin 4)
  | telltaleAtlasLoad (n : Now) (d : Ch) (p : Fin 4)
  | plFlip (n : Now) (d : Ch) (w : Init) (p : Fin 4) (k : Fin 6) (v : Word)
  | dpyEnable (n : Now) (d : Ch) (w : Init) (p : Fin 4) (v : Word)
  | dpyRetrain (n : Now) (d : Ch) (w : Init) (p : Fin 4) (trains : Bool)
  | dpHpdChange (n : Now) (d : Ch) (p : Fin 4) (up : Bool)
  | ttRegionWrite (n : Now) (d : Ch) (w : Init) (p : Fin 4) (r : Fin 16) (reg : TtReg) (v : Word)
  -- Network; `par` is the image offset of an entry that a lookup finds with wrong parity (R582)
  | ethFrameRx (n : Now) (d : Ch) (p : Fin 9) (f : EthFrame) (fcsOk : Bool) (par : Option Nat)
  | ethFrameTxStart (n : Now) (d : Ch) (p : Fin 9)
  | ethFrameTxEnd (n : Now) (d : Ch) (p : Fin 9)
  | gateEntryAdvance (n : Now) (d : Ch) (p : Fin 8)
  | streamGateAdvance (n : Now) (d : Ch) (g : Fin 64)
  | cbRecoveryReset (n : Now) (d : Ch) (h : Fin 256)
  | fdbAgeing (n : Now) (d : Ch) (mac vid : Nat)
  | ethLinkChange (n : Now) (d : Ch) (p : Fin 8) (up verified : Bool)
  | netImgLoad (n : Now) (d : Ch) (w : Init) (v : Word)
  | netImgLoadDone (n : Now) (d : Ch)
  | canFrameRx (n : Now) (d : Ch) (c : Fin 16) (f : CanFrame) (par : Option Nat)
  | canFrameTx (n : Now) (d : Ch) (c : Fin 16)
  | canBusOff (n : Now) (d : Ch) (c : Fin 16)
  | cangRecover (n : Now) (d : Ch) (w : Init) (c : Fin 16) (v : Word)
  | acfMaxWaitExpiry (n : Now) (d : Ch) (t : Fin 64)
  | busOffRecoveryDone (n : Now) (d : Ch) (c : Fin 16)
  | canProtocolError (n : Now) (d : Ch) (c : Fin 16) (e : CanErr)
  -- Companion bus; `i` is the initiator of R612
  | cbbNearWrite (n : Now) (d : Ch) (i : Fin 6) (off : Nat) (bytes : List Byte)
  | cbbNearRead (n : Now) (d : Ch) (i : Fin 6) (off len : Nat)
  | cbbAtomic (n : Now) (d : Ch) (i : Fin 6) (off : Nat) (op : AtomicOp)
  | cbbReadReissue (n : Now) (d : Ch) (i : Fin 6) (off len : Nat)
  | cbbFarCycleStart (n : Now) (d : Ch)
  | cbbFarCycleEnd (n : Now) (d : Ch) (waits : Nat) (data : Word) (err : Bool)
  | cbbCycleTimeout (n : Now) (d : Ch)
  | cbbRbExpiry (n : Now) (d : Ch) (buf : Fin 8)
  | cbbSemRead (n : Now) (d : Ch) (i : Fin 6) (c : Fin 4)
  | cbbSemRelease (n : Now) (d : Ch) (i : Fin 6) (c : Fin 4) (v : Word)
  | cbbSemForced (n : Now) (d : Ch) (c : Fin 4)
  | cbbWindowWrite (n : Now) (d : Ch) (w : Init) (win : Fin 16) (r : WindowReg) (v : Word)
  -- Tensor engines, stalls and paging
  | descriptorStart (n : Now) (d : Ch) (e : Fin 8)
  | workUnitDone (n : Now) (d : Ch) (e : Fin 8) (upsets : List Upset)
  | descriptorCommit (n : Now) (d : Ch) (e : Fin 8)
  | wcetOverrun (n : Now) (d : Ch) (e : Fin 8)
  | listBudgetEnd (n : Now) (d : Ch) (e : Fin 8)
  | engineStopDrained (n : Now) (d : Ch) (e : Fin 8)
  | serveWindowEnd (n : Now) (d : Ch) (e : Fin 8)
  | stepForm (n : Now) (d : Ch) (st : Fin 8)
  | stepCommit (n : Now) (d : Ch) (st : Fin 8) (outs : List SeqOut)
  | pdmaPageDeliver (n : Now) (d : Ch) (u : Fin 4) (e : Fin 8)
  | pageMoveDone (n : Now) (d : Ch) (st : Fin 8) (u : Fin 4)
  | swapOutCommit (n : Now) (d : Ch) (st : Fin 8)
  | shedPageArrived (n : Now) (d : Ch) (st : Fin 8) (u : Fin 4)
  | swapInCommit (n : Now) (d : Ch) (st : Fin 8)
  | admission (n : Now) (d : Ch) (r : CmdRef) (q : AdmitReq)
  | remove (n : Now) (d : Ch) (r : CmdRef) (st : Fin 8)
  | stallDrainEnd (n : Now) (d : Ch) (st : Fin 8)
  | chanCfg (n : Now) (d : Ch) (r : CmdRef) (l : List BridleCfg)
  | seqSubmit (n : Now) (d : Ch) (r : CmdRef)
  | seqAbort (n : Now) (d : Ch) (r : CmdRef)
  | gdmaUnitZeroed (n : Now) (d : Ch)
  | alternateWindowToggle (n : Now) (d : Ch)
  -- Power-up, reset and boot
  | powerUp (n : Now) (d : Ch)
  | resetPin (n : Now) (d : Ch)
  | brownOut (n : Now) (d : Ch) (aon : Bool)
  | coldResetRelease (n : Now) (d : Ch)
  | loftTrainingDone (n : Now) (d : Ch) (ok : Bool)
  | flashImageReadDone (n : Now) (d : Ch) (len : Option Nat)
  | startupSelftestDone (n : Now) (d : Ch) (bad : SelfTest) (manifest : List AdmitReq)
  | faultResetRequest (n : Now) (d : Ch)
  | faultReset (n : Now) (d : Ch)
  | faultResetRelease (n : Now) (d : Ch)
  | hubReset (n : Now) (t : HubTrigger)
  | hubReturn (n : Now)
  -- Time bases
  | syncReceived (n : Now) (d : Ch) (port : Fin 8) (domain : Fin 128) (gm : Nat) (originPs : Int) (corr : BitVec 64) (logIv : Fin 6)
  | announceReceived (n : Now) (d : Ch) (port : Fin 8) (domain : Fin 128) (gm : Nat)
  | syncReceiptTimeout (n : Now) (d : Ch) (wt : Bool)
  | syncTransmit (n : Now) (d : Ch) (port : Fin 8) (wt : Bool)
  | pdelayExchange (n : Now) (d : Ch) (port : Fin 8) (resp : Option PdelayResp)
  | holdrefEdge (n : Now) (d : Ch) (periodPs : Nat)
  | holdoverExpired (n : Now) (d : Ch) (wt : Bool)
  | gmRoleClear (n : Now) (d : Ch) (w : Init) (wt : Bool)
  | gmAccept (n : Now) (d : Ch) (w : Init) (v : Word)
  | snap (n : Now) (d : Ch) (w : Init) (v : Word)
  | portRoleWrite (n : Now) (d : Ch) (w : Init) (port : Fin 8) (v : Word)
  -- Cadence
  | frameStart (n : Now) (d : Ch)
  | slotStart (n : Now) (d : Ch)
  | fsyncPulse (n : Now) (d : Ch) (i : Fin 8) (rise : Bool)
  | stoppedFrameTick (n : Now) (d : Ch)
  | cadApply (n : Now) (d : Ch) (w : Init) (v : Word)
  | cadRun (n : Now) (d : Ch) (w : Init) (startMt : Bool)
  | cadStop (n : Now) (d : Ch) (w : Init)
  | launchCfgWrite (n : Now) (d : Ch) (w : Init) (r : LaunchReg) (v : Word)
  | fsyncTimingWrite (n : Now) (d : Ch) (w : Init) (i : Fin 8) (width : Bool) (v : Word)
  -- Rings and register commands
  | instanceCfg (n : Now) (d : Ch) (r : CmdRef)
  | instanceReset (n : Now) (d : Ch) (r : CmdRef)
  | iovMap (n : Now) (d : Ch) (r : CmdRef)
  | logMask (n : Now) (d : Ch) (r : CmdRef)
  | imageUpdate (n : Now) (d : Ch) (r : CmdRef)
  | attest (n : Now) (d : Ch) (r : CmdRef)
  | lifecycle (n : Now) (d : Ch) (r : CmdRef)
  | replay (n : Now) (d : Ch) (r : CmdRef)
  | nop (n : Now) (d : Ch) (r : CmdRef)
  | abort (n : Now) (d : Ch) (r : CmdRef)
  | commandAccept (n : Now) (d : Ch) (fn : Fin 17)
  | doorbellWrite (n : Now) (d : Ch) (fn : Fin 17) (reg : Fin 7) (v : Word)
  | loadImage (n : Now) (d : Ch) (len : Word)
  | enterRing (n : Now) (d : Ch) (off : Nat)
  | query (n : Now) (d : Ch)
  | leaveRing (n : Now) (d : Ch)
  -- Glove pairs and safety
  | glovePairCrash (n : Now) (d : Ch) (p : Fin 4) (c : CrashCause)
  | glvWatchdogExpiry (n : Now) (d : Ch) (p : Fin 4)
  | glvLockup (n : Now) (d : Ch) (p : Fin 4)
  | glovePairRestartDone (n : Now) (d : Ch) (p : Fin 4)
  | glvMismatch (n : Now) (d : Ch) (p : Fin 4) (port : Fin 6)
  | glvSelftestDone (n : Now) (d : Ch) (p : Fin 4) (mainPass checkerPass : Bool)
  | safeReady (n : Now) (d : Ch) (w : Init) (v : Word)
  | safeEnter (n : Now) (d : Ch) (w : Init) (v : Word)
  | safeRelease (n : Now) (d : Ch) (w : Init) (v : Word)
  | safeKick (n : Now) (d : Ch) (w : Init) (v : Word)
  | safeKickTimeout (n : Now) (d : Ch)
  | safeReleaseMaxExpiry (n : Now) (d : Ch)
  | faultMessageSend (n : Now) (d : Ch) (x : MsgExit)
  | selftestSliceStart (n : Now) (d : Ch) (u : TestUnit) (leftNs : Nat)
  | selftestSliceEnd (n : Now) (d : Ch) (u : TestUnit) (pass : Bool)
  | coveragePeriodEnd (n : Now) (d : Ch)
  -- Memory
  | bridleIssue (n : Now) (d : Ch) (b : Fin 20) (req : Option MemReq)
  | loftRequestComplete (n : Now) (d : Ch) (b : Fin 20) (e : LoftErr)
  | yardAccess (n : Now) (d : Ch) (m : Fin 9) (r : RamSel) (addr len : Nat) (write : Option (List Byte)) (flips : List Nat)
  | loftBurstRetry (n : Now) (d : Ch) (block : Nat) (ok : Bool)
  | mirrorRefetchDone (n : Now) (d : Ch) (line : Nat) (srcOk : Bool)
  | mirrorFillDone (n : Now) (d : Ch) (stall : Fin 8)
  | writebackIssue (n : Now) (d : Ch)
  | loftUnitWiped (n : Now) (d : Ch)
  | yardZeroDone (n : Now) (d : Ch)
  | dqsTracking (n : Now) (d : Ch) (x16 : Fin 16)
  | mr4Poll (n : Now) (d : Ch) (fields : Mr4)
  | yardPatrolScrub (n : Now) (d : Ch) (line : Nat) (flips : List Nat)
  | loftPatrolScrub (n : Now) (d : Ch) (block : Nat) (e : LoftErr)
  | bridleDerate (n : Now) (d : Ch)
  | brdlMaxlatClr (n : Now) (d : Ch) (w : Init) (b : Fin 20) (v : Word)
  -- Host port
  | pcieLinkDown (n : Now)
  | pcieLinkUp (n : Now) (rate : Fin 6) (width : Fin 9)
  | flr (n : Now) (d : Ch) (fn : Fin 17)
  | iovCtrlReset (n : Now) (d : Ch) (w : Init) (fn : Fin 17) (v : Word)
  | instanceResetDrained (n : Now) (d : Ch) (fn : Fin 17)
  | instanceResetDrainTimeout (n : Now) (d : Ch) (fn : Fin 17)
  | instanceResetDone (n : Now) (d : Ch) (fn : Fin 17)
  | apertureWrite (n : Now) (d : Ch) (fn : Fin 17) (off : Nat) (bytes : List Byte) (ep : Bool) (ecrcOk : Bool)
  | apertureRead (n : Now) (d : Ch) (fn : Fin 17) (off len : Nat)
  | shedCfgWrite (n : Now) (d : Ch) (w : Init) (size hi : Bool) (v : Word)
  | msixUnmask (n : Now) (d : Ch) (fn : Fin 17) (vec : Option (Fin 64))
  | heartbeatSend (n : Now) (d : Ch)
  | heartbeatReceived (n : Now) (d : Ch)
  | heartbeatPeriodMiss (n : Now) (d : Ch)
  | mailboxSend (n : Now) (d : Ch) (w : Init) (v : Word)
  | mailboxReceive (n : Now) (d : Ch)
  | mailboxPop (n : Now) (d : Ch) (w : Init) (v : Word)
  -- Hatbox
  | hatboxDoorbell (n : Now) (d : Ch) (w : Init) (v : Word)
  | verify (n : Now) (d : Ch) (p : Fin 4) (sig : SigCheck)
  | unseal (n : Now) (d : Ch) (p : Fin 4)
  | authCheck (n : Now) (d : Ch) (p : Fin 4) (tagOk : Bool)
  | attestRequest (n : Now) (d : Ch) (p : Fin 4)
  | lifecycleRequest (n : Now) (d : Ch) (p : Fin 4) (sig : SigCheck)
  | random (n : Now) (d : Ch) (p : Fin 4)
  | flashWrite (n : Now) (d : Ch) (p : Fin 4) (sig : SigCheck)
  | debugUnlock (n : Now) (d : Ch) (p : Fin 4) (sig : SigCheck)
  | hatboxRequestDone (n : Now) (d : Ch)
  | sealedReverifyDone (n : Now) (d : Ch) (ok : Bool)
  | lifecycleWipeDone (n : Now) (d : Ch)
  | rngHealthFail (n : Now) (d : Ch)
  | hatboxCrash (n : Now) (d : Ch)
  | hatboxRestartDone (n : Now) (d : Ch)
  | claimChange (n : Now) (d : Ch) (dom : Fin 24) (claim : Bool)
  | claimDeferTimeout (n : Now) (d : Ch)
  -- Power, thermal and clocks
  | pwrReqOn (n : Now) (d : Ch) (w : Init) (dom : Fin 24)
  | pwrReqOff (n : Now) (d : Ch) (w : Init) (dom : Fin 24)
  | domainPowerUpDone (n : Now) (d : Ch) (dom : Fin 24)
  | domainPowerOff (n : Now) (d : Ch) (dom : Fin 24)
  | thermalPoll (n : Now) (hub : Bool) (d : Ch) (temps : List Int)
  | clockCheck (n : Now) (d : Ch) (clock : Fin 8) (dev : Int) (locked : Bool)
  | refClockLost (n : Now) (d : Ch)
  | refClockReturn (n : Now) (d : Ch)
  -- Recorder
  | recEnable (n : Now) (d : Ch) (w : Init) (v : Word)
  | recordWrite (n : Now) (d : Ch)
  | recordDropTimeout (n : Now) (d : Ch)
  | exportDone (n : Now) (d : Ch)
  -- Register pages
  | blkQuiesce (n : Now) (d : Ch) (w : Init) (hub : Bool) (page : Nat) (set : Bool)
  | blkDisable (n : Now) (d : Ch) (w : Init) (hub : Bool) (page : Nat) (v : Word)
  | softReset (n : Now) (d : Ch) (w : Init) (hub : Bool) (page : Nat)
  | evtRawClear (n : Now) (d : Ch) (w : Init) (hub : Bool) (page : Nat) (v : Word) (raisedNow : Word)
  | evtEnWrite (n : Now) (d : Ch) (w : Init) (hub : Bool) (page : Nat) (v : Word)
  | evtSet (n : Now) (d : Ch) (w : Init) (hub : Bool) (page : Nat) (v : Word)
  | cntOvfClear (n : Now) (d : Ch) (w : Init) (hub : Bool) (page : Nat) (v : Word) (incNow : Word)
  | lock (n : Now) (d : Ch) (w : Init) (hub : Bool) (page : Nat)
  | lowWordRead (n : Now) (d : Ch) (w : Init) (sp : RegSpace) (off : Nat)
  | registerWrite (n : Now) (d : Ch) (w : Init) (sp : RegSpace) (off : Nat) (v : Word)
  | holdrefReferenceStopped (n : Now) (d : Ch)
  | announceTransmit (n : Now) (d : Ch) (port : Fin 8) (wt : Bool)
  | debugAccess (n : Now) (d : Ch) (p : Fin 4) (act : DebugAct)
  | entropyStartupTestsPass (n : Now) (d : Ch)
  | imageVerificationDone (n : Now) (d : Ch) (res : Fin 12) (img : ImageInfo)
deriving DecidableEq, Repr

end Sys2Proof
end

