-- ==== Sys2Proof/Machine/State.lean ====
section
/-!
DEFINITION. The state of the module: two channel dies and the hub (R12), and the queue of waiting commands.
What a register reports lives in the register stores (`regs`), keyed by place in the die's region and read through
the reset table of RegMap; the structures below hold what no register shows. All of it is plain data.
-/

namespace Sys2Proof.Machine

/-- Why a step stops with a fault. No command of the table does: every command has an effect the spec gives. -/
inductive Fault where
deriving DecidableEq, Repr

/-- Why a step is refused. -/
inductive Refusal where
  /-- Raised by `exec` for a command that has no meaning yet; safe, since nothing is claimed of it. -/
  | notModelled (mnemonic : String)
deriving DecidableEq, Repr

/-- The stamp pair of a commit with its VT state code and VT_VALID (R72). -/
structure Stamp where
  vt : Nat
  mt : Nat
  st : Nat
  valid : Bool
deriving DecidableEq, Repr

/-- Whether a die is unpowered, in reset or running (R825, R840). -/
inductive Phase where
  | off
  | coldReset
  | faultReset
  | run
deriving DecidableEq, Repr

/-- The reset control of a channel die. -/
structure ResetSt where
  phase : Phase
  /-- Trigger code of RST_CAUSE of the running or last reset. -/
  trigger : Nat
  /-- A requested fault reset: its trigger code and the MT of the request (R738). -/
  req : Option (Nat × Nat)
  /-- The reset waits after its power-off phase for an emergency to end (R840). -/
  paused : Bool
  /-- The domains that were on at the start of a fault reset (R827). -/
  domains : Nat
  /-- The start of the channel came from the sealed copy, not from a cold boot (R695). -/
  warm : Bool
  /-- FUS_CTRL.EN at the start of the fault reset (R486). -/
  fus : Bool
  /-- No frame has begun since the restart with the sensors of the channel running (R29). -/
  blind : Bool
deriving DecidableEq, Repr

/-! Time bases (R34 to R78). -/

/-- What a slaved base (VT or WT) holds beside its registers. -/
structure TBase where
  /-- Whole nanoseconds. -/
  ns : Nat
  /-- The fraction, in units of 2^-32 ns (R35). -/
  frac : Nat
  /-- The frequency correction in force, in ppt of MT. -/
  y : Int
  /-- The servo's integral, in 2^-16 ppb (R52). -/
  i : Int
  /-- The y values since the last entry to ACQUIRE, newest first, at most 16 (R66). -/
  hist : List Int
  /-- The holdover frequency, in ppt (R66, R913). -/
  hold : Int
  satRun : Nat
  lockRun : Nat
  unlockRun : Nat
  jumpRun : Nat
  /-- MT of the entry to HOLDOVER (R68). -/
  holdMt : Nat
  expired : Bool
deriving DecidableEq, Repr

/-- The Sync that the switch relays in a domain (R48): its sequenceId, slave port, corrected ingress stamp, the corrected
egress stamp of each port that has sent it on, in ps, and the Follow_Up that the switch itself sends after a Sync that came
one-step (R41). -/
structure SyncRelay where
  seq : Nat
  port : Nat
  ingress : Int
  egress : Tbl Int
  own : Option EthFrame
deriving DecidableEq, Repr

/-- What firmware sets of the gPTP protocol (R41): syncReceiptTimeout, logSyncInterval, logPdelayReqInterval. -/
structure GptpCfg where
  timeout : Nat
  logSync : Int
  logPdelay : Int
deriving DecidableEq, Repr

/-- The time state of a channel. -/
structure TimeSt where
  mt : Nat
  vt : TBase
  wt : TBase
  dt : Nat
  /-- meanLinkDelay in ps and neighbourRateRatio deviation in ppt of each port. -/
  linkDelay : Tbl Int
  rateRatio : Tbl Int
  /-- The response of a port's last peer-delay exchange (R41, R44): t3, and the corrected ingress stamp t4 in VT, and in WT
  when WT is enabled, in ps. -/
  pdelayLast : Tbl (Int × Int × Option Int)
  /-- The frequency HOLDREF gives relative to MT, in ppt, while it is within tolerance (R67). -/
  holdref : Option Int
  gptp : GptpCfg
  /-- The running syncReceiptTimeout of a domain, 0 of VT and 1 of WT (R911): MT of its start and the sync interval in ns. -/
  syncAt : Tbl (Nat × Nat)
  /-- MT of the last Sync sent in the grandmaster role, by 2 × port + base, and of the last peer-delay exchange by port. -/
  sentAt : Tbl Nat
  pdelayAt : Tbl Nat
  /-- The Sync being relayed in a domain, 0 of VT and 1 of WT. -/
  relay : Tbl SyncRelay
deriving DecidableEq, Repr

/-! Cadence (R79 to R109). -/

/-- What the cadence holds beside the CAD page. -/
structure CadSt where
  /-- The configuration in force: epoch, period, slots. -/
  epoch : Nat
  period : Nat
  slots : Nat
  /-- An accepted CAD_APPLY waits for the next frame start, with the values it takes (R84). -/
  next : Option (Nat × Nat × Nat)
  /-- Start of the frame in VT and in MT, and its nominal length. -/
  fVt : Nat
  fMt : Nat
  len : Nat
  /-- The frame is a start frame (R94, R914); 0 no, 1 of R94, 2 of R914. -/
  startKind : Nat
  /-- A frame has begun since the cold reset (R90). -/
  begun : Bool
  /-- RUN was written 1 and the cadence waits for VT (R93), or for the grid boundary (R92) after the VT reading
  `runVt`. -/
  waiting : Bool
  runVt : Nat
  /-- The next slot to start, and the stamp pair of the slot that started last (R105). -/
  slot : Nat
  slotAt : Stamp
  /-- The number of the stopped frame that runs, counted on from the last frame; 0 while a frame has not ended (R150). -/
  ticks : Nat
  /-- MT of the last stopped-frame tick (R150). -/
  tickMt : Nat
  /-- The frame-sync outputs: MT of the last pulse's beginning, and whether the pulse is active. -/
  fsync : Tbl (Nat × Bool)
deriving DecidableEq, Repr

/-! Safety (R729 to R776). -/


/-- A safe-state trigger that has fired: its class and the page and event that raised it (R741, R768). -/
structure Trigger where
  cls : Nat
  block : Nat
  inst : Nat
  ev : Nat
  stream : Nat
deriving DecidableEq, Repr

/-- A fault message that waits for its exits (R767, R770). -/
structure FaultMsg where
  kind : Nat
  cls : Nat
  words : List Word
  eth : Bool
  can : Bool
  mbx : Bool
  mt : Nat
  /-- It has been counted in MSG_LATE. -/
  late : Bool
deriving DecidableEq, Repr

/-- What an Age Visor entry has seen since its previous check: a result's VALID and AGE_NS (R751). -/
structure AvSt where
  seen : Option (Bool × Nat)
deriving DecidableEq, Repr

/-- What the SAFE block and FP-SAFE hold beside the SAFE page. -/
structure SafeSt where
  /-- The causes in force since entry, each with whether it has cleared (R736). -/
  causes : List (Trigger × Bool)
  enterMt : Nat
  /-- The SAFE_ENTER message of the last entry has left (R738). -/
  enterSent : Bool
  /-- A non-recoverable cause entered, or SAFE_RELEASE_MAX passed: a fault reset is due (R738). -/
  resetDue : Bool
  /-- FP-SAFE has asked for the release at the next frame boundary (R736). -/
  release : Bool
  msgSeq : Nat
  msgs : List FaultMsg
  /-- Slots ended without a kick, and MT of the last kick (R740). -/
  slotsNoKick : Nat
  kickMt : Nat
  kickOff : Bool
  av : Tbl AvSt
  /-- Slices running, each with the MT of its start and the quad that a targeted one tests (R756); slices completed in the
  period by unit number. -/
  slices : List (TestUnit × Nat × Option Nat)
  sliceCount : Tbl Nat
  /-- Consecutive periods of debt by unit number (R765). -/
  debtRun : Tbl Nat
  /-- The period contains INIT, SAFE or a stopped cadence (R764). -/
  tainted : Bool
  /-- Number of the frame at whose start the last coverage period ended (R759). -/
  covFrame : Nat
  /-- Stalls whose COVERAGE_LAPSED changes at the next frame boundary (R763). -/
  lapsedNext : Nat
  hbSeq : Nat
  hbMt : Nat
  /-- Peer heartbeat: one counted in this period; consecutive periods missed; consecutive received (R674, R675). -/
  hbGot : Bool
  /-- MT of the end of the last heartbeat period watched (R674). -/
  hbWatch : Nat
  hbMiss : Nat
  hbRun : Nat
  /-- The SOLO flag, and whether it clears at the next frame boundary (R30, R675). -/
  solo : Bool
  soloClear : Bool
  /-- The FAULT_x_N ball: driven low. -/
  faultLow : Bool
deriving DecidableEq, Repr

/-- What a glove pair holds beside its GLV page. -/
structure GlvSt where
  /-- MT of the crashes of the last 10 s, newest first (R727). -/
  crashes : List Nat
  /-- Cause code of the crash in progress (R723). -/
  cause : Nat
  /-- The pair is down (crashed, halted, in self-test or held in reset). -/
  down : Bool
  /-- MT at which the watchdog was last serviced. -/
  wdMt : Nat
  /-- A debugger holds the main core halted (R740). -/
  dbgHalt : Bool
  /-- The Hatbox sent HALT (R782). -/
  hbxHalt : Bool
deriving DecidableEq, Repr

/-! Rings and functions (R682 to R728). -/

/-- One ring descriptor of an RCB (R701). -/
structure RingDesc where
  base : Nat
  log2 : Nat
  vec : Nat
deriving DecidableEq, Repr

/-- A function's ring configuration (R701). -/
structure Rcb where
  sqCount : Nat
  idxBase : Nat
  rings : List RingDesc
deriving DecidableEq, Repr

/-- An accepted command that has no completion record yet. -/
structure Cmd where
  ring : Nat
  id : Nat
  op : Nat
  auth : Bool
  words : List Word
  /-- The EXT entry of an authenticated command (R711). -/
  ext : List Word
  /-- Needs no AUTH, or the Hatbox has checked it (R711). -/
  checked : Bool
  /-- Handed on to another pair or to hardware (R725). -/
  handed : Bool
  /-- Past the point where it may be aborted (R708). -/
  fixed : Bool
deriving DecidableEq, Repr

/-- The firmware's state of one function (instance of the channel): 0 the physical function, v its virtual function v. -/
structure FnSt where
  rcb : Option Rcb
  sqHead : Tbl Nat
  cqTail : Nat
  eqTail : Nat
  logTail : Nat
  /-- Rings in ERROR: 0–3 SQ, 4 CQ, 5 EQ, 6 LOG (R706). -/
  err : NatSet
  /-- The submission ring served last (R709). -/
  rr : Nat
  accepted : List Cmd
  /-- CMD_IDs of completions by ring, newest first, at most 256 a ring (R722). -/
  done : List (Nat × Nat)
  /-- Aborts of commands not yet accepted (R721). -/
  abortNext : List (Nat × Nat)
  /-- MT at which an instance reset entered DRAINING (R654). -/
  drainMt : Nat
  /-- The reset in progress is part of LEAVE_RING (R689). -/
  leaving : Bool
deriving DecidableEq, Repr

/-- A log record (R718), as it waits in FP-HOST's buffer before ring mode (R720). -/
structure LogRec where
  src : Nat
  trace : Nat
  seq : Nat
  at_ : Stamp
  payload : List Word
deriving DecidableEq, Repr

/-! Recorder (R844 to R858). -/

/-- A record committed and not yet written (R845, R847). -/
structure Rec where
  typ : Nat
  stall : Nat
  body : List Word
  at_ : Stamp
deriving DecidableEq, Repr

/-- A replay in progress (R852). -/
structure Replay where
  ring : Nat
  id : Nat
  stall : Nat
  base : Nat
  len : Nat
  first : Nat
  count : Nat
  tol : Nat
  /-- A replayed frame has begun; frames replayed whole, results that differed, PAIR_SEQ of the first. -/
  begun : Bool
  frames : Nat
  diffs : Nat
  firstDiff : Nat
  /-- MT at which the last of those frames was counted (R857). -/
  edge : Nat
deriving DecidableEq, Repr

/-- What the recorder holds beside the REC page. -/
structure RecSt where
  queue : List Rec
  /-- Records dropped since the last MARK. -/
  dropped : Nat
  /-- Byte offset in the ring of the next record. -/
  pos : Nat
  /-- A snapshot being copied: its length, and its end in the ring once the FAULT record is written (R850). -/
  export_ : Option (Nat × Option Nat)
  replay : Option Replay
deriving DecidableEq, Repr

/-! Hatbox (R777 to R819). -/

/-- A seal table entry: LOFT_SEAL number, KIND, base and bytes, digest, stall (R788). -/
structure SealEntry where
  slot : Nat
  kind : Nat
  base : Nat
  bytes : Nat
  digest : List Word
  /-- The stall whose package or plan it is; 8 for none. -/
  stall : Nat
  fixed : Bool
  /-- Not yet re-verified since the last fault reset (R792). -/
  pendingVerify : Bool
deriving DecidableEq, Repr

/-- The one-time-programmable fuses of a die: kept through every reset. -/
structure Fuses where
  /-- Life-cycle state burnt, and whether its WIPED fuse is burnt (R795). -/
  lc : Nat
  wiped : Bool
  fwFloor : Nat
  ownerFloor : Nat
  lmsBurnt : Nat
  retired : Nat
  revokedVendor : Nat
  revokedOwner : Nat
  ownerLocked : Bool
  /-- Keys and secrets burnt to all ones (R798). -/
  scrapped : Bool
  /-- The identity record (R802). -/
  identity : List Word
  /-- Fitted loft in 2 MiB units, by order code (R1, R411). -/
  fitted : Nat
deriving DecidableEq, Repr

/-- What the Hatbox holds beside the HBX page. -/
structure HbxSt where
  /-- Doorbells waiting, in service order; the head is the request that runs. -/
  waiting : List Nat
  /-- MT at which each slot was last rung (R779). -/
  rung : Tbl Nat
  busy : Bool
  seals : List SealEntry
  /-- Freshness high-water mark by key slot (R805). -/
  marks : Tbl Nat
  /-- Next signature index within the block in use; 16,384 when it is spent, or none is in use (R813). -/
  lmsNext : Nat
  crashes : List Nat
  /-- A life-cycle transition armed: the new state (R799). -/
  lcArmed : Option Nat
  /-- The nonce drawn in this boot is valid (R801). -/
  nonceDrawn : Bool
  idErr : Bool
  /-- The request in service needs a domain of this set (R817). -/
  uses : NatSet
  /-- What the request in service answers: STATUS, RESULT and data words; none until its work is done. -/
  answer : Option (Nat × Nat × List Word)
  /-- The ring command that FP-HOST's request serves: function, ring, CMD_ID. -/
  forCmd : Option (Nat × Nat × Nat)
  /-- The running image: version and bytes. -/
  image : Option (Nat × Nat)
deriving DecidableEq, Repr

/-! Power and thermal (R820 to R843). -/

/-- What the power sequencer holds beside the PWR page. -/
structure PwrSt where
  /-- The request in progress: domain, on, and MT at which a claim deferred it (R816). -/
  req : Option (Nat × Bool × Option Nat)
  /-- Domains being powered up or quiesced for power-off. -/
  rising : NatSet
  quiescing : NatSet
  /-- Sensor readings, in 0.125 °C units. -/
  sensors : Tbl Int
  /-- MT since which the hottest reading has been 3 °C below a stage's entry, by stage. -/
  below : Tbl Nat
  /-- MT since which LOFT_STAT.TEMP_HIGH has been set. -/
  highMt : Option Nat
  /-- MT since which every reading has been below T_TH in an emergency (R838). -/
  coolMt : Option Nat
  /-- The alternate window of stage 2 is open (R835). -/
  altOpen : Bool
  /-- The 25 MHz reference is lost (R832). -/
  refLost : Bool
deriving DecidableEq, Repr

/-! Memories (R399 to R446). -/

/-- An SRAM with valid bits and byte parity: its bytes, its valid lines, its bytes with wrong parity (R401, R402). -/
structure Sram where
  cells : Mem
  valid : NatSet
  bad : NatSet
deriving DecidableEq, Repr

/-- An accumulator bank of a quad (R110): the entries of its valid rows, 128 data columns and the checksum column, and the
entries with wrong parity, as 129 × row + column (R130). -/
structure AccBank where
  rows : Tbl (List Word)
  bad : NatSet
deriving DecidableEq, Repr

/-- A page that a page DMA unit has delivered to an engine (R239, R256): the frame or step, layer, sequence, page index,
address of its list entry, valid slots, its key rows, its value rows, and its scale block. -/
structure KvPage where
  num : Nat
  layer : Nat
  seq : Nat
  page : Nat
  entry : Nat
  valid : Nat
  keys : List Byte
  vals : List Byte
  scales : List Byte
deriving DecidableEq, Repr

/-- A query row of an attention descriptor (R247, R248): the sequence that its segment names, its position, the mask mode
and PREFIX_P of that sequence, and its context length. -/
structure QRow where
  seq : Option Nat
  pos : Nat
  mode : Nat
  pre : Nat
  len : Nat
deriving DecidableEq, Repr

/-- A key column of a score tensor: its sequence, its position, and the key and value scales of its page slot (R225). -/
structure KeyCol where
  seq : Nat
  pos : Nat
  ks : Word
  vs : Word
deriving DecidableEq, Repr

/-- What an engine carries from the descriptors of one attention to the next (R244, R347): the frame or step, the FP32
codes of s_q,e and SCORE_SCALE, W, the rows, the key columns so far, the running row maximum and sum of the softmax, and
the row scales r of step 7. -/
structure AttnTag where
  num : Nat
  sq : Word
  scale : Word
  slideW : Nat
  layer : Nat
  rows : List QRow
  cols : List KeyCol
  run : List (Word × Word)
  rs : List Word
deriving DecidableEq, Repr

/-- A list or step program on an engine: its stall, the offset of its first descriptor from PSQ_PLAN_BASE, its
descriptors, the one at its head, and what the head descriptor has met. -/
structure Run where
  stall : Nat
  off : Nat
  count : Nat
  idx : Nat
  /-- Slot at whose start its budget ends; 0 for a step program (R312). -/
  bend : Nat
  /-- The frame or step it runs in. -/
  num : Nat
  served : Bool
  /-- The head descriptor has started (R113), and MT of its start. -/
  started : Bool
  issueMt : Nat
  /-- Rounds of work units written (R916). -/
  round : Nat
  /-- A unit failed its check; a parity error, a window fault, a tainted or flagged input was met. -/
  chk : Bool
  par : Bool
  win : Bool
  late : Bool
  /-- The overrun of R125 has been counted. -/
  overrun : Bool
  /-- Pages that the walk of an attention descriptor has delivered (R239), and tile-buffer lines it has filled. -/
  pages : Nat
  lines : Nat
  /-- Pages of the walk that were met poisoned (R156), by their place in it. -/
  badPages : NatSet
  /-- The list heads that the walk has read (R386): the list block's address, whether its head is in range, CAP. -/
  heads : List (Nat × Bool × Nat)
  /-- Which copy of an attention template is being issued (R347). -/
  copy : Nat
  /-- The ladder entries of A and B at the start of the head descriptor (R217). -/
  entA : Nat
  entB : Nat
  /-- The head descriptor was refused at its decode, which ends 40 cycles after its start: cause, operand, whether its
  output takes WINDOW (R364). -/
  refused : Option (Nat × Nat × Bool)
  /-- The head descriptor has been counted as not fitting its window (R332). -/
  unfit : Bool
deriving DecidableEq, Repr

/-- What the model holds of an engine beside its page. -/
structure EngSt where
  run : Option Run
  /-- A launch that waits until the engine is IDLE (R319, R320). -/
  next : Option Run
  /-- Quads for which targeted self-test slices have been asked, one for each mismatch frame, oldest first (R148). -/
  slices : List Nat
  /-- The mismatch frame last counted (R147). -/
  lastFail : Option Nat
  /-- The pages delivered in the step or frame, and what its attention descriptors carry, by TILE offset of the tensor. -/
  kv : List KvPage
  tags : Tbl AttnTag
deriving DecidableEq, Repr

/-- The rows of one sequence in a step (R339 to R342): its table index, first position, rows, candidates, whether it
prefills, and the layers' page that a re-prefill rewrites. -/
structure StepSeq where
  seq : Nat
  pos : Nat
  rows : Nat
  cand : Nat
  prefill : Bool
  repair : Option Nat
deriving DecidableEq, Repr

/-- A served step in progress: its number, sequences, rows, bucket. -/
structure Step where
  num : Nat
  seqs : List StepSeq
  rows : Nat
  bucket : Nat
  /-- Pages the step allocated, as (sequence, list entry address, page number). -/
  alloc : List (Nat × Nat × Nat)
  /-- Sequences that do not commit: aborted, or met a poison (R262, R285). -/
  out : NatSet
  /-- The step is the repeat of a run that failed (R155, R430). -/
  again : Bool
  /-- A descriptor of the step failed its check, met a parity poison, met a window fault. -/
  chk : Bool
  par : Bool
  win : Bool
  /-- A row of the step was nonfinite (R141); sequences that complete WINDOW_FAULT (R230, R233, R266). -/
  nonfin : Bool
  lost : NatSet
  /-- Engines whose program has committed. -/
  done : NatSet
  /-- Sequences aborted in the step (R350). -/
  gone : NatSet
  /-- NEXT and RELAX_CNT, as a tensor's header held them at the start of the step, of the tensors for which the step has
  taken a decision, by engine and address (R212, R215). -/
  moved : List ((Nat × Nat) × Nat × Nat)
deriving DecidableEq, Repr

/-- A swap in progress (R272 to R281): the sequence, its direction, the pages still to copy as (list entry address, from,
to), and those copied. -/
structure Swap where
  seq : Nat
  out : Bool
  left : List (Nat × Nat × Nat)
  copied : List (Nat × Nat × Nat)
  /-- Pages that still move once an instance reset has squashed the transfer: the one in flight (R654). -/
  flight : Option Nat := none
deriving DecidableEq, Repr

/-- What the model holds of a stall beside its PSQ and BSQ pages. -/
structure StallSt where
  /-- The configuration in force, and the replacement that waits for its activation frame (R308). -/
  cfg : Option AdmitReq
  repl : Option AdmitReq
  /-- An admission whose mirrors are being filled before its commit (R405), with its command; none for the manifest. -/
  admitting : Option (AdmitReq × Option (Nat × Nat × Nat))
  /-- The REMOVE that waits for EMPTY: function, ring, CMD_ID (R309). -/
  remover : Option (Nat × Nat × Nat)
  /-- The PSQ state that the REMOVE found, should it not be carried out (R310). -/
  drainFrom : Nat
  step : Option Step
  /-- Page state words by page number, and CRC words of shed pages (R263). -/
  pstate : Tbl Nat
  crc : Tbl Word
  /-- Spill and fill moves to make: (sequence, list entry address, from, to) (R269, R270). -/
  moves : List (Nat × Nat × Nat × Nat)
  swap : Option Swap
  submits : Nat
  /-- R343 has raised ADMIT_HOLD. -/
  held : Bool
  /-- The frame in which a fixed stall was put in DRAINING is over (R309). -/
  drained : Bool
  /-- CAD_FRAME of the last window or decode fault of a fixed stall (R299). -/
  winFrame : Option Nat
  /-- CAD_FRAME in which a context page of a fixed stall was met or found poisoned (R292). -/
  parFrame : Option Nat
  /-- Scoreboard bits set of late, as MT, group, mask: waits see them from the eighth cycle on (R372). -/
  fresh : List (Nat × Nat × Nat)
  /-- Lines of pages in QUARANTINE that a patrol scrub has rewritten: page, line of the page (R438, R439). -/
  scrubbed : List (Nat × Nat)
deriving DecidableEq, Repr

/-- An access of the yard as YARD_ACCESS brings it: master, byte, length, what it writes, upset bytes. -/
structure YardReq where
  m : Fin 9
  addr : Nat
  len : Nat
  write : Option (List Byte)
  flips : List Nat
deriving DecidableEq, Repr

/-- What the yard and loft controllers hold beside their pages. -/
structure MemSt where
  /-- The yard: byte address = bank × 8 MiB + byte (R399). -/
  yard : Sram
  /-- Banks still to be zeroed in the background (R425). -/
  zeroing : NatSet
  /-- Lines rewritten after an error, with the MT of the rewrite (R441): those of the yard, then of the tile buffers. -/
  yardFixed : Tbl Nat
  /-- Bytes with wrong parity that have been counted (R440), numbered in the same way. -/
  yardSeen : NatSet
  /-- The master that each bank served last (R456). -/
  bankLast : List (Nat × Nat)
  /-- Accesses of this fabric cycle that their bank has served before their turn in the queue (R456). -/
  yardEarly : List YardReq
  /-- Mirror entries still to be filled. -/
  mirrorPending : NatSet
  /-- The loft by data address. -/
  loft : Mem
  /-- Poisoned 64-byte blocks, by block number (R434). -/
  poison : NatSet
  /-- Cells of the DRAM that read wrong under the inline check code, by number (R409, R410). -/
  cells : NatSet
  /-- 2 MiB units still to be zeroed, in wipe order, as (first unit, count) (R426, R427). -/
  wipe : List (Nat × Nat)
  /-- The write-back queue: block numbers (R433). -/
  wb : List Nat
  /-- Blocks rewritten after an error, with the MT of the rewrite (R441). -/
  loftFixed : Tbl Nat
  /-- Blocks that were uncorrectable without the inline check code: the poison reaches their next reader (R434). -/
  lost : NatSet
  /-- Writes that wait until their unit is zeroed (R427): address and bytes, oldest first. -/
  waiting : List (Nat × List Byte)
  /-- LOFT_CFG.INLINE_EN has been written since the last cold reset (R412). -/
  inlineSet : Bool
  /-- MT at which the wipes of a reset began (R424). -/
  wipeMt : Option Nat
  /-- MT since which every poll has reported a lower band (R444), and the highest of those bands. -/
  bandLow : Option (Nat × Nat)
  /-- Mirror lines that wait for their re-fetch (R432). -/
  refetch : NatSet
  /-- Loft units of removed stalls that the general DMA still has to zero (R302). -/
  gdmaZero : List (Nat × Nat)
deriving DecidableEq, Repr

/-! Companion bus (R607 to R633). -/

/-- What an accepted near request does on the far bus. -/
inductive CbbKind where
  | posted
  | open_
  | read
  | atomic (op : AtomicOp)
deriving DecidableEq, Repr

/-- An accepted near request (R619): initiator, window, chip select, aperture offset, far byte address, length, lane
rule; the bytes of a write; how many bytes its far cycles have moved; what they have read; a far error met; its read
buffer while it has one; CBLOCK held for it; the semaphore taken for it; an atomic's write follows. -/
structure CbbReq where
  kind : CbbKind
  init : Nat
  win : Nat
  cs : Nat
  off : Nat
  far : Nat
  len : Nat
  lanes : Nat
  data : List Byte
  pos : Nat
  got : List Byte
  err : Bool
  buf : Option Nat
  cblock : Bool
  sem : Bool
  second : Bool
deriving DecidableEq, Repr

/-- A read buffer in use: the request it serves, and once filled its bytes, whether they are an error, MT of the fill. -/
structure CbbBuf where
  init : Nat
  off : Nat
  len : Nat
  fill : Option (List Byte × Bool × Nat)
deriving DecidableEq, Repr

/-- What a near request asks for. -/
inductive NearOp where
  | write (bytes : List Byte)
  | read (len : Nat)
  | atomic (op : AtomicOp)
  | reissue (len : Nat)
deriving DecidableEq, Repr

/-- A request at the bridge's near side: its initiator, its aperture offset, what it asks for. -/
structure NearReq where
  init : Fin 6
  off : Nat
  op : NearOp
deriving DecidableEq, Repr

/-- What the bridge holds beside its page: the requests in acceptance order, the head being performed; MT of the start
of the far cycle in progress; the last cycle's chip select, direction and MT of its end; read buffers; semaphore
holders with MT of the grant; writes held at the fabric port (R620); requests of the present fabric cycle that were
taken before those of higher initiators though queued behind them (R628). -/
structure CbbSt where
  queue : List CbbReq
  cycle : Option Nat
  last : Option (Nat × Bool × Nat)
  bufs : Tbl CbbBuf
  sem : Tbl (Nat × Nat)
  held : List CbbReq
  early : List NearReq
deriving DecidableEq, Repr

/-! Network (R576 to R606). -/

/-- A result on its way out: its context, PAIR_SEQ, and SEQ_MODE of the image it entered the switch under (R581, R592). -/
structure ResTag where
  ctx : Nat
  pair : Nat
  counter : Bool := false
deriving DecidableEq, Repr

/-- Where and when a frame entered the switch (R44): its port, and its stamp in VT, and in WT when WT is enabled. -/
structure NetIn where
  port : Nat
  vt : Nat
  wt : Option Nat
deriving DecidableEq, Repr

/-- A frame in the switch: its traffic class, its egress ports (used at port 8), the result it carries, its ingress port
and stamps, whether it has been counted in GATE_HELD. -/
structure NetFrame where
  frame : EthFrame
  cls : Nat
  mask : Nat
  res : Option ResTag
  in_ : Option NetIn
  held : Bool
deriving DecidableEq, Repr

/-- A frame in transmission: what it is, nanoseconds (in tenths) still to send at MT `at_`, whether it is stomped. -/
structure NetTx where
  item : NetFrame
  left : Nat
  at_ : Nat
  stomp : Bool
  /-- Its gate or HOLD has cut it off between two fragments (R588, R589). -/
  paused : Bool := false
deriving DecidableEq, Repr

/-- A port: its queued frames, oldest first; the frames it transmits, a pre-empting frame before the one it holds up. -/
structure PortSt where
  queue : List NetFrame
  tx : List NetTx
deriving DecidableEq, Repr

/-- A sequence recovery function: last number accepted, the history bits below it, TakeAny, MT of the last accept. -/
structure RecvSt where
  last : Nat
  hist : List Bool
  any : Bool
  at_ : Nat
deriving DecidableEq, Repr

/-- A flow meter: committed and excess tokens in millionths of a bit, and MT up to which they have accrued. -/
structure MeterSt where
  c : Nat
  e : Nat
  at_ : Nat
deriving DecidableEq, Repr

/-- An ACF frame being filled: its messages and MT of its opening. -/
structure AcfOpen where
  msgs : List AcfMsg
  at_ : Nat
  first : Nat
deriving DecidableEq, Repr

/-- A frame that becomes valid on a controller as CAN_FRAME_RX brings it: the entry with wrong parity that its lookup
meets. -/
structure CanArrival where
  c : Fin 16
  f : CanFrame
  par : Option Nat
deriving DecidableEq, Repr

/-- What the switch and the gateway hold beside their pages: the image in force with its address; the image whose gate
lists run; a load in progress (address, and whether it is the reload of R582); an accepted image that waits for the
next frame boundary; image offsets of entries invalid for parity; gate list positions (port 0–7, then stream gate
64 + g) as entry and MT of its start; learned FDB entries as ((MAC, VID), port, MT); frames for sensor ingress. -/
structure NetSt where
  img : Mem
  addr : Nat
  gates : Option Mem
  load : Option (Nat × Bool)
  next : Option (Mem × Nat)
  invalid : NatSet
  pos : Tbl (Nat × Nat)
  fdb : List ((Nat × Nat) × Nat × Nat)
  ports : Tbl PortSt
  recv : Tbl RecvSt
  meters : Tbl MeterSt
  ctxSeq : Tbl Nat
  acf : Tbl AcfOpen
  /-- sequence_num of each talker's next frame (R598). -/
  acfSeq : Tbl Nat
  canq : Tbl (List CanFrame)
  canOver : NatSet
  recovering : NatSet
  /-- Frames for sensor ingress: stream handle, frame, ingress stamp and the WT snapshot with it (R497). -/
  sensorIn : List (Nat × EthFrame × Stamp × Nat)
  /-- CAN frames of this cycle that were routed before their turn in the queue (R603). -/
  canEarly : List CanArrival
deriving DecidableEq, Repr

/-! Raster cluster and display (R530 to R575). -/

/-- A job accepted and not yet complete: function, ring, CMD_ID, context, workgroups not dispatched and running; its pass;
the tiles of a BINNED pass still to run, and the cores that own them once the pass has started; the next batch of an
IMMEDIATE pass and the batches that have ended; fragments shaded; the compositor's fields; it has started; an abort
takes it at its next workgroup boundary. -/
structure GJob where
  fn : Nat
  ring : Nat
  id : Nat
  ctx : Nat
  left : Nat
  running : Nat
  pass : Option Pass
  tiles : Option (List (Nat × Nat))
  owners : List Nat
  next : Nat
  ended : NatSet
  frags : Nat
  comp : Option CompJob
  started : Bool
  abort : Bool
deriving DecidableEq, Repr

/-- A core that runs a workgroup: of which job, since which MT; its tile of a BINNED pass, its batch of an IMMEDIATE one. -/
structure CoreRun where
  fn : Nat
  ring : Nat
  id : Nat
  ctx : Nat
  at_ : Nat
  tile : Option (Nat × Nat)
  batch : Nat
deriving DecidableEq, Repr

/-- A line that a texture cache (0–11, of a core) or L2 (12) holds: its loft address in lines, the context it serves, its
bytes (R550). -/
structure CacheLine where
  cache : Nat
  ctx : Nat
  line : Nat
  bytes : List Byte
  bad : NatSet
deriving DecidableEq, Repr

/-- A fragment that a ROP partition holds back for an earlier primitive (R545), and its job. -/
structure HeldFrag where
  fn : Nat
  ring : Nat
  id : Nat
  frag : Frag
deriving DecidableEq, Repr

/-- What the cluster holds beside its pages: its jobs in submission order; busy cores; cores that a compositor job waits
for; cores the compositor holds; the context served last; the hints of each context's last pass; the reorder buffers;
the lines of the caches, in the order in which they were taken in. -/
structure GfxSt where
  jobs : List GJob
  cores : Tbl CoreRun
  claimed : NatSet
  comp : NatSet
  rr : Nat
  hints : Tbl (Nat × Nat × Nat)
  rob : List HeldFrag
  lines : List CacheLine
deriving DecidableEq, Repr

/-- A telltale region as the frame in progress shows it: its registers, frames since BLINK took effect, consecutive
frames with a mismatch. -/
structure TtSt where
  pos : Word
  size : Word
  rctrl : Word
  bg : Word
  crcOn : Word
  crcOff : Word
  blink : Nat
  bad : Nat
deriving DecidableEq, Repr

/-- What a display pipe and its telltale plane hold beside their pages: MT and VT of the last frame start; the line; an
underrun in this frame; planes omitted from it (R559); pending flips as (target, buffer, MT of arming) and buffers scanned out, by plane; the pipe
waits for a launch; MT and VT of the last launch; the launch is due; regions by number; MT of each region's last write;
MT since which the telltale page waits for a frame. -/
structure DpySt where
  start : Option (Nat × Nat)
  line : Nat
  starved : Bool
  omitted : NatSet
  flips : Tbl (Nat × Nat × Nat)
  cur : Tbl Nat
  waits : Bool
  launch : Option Nat
  due : Bool
  regions : Tbl TtSt
  wrote : Tbl Nat
  ttFrom : Option Nat
deriving DecidableEq, Repr

/-! Sensor ingress and fusion (R475 to R529). -/

/-- A committed sample of a sensor (R499): its count, whether it is complete, the flags LATE, FOLDED, DISCARDED, SELECTED,
SUPERSEDED, UNALIGNED, its SEQ, the assigned instant, ingress stamps, sample time, T_END, δ, bytes, check code, the
four payload words; a later frame has begun in its landing buffer; the ring slot of an Ethernet sample; a window fault
met its bytes. -/
structure Sample where
  s : Nat
  k : Nat
  complete : Bool
  late : Bool
  folded : Bool
  discarded : Bool
  selected : Bool
  superseded : Bool
  unaligned : Bool
  seq : Nat
  instant : Nat
  vt : Nat
  mt : Nat
  ts : Int
  tend : Nat
  delta : Int
  bytes : Nat
  crc : Word
  payload : List Word
  gone : Bool
  slot : Nat
  fault : Bool
deriving DecidableEq, Repr

/-- A sample being received: SEQ, ingress stamps, the sensor's own time, lines or packets so far, bytes, the running check
code, whether it is damaged, its assigned instant, whether a window fault met it. -/
structure Intake where
  seq : Nat
  vt : Nat
  mt : Nat
  own : Int
  count : Nat
  bytes : Nat
  crc : BitVec 32
  bad : Bool
  inst : Nat
  fault : Bool
  /-- T_END so far: VT when a byte of it was last written. -/
  last : Nat
deriving DecidableEq, Repr

/-- What fusion holds of a sensor: ALIGNED, relock count, last δ, the previous frame start, last reason, samples counted
since FUS was enabled, the own count of frames of a camera that sends number 0, the sample being received, ring slot, the
sample number that is being dropped (R498). -/
structure SenSt where
  aligned : Bool
  relock : Nat
  delta : Int
  prev : Option Nat
  reason : Nat
  k : Nat
  frames : Nat
  intake : Option Intake
  slot : Nat
  drop : Option Nat
deriving DecidableEq, Repr

/-- A pose record (R502): time, track, and attitude, velocity, position, rate as FP32 codes. -/
structure PoseRec where
  t : Int
  track : Nat
  q : List Word
  v : List Word
  p : List Word
  w : List Word
deriving DecidableEq, Repr

/-- A projection or track stage in progress: its instant, T_tgt in VT, pose(T_tgt) is available, contributions as
(sensor, sample), sensors excluded by a window fault, the pose records at its launch. -/
structure Stage where
  n : Nat
  tgt : Nat
  pose : Bool
  contrib : List (Nat × Nat)
  faults : NatSet
  ring : List PoseRec
deriving DecidableEq, Repr

/-- What SNS and FUS hold beside their pages: sensors; the last 32 samples of each; pose records, newest first; tracks
started; T_AID of the aid applied last with the sample time of its use; the last counter of each stamp unit, 65536 for
none; IMU edges being read, as stamps by unit; a swap waits; samples selected at this frame's cut-offs (sample number by
sensor); the stages in progress; the stamp words of the last projection. -/
structure FusSt where
  sen : Tbl SenSt
  samples : List Sample
  pose : List PoseRec
  tracks : Nat
  aid : Option (Nat × Int)
  imuCnt : Tbl Nat
  edges : Tbl Stamp
  swap : Bool
  chosen : Tbl Nat
  proj : Option Stage
  trk : Option Stage
  stamp : List Word
deriving DecidableEq, Repr

/-! Outputs. -/

/-- What the module shows outside itself, in commit order: the model's own log. -/
inductive Output where
  | gptp (kind : Nat) (port : Nat) (wt : Bool) (t : Nat)
  | fsync (n : Nat) (high : Bool) (at_ : Stamp)
  | heartbeat (vt : Nat) (valid : Bool) (frame : Nat) (seq : Nat) (state : Nat)
  | fwInt (pair : Nat) (t : Nat) (inst : Nat) (bit : Nat)
  | msix (fn : Nat) (vec : Nat)
  | ethTx (port : Nat) (f : EthFrame) (stomped : Bool)
  | ethCut (port : Nat) (f : EthFrame)
  | canTx (ctrl : Nat) (f : CanFrame) (at_ : Stamp)
  | unsupported (fn : Nat) (off : Nat)
  | poisonedRead (fn : Nat) (off : Nat)
  | readData (off : Nat) (bytes : List Byte)
  | pairOrder (pair : Nat) (halt : Bool)
  | aer (fn : Nat)
  | netCompletion (ctx : Nat) (words : List Word)
  | faultMsg (ctx : Nat) (words : List Word)
  | nearDone (init : Nat) (bytes : List Byte)
  | nearError (init : Nat)
  | nearRetry (init : Nat)
  | farCycle (cs addr : Nat) (lanes : List Nat) (write : Option Word) (lock : Bool)
  | semRead (init c : Nat) (granted : Bool)
  | shaderData (core off : Nat) (bytes : List Byte)
  | ispFrame (sensor fmt w h vt mt : Nat) (pixels : List Byte)
  | dpyPixels (pipe line : Nat) (pixels : List Byte)
deriving DecidableEq, Repr

/-! Bridles (R447 to R473). -/

/-- What a bridle holds beside its page. -/
structure BridleSt where
  /-- Credits in ten-thousandths of a byte, loft then yard (R451); below zero after work that was charged as a whole. -/
  loft : Int
  yard : Int
  /-- MT up to which the credits have accrued. -/
  at_ : Nat
  held : List MemReq
  /-- Issued loft requests with the MT of issue, oldest first (R457). -/
  out : List (MemReq × Nat)
  /-- The loft serves its oldest outstanding request (R459). -/
  busy : Bool
  /-- A target miss has been raised since MAXLAT was cleared (R460). -/
  missed : Bool
deriving DecidableEq, Repr

/-- One channel die. -/
structure Chan where
  /-- Register values that differ from the reset table, by place in the die's region. -/
  regs : Tbl Word
  rst : ResetSt
  time : TimeSt
  cad : CadSt
  safe : SafeSt
  /-- Safe-state triggers that have fired and are not yet entered. -/
  fired : List Trigger
  glv : Tbl GlvSt
  fns : Tbl FnSt
  logSeq : Nat
  logBuf : List LogRec
  /-- Manifest entries admitted and refused at start-up (R694). -/
  manifest : Nat × Nat
  /-- The physical function's loft window as the boot configuration gives it (R690). -/
  pfWin : Word
  /-- The image last written into serial flash (R697). -/
  flash : List Byte
  recorder : RecSt
  hbx : HbxSt
  fuses : Fuses
  pwr : PwrSt
  mem : MemSt
  tiles : Tbl Sram
  /-- Accumulator banks, by 8 × engine + 2 × quad + bank (R110). -/
  accs : Tbl AccBank
  engines : Tbl EngSt
  stalls : Tbl StallSt
  /-- Bridles whose guarantee is withdrawn, oldest first (R468). -/
  breached : List Nat
  /-- The bridle values that FP-PLAN holds from CHAN_CFG, and rewrites after a fault reset (R472). -/
  chanBr : List BridleCfg
  bridles : Tbl BridleSt
  cbb : CbbSt
  net : NetSt
  gfx : GfxSt
  dpy : Tbl DpySt
  /-- The telltale icon SRAM (R568). -/
  icons : Sram
  /-- The other memories of R403: 0–3 of the glove pairs, 4 of the Hatbox, 8–11 the line buffers of the display pipes. -/
  srams : Tbl Sram
  fus : FusSt
  /-- Captured high words by initiator and place (R863). -/
  capture : Tbl Word
  /-- The cycle in which a page's LOCK was last set, by page, a page of the hub 2^40 higher (R874). -/
  lockedAt : Tbl Nat
  /-- Block types written since the die left reset: their output balls are driven (R889). -/
  driven : NatSet
  /-- What the channel has shown outside itself, newest first. -/
  out : List Output
  /-- How many free values have been drawn. -/
  free : Nat
deriving DecidableEq, Repr

/-- A heartbeat on its way through the hub (R673). -/
structure Heartbeat where
  vt : Nat
  valid : Bool
  frame : Nat
  seq : Nat
  state : Nat
deriving DecidableEq, Repr

/-- One direction of the hub's peer traffic, toward one channel. -/
structure PeerLane where
  beats : List Heartbeat
  /-- Mailbox messages sent and not yet received, with the sender's VT_VALID; received and not yet removed (R677). -/
  flight : List (List Word × Bool)
  queue : List (List Word)
deriving DecidableEq, Repr

/-- The hub die. -/
structure Hub where
  regs : Tbl Word
  /-- HUB and PCIEPHY are in reset or off (R825, R839). -/
  down : Bool
  /-- The host link was up and is lost (R16, R637). -/
  linkLost : Bool
  /-- The channel of the last upstream request (R667). -/
  lastUp : Ch
  /-- Vectors that are not masked, and vectors pending, as function × 64 + vector (R652). -/
  unmasked : NatSet
  pending : NatSet
  /-- Functions whose Bus Master Enable is set. -/
  busMaster : NatSet
  /-- Physical functions whose VF Enable is set (R653). -/
  vfEnable : NatSet
  toA : PeerLane
  toB : PeerLane
  /-- Host memory that the shed areas lie in, by host address (R662). -/
  host : Mem
  sensors : Tbl Int
  /-- The hub is cooling after R839, and MT of channel A since which it reads below 115 °C. -/
  hot : Bool
  /-- Consecutive polls below 115 °C (R839). -/
  cool : Nat
  capture : Tbl Word
  out : List Output
deriving DecidableEq, Repr

/-- A base right after a cold reset: UNSET, at zero, at MT rate (R36, R54). -/
def TBase.zero : TBase :=
  { ns := 0, frac := 0, y := 0, i := 0, hist := [], hold := 0, satRun := 0, lockRun := 0, unlockRun := 0,
    jumpRun := 0, holdMt := 0, expired := false }

/-- The defaults of R41: 3 intervals, a Sync every 125 ms, a peer-delay exchange every second. DESIGN CHOICE, note 141. -/
def GptpCfg.defaults : GptpCfg := { timeout := 3, logSync := -3, logPdelay := 0 }

/-- The time state right after a cold reset. -/
def TimeSt.zero : TimeSt :=
  { mt := 0, vt := TBase.zero, wt := TBase.zero, dt := 0, linkDelay := [], rateRatio := [], pdelayLast := [], holdref := none
    gptp := GptpCfg.defaults, syncAt := [], sentAt := [], pdelayAt := [], relay := [] }

/-- The cadence right after a cold reset: STOPPED, with the reset values of its registers in force. -/
def CadSt.zero : CadSt :=
  { epoch := 0, period := 33333333, slots := 96, next := none, fVt := 0, fMt := 0, len := 33333333, startKind := 0,
    begun := false, waiting := false, runVt := 0, slot := 0, slotAt := ⟨0, 0, 0, false⟩, ticks := 0, tickMt := 0, fsync := [] }

/-- The SAFE block right after a reset of the die: INIT, FAULT_x_N driven low (R729). -/
def SafeSt.zero : SafeSt :=
  { causes := [], enterMt := 0, enterSent := false, resetDue := false, release := false, msgSeq := 0, msgs := [],
    slotsNoKick := 0, kickMt := 0, kickOff := false, av := [], slices := [], sliceCount := [], debtRun := [],
    tainted := true, covFrame := 0, lapsedNext := 0, hbSeq := 0, hbMt := 0, hbGot := false, hbWatch := 0, hbMiss := 0, hbRun := 0, solo := false,
    soloClear := false, faultLow := true }

/-- A glove pair that runs. -/
def GlvSt.zero : GlvSt :=
  { crashes := [], cause := 0, down := false, wdMt := 0, dbgHalt := false, hbxHalt := false }

/-- A function whose rings are not configured. -/
def FnSt.zero : FnSt :=
  { rcb := none, sqHead := [], cqTail := 0, eqTail := 0, logTail := 0, err := [], rr := 3, accepted := [], done := [],
    abortNext := [], drainMt := 0, leaving := false }

/-- A recorder that holds nothing. -/
def RecSt.zero : RecSt := { queue := [], dropped := 0, pos := 0, export_ := none, replay := none }

/-- An SRAM with every valid bit clear (R424). -/
def Sram.zero : Sram := { cells := [], valid := [], bad := [] }

/-- The words of an identity record with its check code (R802): the roles of the three dies and zero elsewhere.
DESIGN CHOICE, note 3. -/
def identityWords : List Word :=
  [0, 0, 0, 0, 0, 0, 0x01000000, 0, 0, 0, 0x02000000, 0, 0, 0, 0, 0xBFFB96A0]

/-- The fuses of a new part: MANUFACTURE, nothing burnt, 64 GiB fitted (R1, R795). DESIGN CHOICE, note 3. -/
def Fuses.fresh : Fuses :=
  { lc := 0, wiped := true, fwFloor := 0, ownerFloor := 0, lmsBurnt := 0, retired := 0, revokedVendor := 0,
    revokedOwner := 0, ownerLocked := false, scrapped := false, identity := identityWords, fitted := 32768 }

/-- The Hatbox right after a cold reset. -/
def HbxSt.zero : HbxSt :=
  { waiting := [], rung := [], busy := false, seals := [], marks := [], lmsNext := 16384, crashes := [], lcArmed := none,
    nonceDrawn := false, idErr := false, uses := [], answer := none, forCmd := none, image := none }

/-- The power sequencer at rest. DEDUCED, note 74. -/
def PwrSt.zero : PwrSt :=
  { req := none, rising := [], quiescing := [], sensors := [], below := [], highMt := none, coolMt := none,
    altOpen := false, refLost := false }

/-- The memories right after a cold reset of a part with `units` usable 2 MiB units: no valid line, every unit still
to be zeroed (R423). DEDUCED, note 44. -/
def MemSt.cold (units : Nat) : MemSt :=
  { yard := Sram.zero, zeroing := List.range 32, yardFixed := [], yardSeen := [], bankLast := [], yardEarly := [], mirrorPending := [], loft := [], poison := [], cells := [],
    wipe := [(0, units)], wb := [], loftFixed := [], lost := [], waiting := [], inlineSet := false, wipeMt := none, bandLow := none, refetch := [],
    gdmaZero := [] }

/-- An engine with no list. -/
def EngSt.zero : EngSt := { run := none, next := none, slices := [], lastFail := none, kv := [], tags := [] }

/-- A bank without a valid row. -/
def AccBank.zero : AccBank := { rows := [], bad := [] }

/-- An EMPTY stall. -/
def StallSt.zero : StallSt :=
  { cfg := none, repl := none, admitting := none, remover := none, drainFrom := 0, step := none, pstate := [], crc := [], moves := [], swap := none,
    submits := 0, held := false, drained := false, winFrame := none, parFrame := none, fresh := [], scrubbed := [] }

/-- A sensor that nothing has come from. -/
def SenSt.zero : SenSt :=
  { aligned := false, relock := 0, delta := 0, prev := none, reason := 0, k := 0, frames := 0, intake := none, slot := 0, drop := none }

/-- Fusion without a sample. -/
def FusSt.zero : FusSt :=
  { sen := [], samples := [], pose := [], tracks := 0, aid := none, imuCnt := [], edges := [], swap := false,
    chosen := [], proj := none, trk := none, stamp := [] }

/-- A cluster without a job. -/
def GfxSt.zero : GfxSt := { jobs := [], cores := [], claimed := [], comp := [], rr := 0, hints := [], rob := [], lines := [] }

/-- A region that no frame has shown. -/
def TtSt.zero : TtSt := { pos := 0, size := 0, rctrl := 0, bg := 0, crcOn := 0, crcOff := 0, blink := 0, bad := 0 }

/-- A pipe that is disabled. -/
def DpySt.zero : DpySt :=
  { start := none, line := 0, starved := false, omitted := [], flips := [], cur := [], waits := false, launch := none, due := false,
    regions := [], wrote := [], ttFrom := none }

/-- A switch without an image: nothing is forwarded. -/
def NetSt.zero : NetSt :=
  { img := [], addr := 0, gates := none, load := none, next := none, invalid := [], pos := [], fdb := [], ports := [],
    recv := [], meters := [], ctxSeq := [], acf := [], acfSeq := [], canq := [], canOver := [], recovering := [], sensorIn := [], canEarly := [] }

/-- A port with nothing queued. -/
def PortSt.zero : PortSt := { queue := [], tx := [] }

/-- A bridge that holds no request. -/
def CbbSt.zero : CbbSt := { queue := [], cycle := none, last := none, bufs := [], sem := [], held := [], early := [] }

/-- A bridle that no plan has configured: full credit of the reset BURST (R451). -/
def BridleSt.zero : BridleSt :=
  { loft := 5120000, yard := 5120000, at_ := 0, held := [], out := [], busy := false, missed := false }

/-- The registers that a cold reset leaves different from the reset table, since they show fuses (R411, R795, R802, R807,
R813) and the debug units that the life-cycle state leaves open (R796, R801): `idOk` says that the identity record is valid (R803). The Hatbox owns its page.
DESIGN CHOICE, note 1. -/
def coldRegs (f : Fuses) (idOk : Bool) : Tbl Word :=
  [(Reg.LOFT_CAP, word f.fitted), (headReg T.HBX 0 Reg.OWNER, 2), (Reg.HBX_STAT, word (f.lc + if f.lc ≤ 1 then 32 else 0)), (Reg.HBX_LMS_BLOCKS, word f.lmsBurnt),
   (Reg.HBX_SLOTS, pack [(0, f.retired), (8, f.revokedVendor), (12, f.revokedOwner)])]
    ++ f.identity.zipIdx.map (fun (e : Word × Nat) => (Reg.ID_REC + 4 * e.2, e.1)) ++ [(Reg.ID_STAT, word (nat1 idOk))]

/-- A channel die right after the release of a cold reset (R825). -/
def Chan.cold (f : Fuses) (idOk : Bool) : Chan :=
  { regs := coldRegs f idOk
    rst := { phase := .run, trigger := 0, req := none, paused := false, domains := 0, warm := false, fus := false, blind := false }
    time := TimeSt.zero, cad := CadSt.zero, safe := SafeSt.zero, fired := [], glv := [], fns := [], logSeq := 0,
    logBuf := [], manifest := (0, 0), pfWin := 0, flash := [], recorder := RecSt.zero, hbx := HbxSt.zero, fuses := f, pwr := PwrSt.zero,
    mem := MemSt.cold f.fitted, tiles := [], accs := [], engines := [], stalls := [], breached := [], chanBr := [], bridles := []
    cbb := CbbSt.zero, net := NetSt.zero, gfx := GfxSt.zero, dpy := [], icons := Sram.zero, srams := [], fus := FusSt.zero, capture := []
    lockedAt := [], driven := [], out := [], free := 0 }

/-- A peer lane that carries nothing. -/
def PeerLane.zero : PeerLane := { beats := [], flight := [], queue := [] }

/-- The hub in service with its host link down, both register pages at MODE ROM (R685). -/
def Hub.zero : Hub :=
  { regs := [(Reg.RM_STATE, 1), (Reg.RM_STATE.inst 1, 1)]
    down := false, linkLost := false, lastUp := .b, unmasked := [], pending := [], busMaster := [], vfEnable := [], toA := PeerLane.zero, toB := PeerLane.zero,
    host := [], sensors := [], hot := false, cool := 0, capture := [], out := [] }

/-- The module, with the commands that wait, first in, first out. -/
structure State where
  a : Chan
  b : Chan
  hub : Hub
  pending : List Instr
deriving DecidableEq, Repr

/-- The module right after both channel dies left their cold reset, with the hub in service and no command waiting.
DESIGN CHOICE, note 4. -/
def State.reset : State :=
  { a := Chan.cold Fuses.fresh true, b := Chan.cold Fuses.fresh true, hub := Hub.zero, pending := [] }

end Sys2Proof.Machine
end

