-- ==== Sys2Proof/Decode.lean ====
section
/-!
DEFINITION. The command that a word of the opcode table spells. The table of this hardware gives no row any bits: a
command is an event with structured operands, not a word. So no word spells a command.
-/

namespace Sys2Proof

/-- The command a word of the table spells: the table gives no row any bits, so none. DESIGN CHOICE, note 4. -/
def decodeTableWord (_nbits _w : Nat) : Option Instr := none

end Sys2Proof
end

