-- ==== Sys2Proof/Config.lean ====
section
/-!
DEFINITION. What the spec leaves open: values that results take where the spec states none. None has a body, so
nothing can be proved of them but what holds for every value.
-/

namespace Sys2Proof

/-- A value that nothing constrains; each channel's state counts how many it has drawn. DESIGN CHOICE, note 6. -/
opaque Config.freeWord : Nat → Word

/-- Component k of exp of a half rotation vector given as FP32 codes (R502): the spec states no rounding.
DESIGN CHOICE, note 93. -/
opaque Config.quatExp : Word → Word → Word → Nat → Word

/-- Component k of the attitude with zero yaw that turns a force along +z (R502): the spec states no rounding.
DESIGN CHOICE, note 93. -/
opaque Config.levelQuat : Word → Word → Word → Nat → Word

/-- The FP32 angle of a direction (y, x): the spec states no rounding. -/
opaque Config.atan2 : Word → Word → Word

/-- Result i of an operation of the vector unit on a row of operands, as FP32 codes, where the spec states no arithmetic
or no order of it. DESIGN CHOICE, note 58. -/
opaque Config.vecFn : Nat → List Word → Nat → Word

/-- The check byte of a codeword of the inline check code (R410), for its eight data bytes: the spec names the kind of
code and no matrix. DESIGN CHOICE, note 130. -/
opaque Config.checkByte : List Byte → Byte

/-- Check byte i of the poison signature (R434). DESIGN CHOICE, note 130. -/
opaque Config.poisonByte : Nat → Byte

/-- Byte k of what the blend, depth and stencil operations of a state leave in surface i of a pixel, from what the pixel
holds in each surface and what a fragment brings (R546). DESIGN CHOICE, note 99. -/
opaque Config.rop : Word → List (List Byte) → List (List Byte) → Nat → Nat → Byte

/-- Where an icon of an atlas lies: its first byte, its width and its height (R568). DEDUCED, note 101. -/
opaque Config.iconBox : List (Nat × Byte) → Nat → Nat × Nat × Nat

/-- A component blended with a straight alpha from 1 to 254 over a component: alpha, above, below (R567). DEDUCED, note 101. -/
opaque Config.blend : Byte → Byte → Byte → Byte

/-- The cosine (0) and the sine (1) of a phase of 2^-32 turns, as FP32 codes (R253). DESIGN CHOICE, note 58. -/
opaque Config.turn : Word → Nat → Word

/-- Sorts run from the largest key down. DESIGN CHOICE, note 58. -/
opaque Config.sortDescends : Bool

/-- The FP32 key scale (0) and value scale (1) of a layer that the plan of a PLAN_ID holds (R222). DESIGN CHOICE, note 59. -/
opaque Config.layerScale : Word → Nat → Nat → Word

/-- Byte k of a frame of the light ISP, from its format, its scale and the landing buffer (R528). DESIGN CHOICE, note 132. -/
opaque Config.ispByte : Nat → Nat → List Byte → Nat → Byte

/-- Component k of an output pixel of a display pipe from the planes that contribute to it, bottom first: each with its
configuration, source, size and position in it, and its buffer (R558). DESIGN CHOICE, note 172. -/
opaque Config.dpyPixel : List (List Nat × List Byte) → Nat → Byte

end Sys2Proof
end

