-- ==== Sys2Proof/Machine/Fp.lean ====
section
/-!
DEFINITION. Floating-point values of the tensor engines: exact values, FP32 arithmetic with round to nearest even, and
the formats of R358 (R116, R119, R120, R206, R207, R909).
-/

namespace Sys2Proof.Machine

/-- A floating value: not a number, an infinity, m × 2^e exactly, or minus zero. -/
inductive Fv where
  | nan
  | inf (neg : Bool)
  | num (m : Int) (e : Int)
  | nzero
deriving DecidableEq, Repr

/-- Plus zero, where every accumulator starts (R119). -/
def Fv.zero : Fv := .num 0 0

/-- The sign of a value. -/
def Fv.sgn : Fv → Bool
  | .nan => false
  | .inf s => s
  | .num m _ => decide (m < 0)
  | .nzero => true

/-- A zero of a sign. -/
def Fv.signedZero (neg : Bool) : Fv := if neg then .nzero else .zero

/-- The value is zero. -/
def Fv.isZero : Fv → Bool
  | .num m _ => decide (m = 0)
  | .nzero => true
  | _ => false

/-- The significand and exponent of a finite value. -/
def Fv.parts : Fv → Int × Int
  | .num m e => (m, e)
  | _ => (0, 0)

/-- 2^n for an exponent that may be negative, as a numerator and a denominator. -/
def pow2 (e : Int) : Nat × Nat := if 0 ≤ e then (2 ^ e.toNat, 1) else (1, 2 ^ (-e).toNat)

/-- The bits needed to write a number. -/
def bitLen (n : Nat) : Nat := if n = 0 then 0 else n.log2 + 1

/-- m × 2^e rounded to nearest even at the unit 2^u. -/
def roundUnit (m e u : Int) : Int :=
  if u ≤ e then m * (2 ^ (e - u).toNat : Nat) else rndEven m (2 ^ (u - e).toNat)

/-- A value rounded to p significant bits, with the smallest normal exponent emin and the largest emax: a subnormal
result is kept on the grid of 2^(emin − p + 1), or flushed to plus zero. The flag says that it lies beyond the range.
DEDUCED, note 125. -/
def roundTo (p : Nat) (emin emax : Int) (flush : Bool) (m e : Int) : Fv × Bool :=
  if m = 0 then (.zero, false)
  else
    let top := e + (bitLen m.natAbs : Nat) - 1
    let u := max (top - p + 1) (emin - p + 1)
    let r := roundUnit m e u
    let top' := u + (bitLen r.natAbs : Nat) - 1
    if r = 0 then (.signedZero (!flush && decide (m < 0)), false)
    else if top' < emin && flush then (.zero, false)
    else if top' > emax then (.inf (decide (m < 0)), true)
    else (.num r u, false)

/-- A value rounded to FP32, an overflow an infinity (R120). -/
def Fv.fp32 : Fv → Fv
  | .num m e => (roundTo 24 (-126) 127 false m e).1
  | v => v

/-- An accumulator's sum rounded to FP32, a subnormal one flushed (R119). -/
def Fv.acc32 : Fv → Fv
  | .num m e => (roundTo 24 (-126) 127 true m e).1
  | v => v

/-- The exact sum of two values. -/
def Fv.addExact : Fv → Fv → Fv
  | .nan, _ => .nan
  | _, .nan => .nan
  | .inf a, .inf b => if a = b then .inf a else .nan
  | .inf a, _ => .inf a
  | _, .inf b => .inf b
  | .nzero, b => b
  | a, .nzero => a
  | .num m e, .num k f =>
    let u := min e f
    .num (m * (2 ^ (e - u).toNat : Nat) + k * (2 ^ (f - u).toNat : Nat)) u

/-- The exact product of two values. -/
def Fv.mulExact : Fv → Fv → Fv
  | .nan, _ => .nan
  | _, .nan => .nan
  | .inf a, .inf b => .inf (a != b)
  | .inf a, b => if b.isZero then .nan else .inf (a != b.sgn)
  | a, .inf b => if a.isZero then .nan else .inf (b != a.sgn)
  | a, b =>
    if a.isZero || b.isZero then .signedZero (a.sgn != b.sgn)
    else .num (a.parts.1 * b.parts.1) (a.parts.2 + b.parts.2)

/-- An FP32 addition and multiplication. -/
def Fv.add (a b : Fv) : Fv := (a.addExact b).fp32
def Fv.mul (a b : Fv) : Fv := (a.mulExact b).fp32

/-- One step of an accumulator: the exact product added, rounded and flushed (R119, R139). -/
def Fv.mac (s a b : Fv) : Fv := (s.addExact (a.mulExact b)).acc32

/-- The value with its sign changed. -/
def Fv.neg : Fv → Fv
  | .nan => .nan
  | .inf s => .inf !s
  | .num m e => if m = 0 then .nzero else .num (-m) e
  | .nzero => .zero

/-- The magnitude of a value. -/
def Fv.abs : Fv → Fv
  | .nan => .nan
  | .inf _ => .inf false
  | .num m e => .num m.natAbs e
  | .nzero => .zero

/-- Neither NaN nor infinite. -/
def Fv.finite : Fv → Bool
  | .num _ _ => true
  | .nzero => true
  | _ => false

/-- a ≤ b of two values that are numbers. -/
def Fv.le : Fv → Fv → Bool
  | .nan, _ => false
  | _, .nan => false
  | .inf a, .inf b => a || !b
  | .inf a, _ => a
  | _, .inf b => !b
  | a, b =>
    let u := min a.parts.2 b.parts.2
    decide (a.parts.1 * (2 ^ (a.parts.2 - u).toNat : Nat) ≤ b.parts.1 * (2 ^ (b.parts.2 - u).toNat : Nat))

/-- A value from an IEEE-like encoding with eb exponent bits and mb fraction bits; `special` says that the top exponent
holds infinity and NaN. -/
def decodeIeee (eb mb : Nat) (special : Bool) (n : Nat) : Fv :=
  let frac := n % 2 ^ mb
  let ex := n / 2 ^ mb % 2 ^ eb
  let neg := n / 2 ^ (eb + mb) % 2 = 1
  let bias : Int := 2 ^ (eb - 1) - 1
  let sg (v : Nat) : Int := if neg then -(v : Int) else v
  if special && ex = 2 ^ eb - 1 then (if frac = 0 then .inf neg else .nan)
  else if ex = 0 then (if frac = 0 then .signedZero neg else .num (sg frac) (1 - bias - mb))
  else .num (sg (2 ^ mb + frac)) ((ex : Int) - bias - mb)

/-- The value of an element code in a floating format of R358. -/
def decodeFmt (fmt n : Nat) : Fv :=
  match fmt with
  | 2 => decodeIeee 2 1 false (n % 16)
  | 3 => if n % 128 = 127 then .nan else decodeIeee 4 3 false (n % 256)
  | 4 => decodeIeee 5 2 true (n % 256)
  | 5 => decodeIeee 8 7 true (n % 65536)
  | 6 => decodeIeee 5 10 true (n % 65536)
  | _ => decodeIeee 8 23 true (n % 2 ^ 32)

/-- The code of a value that lies on a format's grid. -/
def encodeIeee (eb mb : Nat) (m e : Int) : Nat :=
  let sgn := if m < 0 then 2 ^ (eb + mb) else 0
  let bias : Int := 2 ^ (eb - 1) - 1
  let a := m.natAbs
  if a = 0 then sgn
  else
    let top := e + (bitLen a : Nat) - 1
    if top < 1 - bias then sgn + roundUnit a e (1 - bias - mb) |>.toNat
    else
      let frac := (roundUnit a e (top - mb)).toNat - 2 ^ mb
      sgn + (top + bias).toNat * 2 ^ mb + frac

/-- The FP32 code of a value; every NaN is the canonical one (R909). -/
def Fv.code32 : Fv → Word
  | .nan => 0x7FC00000
  | .inf s => if s then 0xFF800000 else 0x7F800000
  | .nzero => 0x80000000
  | .num m e => word (encodeIeee 8 23 m e)

/-- The value of an FP32 code. -/
def fp32Of (w : Word) : Fv := decodeIeee 8 23 true w.toNat

/-- A value converted to a floating output format (R206): its code, and whether it counts as a saturation. BF16, FP16
and FP8 go to their largest finite value beyond range; FP32 is not converted. -/
def convFloat (fmt : Nat) (v : Fv) : Nat × Bool :=
  let go (eb mb : Nat) (emin emax : Int) (nan big : Nat) : Nat × Bool :=
    let sgn (neg : Bool) := if neg then 2 ^ (eb + mb) else 0
    match v with
    | .nan => (nan, false)
    | .inf s => (sgn s + big, true)
    | .nzero => (sgn true, false)
    | .num m e =>
      match roundTo (mb + 1) emin emax false m e with
      | (.num r u, _) =>
        let c := encodeIeee eb mb r u
        if c % 2 ^ (eb + mb) > big then (sgn (decide (m < 0)) + big, true) else (c, false)
      | (.nzero, _) => (sgn true, false)
      | (_, _) => (sgn (decide (m < 0)) + big, true)
  match fmt with
  | 3 => go 4 3 (-6) 8 0x7F 0x7E
  | 4 => go 5 2 (-14) 15 0x7E 0x7B
  | 5 => go 8 7 (-126) 127 0x7FC0 0x7F7F
  | 6 => go 5 10 (-14) 15 0x7E00 0x7BFF
  | _ => (v.code32.toNat, false)

/-- A value rounded to the nearest integer, ties to even. -/
def Fv.toInt : Fv → Int
  | .num m e => if 0 ≤ e then m * (2 ^ e.toNat : Nat) else rndEven m (2 ^ (-e).toNat)
  | _ => 0

/-- floor(log2 |v|) of a value that is not zero. -/
def Fv.log2 : Fv → Int
  | .num m e => e + (bitLen m.natAbs : Nat) - 1
  | _ => 0

/-- The E2M1 code of v / 2^x, clamped to ±6 (R207). -/
def e2m1 (v : Fv) (x : Int) : Nat :=
  match v with
  | .num m e =>
    match roundTo 2 0 2 false m (e - x) with
    | (.num r u, _) => min (encodeIeee 2 1 r.natAbs u) 7 + (if r < 0 then 8 else 0)
    | (.nzero, _) => 8
    | (_, _) => 7 + (if m < 0 then 8 else 0)
  | .inf s => 7 + (if s then 8 else 0)
  | .nzero => 8
  | .nan => 0

/-- An MXFP4 block of 32 values: its scale code and element codes (R207). -/
def mxBlock (l : List Fv) : Nat × List Nat :=
  if l.any (· == .nan) then (0xFF, l.map fun _ => 0)
  else
    let mx := l.foldl (fun a v => if a.le v.abs then v.abs else a) .zero
    let x : Int := if mx.isZero then -127 else match mx with
      | .num m e => clampI (-127) 127 ((Fv.num m e).log2 - 2)
      | _ => 127
    ((x + 127).toNat, l.map fun v => e2m1 v x)

/-- m × 2^e / (k × 2^f) rounded to the nearest integer, ties to even, for k > 0. -/
def ratioInt (a b : Fv) : Int :=
  let s := a.parts.2 - b.parts.2
  if 0 ≤ s then rndEven (a.parts.1 * (2 ^ s.toNat : Nat)) b.parts.1.toNat
  else rndEven a.parts.1 (b.parts.1.toNat * 2 ^ (-s).toNat)

/-- An FP32 division: the exact quotient, rounded. -/
def Fv.div : Fv → Fv → Fv
  | .nan, _ => .nan
  | _, .nan => .nan
  | .inf _, .inf _ => .nan
  | .inf a, b => .inf (a != b.sgn)
  | a, .inf b => .signedZero (a.sgn != b)
  | a, b =>
    if b.isZero then (if a.isZero then .nan else .inf (a.sgn != b.sgn))
    else if a.isZero then .signedZero (a.sgn != b.sgn)
    else
      let n := a.parts.1.natAbs * 2 ^ 80
      let k := b.parts.1.natAbs
      let q := n / k * 2 + (if n % k = 0 then 0 else 1)
      let s : Int := if a.sgn = b.sgn then q else -(q : Int)
      (Fv.num s (a.parts.2 - b.parts.2 - 81)).fp32

/-- An integer as FP32. -/
def Fv.ofInt (i : Int) : Fv := (Fv.num i 0).fp32

end Sys2Proof.Machine
end

