-- ==== Sys2Proof/Machine/FusMath.lean ====
section
/-!
DEFINITION. The FP32 arithmetic of fusion (R502 to R504, R516, R526): every operation rounds to FP32; sums of products
run from left to right.
-/

namespace Sys2Proof.Machine

/-- FP32 subtraction. -/
def Fv.sub (a b : Fv) : Fv := a.add b.neg

/-- An FP32 square root; of a negative number, not a number. -/
def Fv.sqrt : Fv → Fv
  | .num m e =>
    if m < 0 then .nan
    else
      let odd := e % 2 = 1
      let a := m.natAbs * 2 ^ (if odd then 101 else 100)
      let r := Nat.sqrt a
      (Fv.num ((r * 2 + (if r * r = a then 0 else 1) : Nat) : Int) ((e - (if odd then 101 else 100)) / 2 - 1 + (if odd then 1 else 0))).fp32
  | .inf false => .inf false
  | .nzero => .nzero
  | _ => .nan

/-- a < b of two values that are numbers. -/
def Fv.lt (a b : Fv) : Bool := a.le b && !b.le a

/-- The greatest integer not above a value. -/
def Fv.floor : Fv → Int
  | .num m e => if 0 ≤ e then m * (2 ^ e.toNat : Nat) else m / (2 ^ (-e).toNat : Nat)
  | _ => 0

/-- Nanoseconds as FP32 seconds. -/
def seconds (ns : Int) : Fv := (Fv.ofInt ns).mul (fp32Of 0x3089705F)

/-- One and one half. -/
def Fv.one : Fv := .num 1 0
def Fv.half : Fv := .num 1 (-1)

/-- A vector. -/
structure V3 where
  x : Fv
  y : Fv
  z : Fv

/-- The zero vector. -/
def V3.zero : V3 := ⟨.zero, .zero, .zero⟩

def V3.add (a b : V3) : V3 := ⟨a.x.add b.x, a.y.add b.y, a.z.add b.z⟩
def V3.sub (a b : V3) : V3 := ⟨a.x.sub b.x, a.y.sub b.y, a.z.sub b.z⟩
def V3.scale (a : V3) (k : Fv) : V3 := ⟨a.x.mul k, a.y.mul k, a.z.mul k⟩
def V3.dot (a b : V3) : Fv := ((a.x.mul b.x).add (a.y.mul b.y)).add (a.z.mul b.z)

/-- A vector from three codes, and its codes. -/
def V3.of (l : List Word) : V3 := ⟨fp32Of (l.getD 0 0), fp32Of (l.getD 1 0), fp32Of (l.getD 2 0)⟩
def V3.codes (a : V3) : List Word := [a.x.code32, a.y.code32, a.z.code32]

/-- A rigid transform: rows of the rotation, and the translation. -/
structure Rig where
  r0 : V3
  r1 : V3
  r2 : V3
  p : V3

/-- Rotate a vector, and map a point. -/
def Rig.rot (m : Rig) (a : V3) : V3 := ⟨m.r0.dot a, m.r1.dot a, m.r2.dot a⟩
def Rig.map (m : Rig) (a : V3) : V3 := (m.rot a).add m.p

/-- The transposed rotation's rows. -/
def Rig.c0 (m : Rig) : V3 := ⟨m.r0.x, m.r1.x, m.r2.x⟩
def Rig.c1 (m : Rig) : V3 := ⟨m.r0.y, m.r1.y, m.r2.y⟩
def Rig.c2 (m : Rig) : V3 := ⟨m.r0.z, m.r1.z, m.r2.z⟩

/-- The inverse rigid transform. -/
def Rig.inv (m : Rig) : Rig :=
  let t : Rig := ⟨m.c0, m.c1, m.c2, .zero⟩
  ⟨m.c0, m.c1, m.c2, ⟨(t.r0.dot m.p).neg, (t.r1.dot m.p).neg, (t.r2.dot m.p).neg⟩⟩

/-- One transform after another: first b, then a. -/
def Rig.comp (a b : Rig) : Rig :=
  ⟨⟨a.r0.dot b.c0, a.r0.dot b.c1, a.r0.dot b.c2⟩, ⟨a.r1.dot b.c0, a.r1.dot b.c1, a.r1.dot b.c2⟩,
   ⟨a.r2.dot b.c0, a.r2.dot b.c1, a.r2.dot b.c2⟩, a.map b.p⟩

/-- A 4 × 4 row-major matrix as a transform (R483), and back (R519). -/
def Rig.ofCodes (l : List Word) : Rig :=
  ⟨V3.of l, V3.of (l.drop 4), V3.of (l.drop 8), ⟨fp32Of (l.getD 3 0), fp32Of (l.getD 7 0), fp32Of (l.getD 11 0)⟩⟩
def Rig.codes (m : Rig) : List Word :=
  m.r0.codes ++ [m.p.x.code32] ++ m.r1.codes ++ [m.p.y.code32] ++ m.r2.codes ++ [m.p.z.code32] ++ [0, 0, 0, 0x3F800000]

/-- A quaternion. -/
structure Quat where
  w : Fv
  v : V3

/-- A quaternion from four codes, and its codes. -/
def Quat.of (l : List Word) : Quat := ⟨fp32Of (l.getD 0 0), V3.of (l.drop 1)⟩
def Quat.codes (q : Quat) : List Word := q.w.code32 :: q.v.codes

/-- The Hamilton product. -/
def Quat.mul (a b : Quat) : Quat :=
  ⟨(((a.w.mul b.w).sub (a.v.x.mul b.v.x)).sub (a.v.y.mul b.v.y)).sub (a.v.z.mul b.v.z),
   ⟨(((a.w.mul b.v.x).add (a.v.x.mul b.w)).add (a.v.y.mul b.v.z)).sub (a.v.z.mul b.v.y),
    (((a.w.mul b.v.y).sub (a.v.x.mul b.v.z)).add (a.v.y.mul b.w)).add (a.v.z.mul b.v.x),
    (((a.w.mul b.v.z).add (a.v.x.mul b.v.y)).sub (a.v.y.mul b.v.x)).add (a.v.z.mul b.w)⟩⟩

/-- Divided by its length. -/
def Quat.normalise (q : Quat) : Quat :=
  let n := ((q.w.mul q.w).add (q.v.dot q.v)).sqrt
  ⟨q.w.div n, ⟨q.v.x.div n, q.v.y.div n, q.v.z.div n⟩⟩

/-- The rotation of a unit quaternion, with a translation. -/
def Quat.rig (q : Quat) (p : V3) : Rig :=
  let two := fun a : Fv => a.add a
  let xx := two (q.v.x.mul q.v.x)
  let yy := two (q.v.y.mul q.v.y)
  let zz := two (q.v.z.mul q.v.z)
  let xy := two (q.v.x.mul q.v.y)
  let xz := two (q.v.x.mul q.v.z)
  let yz := two (q.v.y.mul q.v.z)
  let wx := two (q.w.mul q.v.x)
  let wy := two (q.w.mul q.v.y)
  let wz := two (q.w.mul q.v.z)
  ⟨⟨Fv.one.sub (yy.add zz), xy.sub wz, xz.add wy⟩, ⟨xy.add wz, Fv.one.sub (xx.add zz), yz.sub wx⟩,
   ⟨xz.sub wy, yz.add wx, Fv.one.sub (xx.add yy)⟩, p⟩

/-- exp of half a rotation vector: an elementary function whose rounding the spec does not state. -/
def quatExp (a : V3) : Quat :=
  let f := Config.quatExp a.x.code32 a.y.code32 a.z.code32
  ⟨fp32Of (f 0), ⟨fp32Of (f 1), fp32Of (f 2), fp32Of (f 3)⟩⟩

/-- The attitude with zero yaw that turns a measured force along +z (R502). -/
def levelQuat (a : V3) : Quat :=
  let f := Config.levelQuat a.x.code32 a.y.code32 a.z.code32
  ⟨fp32Of (f 0), ⟨fp32Of (f 1), fp32Of (f 2), fp32Of (f 3)⟩⟩

/-! ## Pose (R502 to R504) -/

/-- The transform of a pose record. -/
def PoseRec.rig (r : PoseRec) : Rig := (Quat.of r.q).rig (V3.of r.p)

/-- Two consecutive records of one track that bracket t, the newer first. -/
def bracket (t : Int) : List PoseRec → Option (PoseRec × PoseRec)
  | a :: b :: l => if a.track = b.track && decide (b.t ≤ t) && decide (t ≤ a.t) then some (a, b) else bracket t (b :: l)
  | _ => none

/-- pose(t) with whether it is extrapolated, by at most `ext` ns (R504). -/
def poseAt (l : List PoseRec) (ext : Nat) (t : Int) : Option (Rig × Bool) :=
  match bracket t l with
  | some (a, b) =>
    let f := if a.t = b.t then Fv.zero else (Fv.ofInt (t - b.t)).div (Fv.ofInt (a.t - b.t))
    let g := Fv.one.sub f
    let mix := fun u v : Fv => (u.mul g).add (v.mul f)
    let qa := Quat.of a.q
    let qb := Quat.of b.q
    let pa := V3.of a.p
    let pb := V3.of b.p
    let q : Quat := ⟨mix qb.w qa.w, ⟨mix qb.v.x qa.v.x, mix qb.v.y qa.v.y, mix qb.v.z qa.v.z⟩⟩
    some (q.normalise.rig ⟨mix pb.x pa.x, mix pb.y pa.y, mix pb.z pa.z⟩, false)
  | none =>
    match l with
    | a :: _ =>
      if a.t ≤ t ∧ t ≤ a.t + ext then
        let dt := seconds (t - a.t)
        let q := ((Quat.of a.q).mul (quatExp ((V3.of a.w).scale (dt.mul Fv.half)))).normalise
        some (q.rig ((V3.of a.p).add ((V3.of a.v).scale dt)), decide (a.t < t))
      else none
    | [] => none

/-- The integrator's step (R502): the record of a sample at t from the one before, the rate and the force in vehicle axes.
A gap of more than 20 ms starts a new track. -/
def integrate (l : List PoseRec) (tracks : Nat) (t : Int) (w a : V3) : PoseRec :=
  match l with
  | r :: _ =>
    if t - r.t ≤ 20000000 then
      let dt := seconds (t - r.t)
      let q0 := Quat.of r.q
      let q := (q0.mul (quatExp (w.scale (dt.mul Fv.half)))).normalise
      let g : V3 := ⟨.zero, .zero, fp32Of 0x411CE80A⟩
      let v0 := V3.of r.v
      let v := v0.add ((((q0.rig .zero).rot a).sub g).scale dt)
      let p := (V3.of r.p).add (((v0.add v).scale Fv.half).scale dt)
      { t := t, track := r.track, q := q.codes, v := v.codes, p := p.codes, w := w.codes }
    else { t := t, track := tracks + 1, q := (levelQuat a).codes, v := [0, 0, 0], p := [0, 0, 0], w := w.codes }
  | [] => { t := t, track := tracks + 1, q := (levelQuat a).codes, v := [0, 0, 0], p := [0, 0, 0], w := w.codes }

end Sys2Proof.Machine
end

