-- ==== Sys2Proof/Machine/Dram.lean ====
section
/-!
DEFINITION. Where the loft's data and check bytes lie in the DRAM (R407 to R410): x16 channels, rows, pages of 2 KiB,
codewords. A cell is one bit of a page; cells are numbered through the pages of every channel.
-/

namespace Sys2Proof.Machine

/-- The granules that a row holds under a setting of the inline check code (R408, R409). -/
def rowGranules (inline : Bool) : Nat := if inline then 7 else 8

/-- The x16 channel of a data address (R407). -/
def dramChannel (a : Nat) : Nat := a / 256 % 16

/-- The row of a data address (R408, R409). -/
def dramRow (inline : Bool) (a : Nat) : Nat := a / 4096 / rowGranules inline

/-- The page offset of a data address (R408, R409). -/
def dramByte (inline : Bool) (a : Nat) : Nat := a / 4096 % rowGranules inline * 256 + a % 256

/-- The data address of byte o of row r of an x16 channel; none for a check byte or an unused byte. -/
def dramData (inline : Bool) (x16 r o : Nat) : Option Nat :=
  if o / 256 < rowGranules inline then some ((r * rowGranules inline + o / 256) * 4096 + x16 * 256 + o % 256) else none

/-- The 64-byte block and the codeword of it that the check byte at offset o of row r holds (R409, R410). -/
def dramCheck (x16 r o : Nat) : Option (Nat × Nat) :=
  if 1792 ≤ o && decide (o < 2016) then
    let b := (o - 1792) / 8
    some ((r * 7 + b / 4) * 64 + x16 * 4 + b % 4, (o - 1792) % 8)
  else none

/-- The block and the codeword that a byte of a page belongs to (R410): data bytes 8i to 8i + 7 pair with check byte i. -/
def dramWord (inline : Bool) (x16 r o : Nat) : Option (Nat × Nat) :=
  match dramData inline x16 r o with
  | some a => some (a / 64, a % 64 / 8)
  | none => if inline then dramCheck x16 r o else none

/-- The number of a cell. -/
def cellNo (c : DramCell) : Nat := ((c.row * 16 + c.x16.val) * 2048 + c.byte.val) * 8 + c.bit.val

/-- The block and the codeword of a numbered cell. -/
def cellWord (inline : Bool) (k : Nat) : Option (Nat × Nat) :=
  dramWord inline (k / 16384 % 16) (k / 262144) (k / 8 % 2048)

/-- The codewords of a block in which cells read wrong, one entry for each such cell. -/
def wrongWords (cells : NatSet) (block : Nat) : List Nat :=
  cells.filterMap fun k => (cellWord true k).bind fun w => if w.1 = block then some w.2 else none

/-- A block lies partly in bytes [a, a+n). -/
def inBytes (a n b : Nat) : Bool := decide (64 * b < a + n) && decide (a < 64 * b + 64)

/-- The blocks in which cells read wrong, ascending. -/
def wrongBlocks (cells : NatSet) : NatSet :=
  cells.foldl (fun (o : NatSet) k => match cellWord true k with | some w => o.add w.1 | none => o) []

/-- The blocks that a write covers only in part (R414). -/
def partBlocks (a n : Nat) : List Nat :=
  if n = 0 then [] else
  let b0 := a / 64
  let b1 := (a + n - 1) / 64
  ((if a % 64 != 0 || (b0 == b1 && (a + n) % 64 != 0) then [b0] else [])
    ++ if b1 != b0 && (a + n) % 64 != 0 then [b1] else [])

/-- The cells that read wrong after a write or a wipe of every block from the first to the last. -/
def cellsLeft (cells : NatSet) (first last : Nat) : NatSet :=
  cells.filter fun k => (cellWord true k).all fun w => decide (w.1 < first) || decide (last < w.1)

/-- A cell changes: it reads wrong, or right again. -/
def flipCell (cells : NatSet) (k : Nat) : NatSet := if cells.contains k then cells.del k else cells.add k

end Sys2Proof.Machine
end

