-- ==== Sys2Proof/Machine/Ops.lean ====
section
/-!
DEFINITION. The named operations of the machine: one channel's view of the state (its own die and the hub), register
access and its permissions, memory access, time, stamps, records, messages to the host.
-/

namespace Sys2Proof.Machine

/-- The default SRAM, bridle, function and pair of a table that lists none. -/
def Tbl.sram (t : Tbl Sram) (i : Nat) : Sram := Tbl.get Sram.zero t i

/-! ## One channel's view -/

/-- What a command of one channel can touch: that channel's die and the hub, and nothing of the peer die (R14, R15). -/
structure Side where
  d : Ch
  me : Chan
  hub : Hub
deriving DecidableEq, Repr

/-- The channel's die. -/
def State.chan (s : State) : Ch → Chan
  | .a => s.a
  | .b => s.b

/-- The state with one channel's die replaced. -/
def State.setChan (s : State) (d : Ch) (c : Chan) : State :=
  match d with
  | .a => { s with a := c }
  | .b => { s with b := c }

/-- One channel's view of the state. -/
def State.side (s : State) (d : Ch) : Side := { d := d, me := s.chan d, hub := s.hub }

/-- The state after a command changed one channel's view. -/
def State.putSide (s : State) (d : Ch) (x : Side) : State := { (s.setChan d x.me) with hub := x.hub }

/-- Apply an operation to one channel's view. DEDUCED, note 124. -/
def State.onSide (s : State) (d : Ch) (f : Side → Side) : State := s.putSide d (f (s.side d))

/-! ## Registers -/

/-- A register of the channel's die. -/
def Side.rd (x : Side) (r : Reg) : Word := Tbl.get (resetOf x.d.die r) x.me.regs r

/-- The same as a number. -/
def Side.rdN (x : Side) (r : Reg) : Nat := (x.rd r).toNat

/-- Hardware's own write of a register of the channel's die. -/
def Side.wr (x : Side) (r : Reg) (v : Word) : Side := { x with me := { x.me with regs := x.me.regs.put r v } }

/-- The same from a number. -/
def Side.wrN (x : Side) (r : Reg) (n : Nat) : Side := x.wr r (word n)

/-- Field [hi:lo] of a register. -/
def Side.field (x : Side) (r : Reg) (hi lo : Nat) : Nat := fld (x.rd r) hi lo

/-- One bit of a register. -/
def Side.flag (x : Side) (r : Reg) (i : Nat) : Bool := bit (x.rd r) i

/-- Hardware's own write of one field. -/
def Side.setField (x : Side) (r : Reg) (hi lo v : Nat) : Side := x.wr r (setFld (x.rd r) hi lo v)

/-- Hardware's own write of one bit. -/
def Side.setFlag (x : Side) (r : Reg) (i : Nat) (b : Bool) : Side := x.wr r (setBit (x.rd r) i b)

/-- A pair of registers as a 64-bit number, low word first. -/
def Side.rd64 (x : Side) (r : Reg) : Nat := x.rdN r + 2 ^ 32 * x.rdN (Reg.hi r)

/-- Hardware's own write of a pair. -/
def Side.wr64 (x : Side) (r : Reg) (n : Nat) : Side := (x.wr r (word n)).wr (Reg.hi r) (word (n / 2 ^ 32))

/-- A register of the hub. -/
def Side.hrd (x : Side) (r : Reg) : Word := Tbl.get (resetOf 2 r) x.hub.regs r

/-- The same as a number. -/
def Side.hrdN (x : Side) (r : Reg) : Nat := (x.hrd r).toNat

/-- Hardware's own write of a register of the hub. -/
def Side.hwr (x : Side) (r : Reg) (v : Word) : Side := { x with hub := { x.hub with regs := x.hub.regs.put r v } }

/-- The same from a number. -/
def Side.hwrN (x : Side) (r : Reg) (n : Nat) : Side := x.hwr r (word n)

/-- Field [hi:lo] of a register of the hub. -/
def Side.hfield (x : Side) (r : Reg) (hi lo : Nat) : Nat := fld (x.hrd r) hi lo

/-- One bit of a register of the hub. -/
def Side.hflag (x : Side) (r : Reg) (i : Nat) : Bool := bit (x.hrd r) i

/-- Hardware's own write of one field of a register of the hub. -/
def Side.hsetField (x : Side) (r : Reg) (hi lo v : Nat) : Side := x.hwr r (setFld (x.hrd r) hi lo v)

/-- Hardware's own write of one bit of a register of the hub. -/
def Side.hsetFlag (x : Side) (r : Reg) (i : Nat) (b : Bool) : Side := x.hwr r (setBit (x.hrd r) i b)

/-- A pair of hub registers as a 64-bit number. -/
def Side.hrd64 (x : Side) (r : Reg) : Nat := x.hrdN r + 2 ^ 32 * x.hrdN (Reg.hi r)

/-- Hardware's own write of a pair of hub registers. -/
def Side.hwr64 (x : Side) (r : Reg) (n : Nat) : Side := (x.hwr r (word n)).hwr (Reg.hi r) (word (n / 2 ^ 32))

/-- A register of the channel's page of Rhordo (R682), which the hub holds. -/
def Side.rm (x : Side) (r : Reg) : Reg := r.inst x.d.die

/-- The HUB_IOV instance of function f of the channel (R638). -/
def Side.fnIx (x : Side) (f : Nat) : Nat := 17 * x.d.die + f

/-- The HUB_IOV register of function f of the channel. -/
def Side.iov (x : Side) (r : Reg) (f : Nat) : Reg := r.inst (x.fnIx f)

/-! ## Whether a page answers -/

/-- The power domain that holds a block's pages (R820, R864). Pages of PWR, CLK, RST, TIME, CAD and EVA lie in AON. -/
def pageDomain (t i : Nat) : Nat :=
  if t = T.TE then i
  else if t = T.YARD || t = T.LOFT then 18
  else if t = T.PSQ || t = T.BSQ || t = T.PDMA || t = T.GDMA || t = T.REC || t = T.CBB then 19
  else if t = T.BRDL || t = T.SAFE then 21
  else if t = T.GFX then 12
  else if t = T.DPY then 14
  else if t = T.SNS then 15
  else if t = T.FUS then 16
  else if t = T.NET || t = T.CANG then 17
  else if t = T.GLV then 20
  else if t = T.HBX || t = T.ID then 22
  else 23

/-- A domain of the channel die is on. -/
def Side.domOn (x : Side) (dom : Nat) : Bool := x.flag Reg.PWR_DOM_STAT dom

/-- The channel die is powered and out of reset. -/
def Side.live (x : Side) : Bool := x.me.rst.phase == .run

/-- The page that holds a register of the die answers (R864). -/
def Side.pageOn (x : Side) (a : Reg) : Bool :=
  x.live && x.domOn (pageDomain (a / 0x40000) (a % 0x40000 / 0x1000))

/-- The page that holds a register of the hub answers: PWR and EVA lie in HUBAON, the rest in HUB. -/
def Side.hubPageOn (x : Side) (a : Reg) : Bool :=
  a / 0x40000 == T.PWR || a / 0x40000 == T.EVA || !x.hub.down

/-! ## Free values -/

/-- The k-th next free value of a channel; no two draws of the module are the same one. DESIGN CHOICE, note 6. -/
def Side.freeAt (x : Side) (k : Nat) : Word := Config.freeWord (2 * (x.me.free + k) + x.d.die)

/-- Draw a free value. DEDUCED, note 140. -/
def Side.draw (x : Side) : Word × Side := (x.freeAt 0, { x with me := { x.me with free := x.me.free + 1 } })

/-- Draw n free values. -/
def Side.drawN (x : Side) (n : Nat) : List Word × Side :=
  ((List.range n).map x.freeAt, { x with me := { x.me with free := x.me.free + n } })

/-! ## Time and stamps -/

/-- The increment of a base per cycle of the time clock, in units of 2^-32 ns: 1 ns plus y ppt rounded to that
granularity (R35). DEDUCED, note 17. -/
def TBase.inc (b : TBase) : Nat := (2 ^ 32 + rndEven (b.y * 2 ^ 32) (10 ^ 12)).toNat

/-- A base after n cycles of the time clock (R35). DEDUCED, note 17. -/
def TBase.run (b : TBase) (n : Nat) : TBase :=
  let t := b.ns * 2 ^ 32 + b.frac + n * b.inc
  { b with ns := t / 2 ^ 32 % 2 ^ 64, frac := t % 2 ^ 32 }

/-- The AON domain of a die counts: the die is powered and not in cold reset (R36, R37). -/
def Chan.ticking (c : Chan) : Bool := c.rst.phase == .run || c.rst.phase == .faultReset

/-- A channel after n cycles of its time clock: MT adds 1 ns a cycle, VT and WT their increments (R35). -/
def Chan.elapse (c : Chan) (n : Nat) : Chan :=
  if c.ticking then
    { c with time := { c.time with
        mt := (c.time.mt + n) % 2 ^ 64
        vt := c.time.vt.run n
        wt := c.time.wt.run n } }
  else c

/-- The module after the time that passed before a command. DESIGN CHOICE, notes 2, 120. -/
def State.elapse (s : State) (n : Now) : State :=
  { s with a := s.a.elapse n.a, b := s.b.elapse n.b }

/-- VT, MT, WT and DT as they read (R38 to R40). -/
def Side.vt (x : Side) : Nat := x.me.time.vt.ns
def Side.mt (x : Side) : Nat := x.me.time.mt
def Side.wt (x : Side) : Nat := if x.flag Reg.TIME_CTRL 1 then x.me.time.wt.ns else 0
def Side.dt (x : Side) : Nat := if x.flag Reg.TIME_STATE 10 then x.me.time.dt else 0

/-- The VT state code (R54). -/
def Side.vtState (x : Side) : Nat := x.field Reg.TIME_STATE 3 0

/-- The stamp pair taken now (R72). -/
def Side.stamp (x : Side) : Stamp :=
  { vt := x.vt, mt := x.mt, st := x.vtState, valid := x.vtState != 0 }

/-- Word 6 of a record: VT_STATE and VT_VALID (R72). -/
def Stamp.word (s : Stamp) : Word := pack [(0, s.st), (4, nat1 s.valid)]

/-- Words 2–5 of a record: the VT and MT stamps. -/
def Stamp.words (s : Stamp) : List Word := words64 s.vt ++ words64 s.mt

/-! ## Outputs -/

/-- The channel shows something outside itself. DESIGN CHOICE, note 119. -/
def Side.emit (x : Side) (o : Output) : Side := { x with me := { x.me with out := o :: x.me.out } }

/-- The hub shows something outside itself. DESIGN CHOICE, note 119. -/
def Side.hemit (x : Side) (o : Output) : Side := { x with hub := { x.hub with out := o :: x.hub.out } }

/-- A block's output balls are driven from its first write on (R889). -/
def Side.drive (x : Side) (t : Nat) : Side := { x with me := { x.me with driven := x.me.driven.add t } }

/-- Recording a commit: the record waits to be written in commit order (R846). Nothing is recorded while EN is 0. -/
def Side.record (x : Side) (typ stall : Nat) (body : List Word) : Side :=
  if x.flag Reg.REC_CTRL 0 then
    { x with me := { x.me with recorder := { x.me.recorder with
        queue := x.me.recorder.queue ++ [{ typ := typ, stall := stall, body := body, at_ := x.stamp }] } } }
  else x

/-! ## Memory -/

/-- Whether a 2 MiB unit waits for the wipe engine (R426). -/
def wipePending (w : List (Nat × Nat)) (u : Nat) : Bool := w.any fun e => e.1 ≤ u && u < e.1 + e.2

/-- A wipe order without one unit. -/
def wipeDrop : List (Nat × Nat) → Nat → List (Nat × Nat)
  | [], _ => []
  | (b, n) :: t, u =>
    if b ≤ u && u < b + n then
      (if b < u then [(b, u - b)] else []) ++ (if u + 1 < b + n then [(u + 1, b + n - (u + 1))] else []) ++ t
    else (b, n) :: wipeDrop t u

/-- How many units still wait. -/
def wipeLeft (w : List (Nat × Nat)) : Nat := (w.map (·.2)).sum

/-- Change the memories of the channel. -/
def Side.modMem (x : Side) (f : MemSt → MemSt) : Side := { x with me := { x.me with mem := f x.me.mem } }

/-- Bytes of the loft. -/
def Side.loftGet (x : Side) (a n : Nat) : List Byte := x.me.mem.loft.read a n

/-- A word of the loft. -/
def Side.loftWord (x : Side) (a : Nat) : Nat := bytesNat (x.loftGet a 4)

/-- A 64-bit value of the loft. -/
def Side.loft64 (x : Side) (a : Nat) : Nat := bytesNat (x.loftGet a 8)

/-- A block that a write of [a, a+n) replaces whole is no longer poisoned (R434). -/
def unpoison (p : NatSet) (a n : Nat) : NatSet := p.filter fun b => !(decide (a ≤ 64 * b) && decide (64 * b + 64 ≤ a + n))

/-- The blocks with a known error that a write of [a, a+n) rewrites: one waiting for its write-back by any write, a
poisoned one by a write of the whole block (R434, R436, R441). -/
def loftMended (m : MemSt) (a n : Nat) : List Nat :=
  (m.wb.filter (inBytes a n)) ++ m.poison.filter fun b => decide (a ≤ 64 * b) && decide (64 * b + 64 ≤ a + n)

/-- A block of the memories holds data that cannot be corrected. -/
def blockLost (m : MemSt) (b : Nat) : Bool :=
  m.poison.contains b || m.lost.contains b || !decide (wrongWords m.cells b).Nodup

/-- The bytes of a write that reach the loft, and where: all but those of a block covered in part that cannot be corrected
(R436). -/
def MemSt.stored (m : MemSt) (a : Nat) (l : List Byte) : Nat × List Byte :=
  let bad := (partBlocks a l.length).filter (blockLost m)
  let lo := if bad.contains (a / 64) then min l.length (64 - a % 64) else 0
  let hi := if bad.contains ((a + l.length - 1) / 64) && decide (lo < l.length) then (a + l.length) % 64 else 0
  (a + lo, (l.take (l.length - hi)).drop lo)

/-- Bytes reach the loft: each block they touch is written whole with new check bytes (R410, R414), which ends its wait for
a write-back (R440); a block that they cover in part and that cannot be corrected keeps what it holds (R436). -/
def MemSt.store (m : MemSt) (now a : Nat) (l : List Byte) : MemSt :=
  let b := (m.stored a l).1
  let l := (m.stored a l).2
  if l.isEmpty then m
  else { m with
    loft := m.loft.write b l
    loftFixed := (loftMended m b l.length).foldl (fun (t : Tbl Nat) k => t.put k now) m.loftFixed
    poison := unpoison m.poison b l.length
    lost := m.lost.filter fun k => !inBytes b l.length k
    wb := m.wb.filter fun k => !inBytes b l.length k
    cells := cellsLeft m.cells (b / 64) ((b + l.length - 1) / 64) }

/-- The 2 MiB units of [a, a+n). -/
def unitsAt (a n : Nat) : List Nat :=
  if n = 0 then [] else List.range' (a / 0x200000) ((a + n - 1) / 0x200000 + 1 - a / 0x200000)

/-- Write bytes into the loft. A write to a unit that is still pending moves the unit to the front of the wipe order and
waits until it is zeroed (R427). DEDUCED, note 169. -/
def Side.loftPut (x : Side) (a : Nat) (l : List Byte) : Side :=
  x.modMem fun m =>
    let pend := (unitsAt a l.length).filter (wipePending m.wipe)
    if pend.isEmpty then m.store x.mt a l
    else { m with
      wipe := pend.map (fun u => (u, 1)) ++ pend.foldl wipeDrop m.wipe
      waiting := m.waiting ++ [(a, l)] }

/-- The writes that waited for units that are now zero are performed (R427). -/
def Side.runWaiting (x : Side) : Side :=
  let held := fun (m : MemSt) (w : Nat × List Byte) => (unitsAt w.1 w.2.length).any (wipePending m.wipe)
  x.modMem fun m =>
    let go := m.waiting.filter fun w => !held m w
    go.foldl (fun (m : MemSt) w => m.store x.mt w.1 w.2) { m with waiting := m.waiting.filter (held m) }

/-- Zero a range of whole units of the loft with its check bytes (R426). -/
def Side.zeroLoft (x : Side) (a n : Nat) : Side :=
  x.modMem fun m => { m with
    loft := m.loft.zero a n
    poison := m.poison.delRange (a / 64) (ceilDiv n 64)
    lost := m.lost.delRange (a / 64) (ceilDiv n 64)
    wb := m.wb.filter fun b => b < a / 64 || a / 64 + ceilDiv n 64 ≤ b
    cells := if n = 0 then m.cells else cellsLeft m.cells (a / 64) ((a + n - 1) / 64) }

/-- Write words into the loft. -/
def Side.loftPutW (x : Side) (a : Nat) (l : List Word) : Side := x.loftPut a (wordsBytes l)

/-! ## Functions of the channel (R638) -/

/-- The firmware's state of function f. -/
def Side.fn (x : Side) (f : Nat) : FnSt := Tbl.get FnSt.zero x.me.fns f

/-- Change the firmware's state of function f. -/
def Side.modFn (x : Side) (f : Nat) (g : FnSt → FnSt) : Side :=
  { x with me := { x.me with fns := x.me.fns.put f (g (x.fn f)) } }

/-- The first byte of the loft window of function f (R642). -/
def Side.winBase (x : Side) (f : Nat) : Nat := x.hfield (x.iov Reg.IOV_WIN f) 15 0 * 0x200000

/-- The bytes of the loft window of function f. -/
def Side.winSize (x : Side) (f : Nat) : Nat := x.hfield (x.iov Reg.IOV_WIN f) 31 16 * 0x200000

/-- The host link is up (R637) and the hub is in service. -/
def Side.linkUp (x : Side) : Bool := x.hflag Reg.PCI_LINK_STAT 8 && !x.hub.down

/-- The hub issues an upstream request of this channel. -/
def Side.upstream (x : Side) : Side := { x with hub := { x.hub with lastUp := x.d } }

/-- The MSI-X vectors of a function: 64 of a physical, 60 of a virtual one (R650). -/
def vectors (f : Nat) : Nat := if f = 0 then 64 else 60

/-- Send MSI-X vector v of function f, or leave it pending (R652, R637). -/
def Side.msix (x : Side) (f v : Nat) : Side :=
  let k := x.fnIx f * 64 + v
  if vectors f ≤ v then x
  else if x.linkUp && x.hub.unmasked.contains k && x.hub.busMaster.contains (x.fnIx f) then x.upstream.hemit (.msix (x.fnIx f) v)
  else { x with hub := { x.hub with pending := x.hub.pending.add k } }

/-- Ring descriptor k of function f: 0–3 SQ, 4 CQ, 5 EQ, 6 LOG (R701). -/
def FnSt.ring (s : FnSt) (k : Nat) : Option RingDesc := s.rcb.bind fun r => r.rings[k]?

/-- The loft address of entry i of a ring (R703). -/
def Side.entryAt (x : Side) (f : Nat) (r : RingDesc) (i size : Nat) : Nat :=
  x.winBase f + r.base + i % 2 ^ r.log2 * size

/-- A host index of function f: word k of its doorbell page (R704, R705). -/
def Side.doorbell (x : Side) (f k : Nat) : Nat := x.hrdN ((x.iov Reg.SQ_TAIL f) + 4 * k)

/-- Advance the device's index k of function f in its index block (R704). -/
def Side.putIndex (x : Side) (f k v : Nat) : Side :=
  match (x.fn f).rcb with
  | some r => x.loftPutW (x.winBase f + r.idxBase + 4 * k) [word v]
  | none => x

/-! ## Register access from outside -/

/-- The page a register lies on. -/
def pageOf (a : Reg) : Reg := a - a % 0x1000

/-- WORLD and PAIR of an OWNER word permit the initiator (R871). For a page of the hub, WORLD HOST permits both physical
functions and all pairs. -/
def worldPermits (owner : Word) (d : Ch) (hub : Bool) : Init → Bool
  | .pf c => fld owner 1 0 == 0 && (hub || c == d)
  | .pair p => fld owner 1 0 == 0 || (fld owner 1 0 == 1 && fld owner 3 2 == p.val)
  | .hatbox => fld owner 1 0 == 2 || !hub
  | .vf _ _ => false

/-- The registers that lie where a write is subject to WORLD but not to LOCK: all but RWL ones (R9, R871). -/
def lockedOut (a : Reg) (lock : Word) : Bool :=
  match rowAt a with
  | some r => r.acc == .rwl && bit lock 0
  | none => false

end Sys2Proof.Machine
end

