-- ==== Sys2Proof/Machine/Flags.lean ====
section
/-!
DEFINITION. Events and counters: raising an event with its deliveries and its route to the FAULT pin (R875 to R881),
counting with saturation (R882 to R885), and a register write's permission (R871 to R873).
-/

namespace Sys2Proof.Machine

/-- The class that an event assigns when it enters SAFE through the pin route (R741, R876). -/
def classOf (e : Ev) : Nat :=
  if e = Ev.GLV_MISMATCH then 0x01
  else if e = Ev.SAFE_KICK then 0x02
  else if e = Ev.GLV_RESTART_LIMIT then 0x03
  else if e = Ev.SAFE_AGE then 0x04
  else if e = Ev.SAFE_AV_SELF then 0x05
  else if e = Ev.TE_FENCED then 0x06
  else if e = Ev.SAFE_UNIT_FENCE then 0x07
  else if e = Ev.LOFT_SEALED_POISON then 0x08
  else if e = Ev.TE_DESC_FAULT then 0x09
  else if e = Ev.NET_IMG_REFUSED then 0x0A
  else if e = Ev.DPY_TT_FAULT || e = Ev.DPY_TT_STALL then 0x0B
  else if e = Ev.SAFE_DEBT then 0x0C
  else if e = Ev.TIME_HOLDOVER_EXPIRED then 0x0D
  else if e = Ev.CLK_FAULT || e = Ev.CLK_REF_LOST || e = Ev.PWR_EMERGENCY then 0x0E
  else 0x0F

/-- A safe-state trigger has fired: it is entered at the end of the command (R731). -/
def Side.fire (x : Side) (t : Trigger) : Side := { x with me := { x.me with fired := x.me.fired ++ [t] } }

/-- Fire class cls with the page and event that raised it. -/
def Side.fireEv (x : Side) (cls : Nat) (e : Ev) (i : Nat) : Side :=
  x.fire { cls := cls, block := e.t, inst := i, ev := e.bit, stream := 0 }

/-- The thermal stage in force (R835). -/
def Side.thermal (x : Side) : Nat := x.field Reg.PWR_THERM_STAT 2 0

/-- Engines of served stalls may issue descriptors (R835): from stage 2 in the open windows only, from stage 4 never. -/
def Side.issueOpen (x : Side) : Bool := decide (x.thermal < 2) || (decide (x.thermal < 4) && x.me.pwr.altOpen)

/-! ## Counters -/

/-- A counter already holds its maximum (R883). -/
def Side.atMax (x : Side) (c : Ct) (i : Nat) : Bool := decide (c.max ≤ x.rdN (c.reg.inst i))

/-- One count: an increment, or the CNT_OVF bit when the counter already holds its maximum (R883). -/
def Side.bump (x : Side) (c : Ct) (i : Nat) : Side :=
  if x.atMax c i then x.wr (headReg c.t i Reg.CNT_OVF) (setBit (x.rd (headReg c.t i Reg.CNT_OVF)) c.n true)
  else x.wrN (c.reg.inst i) (x.rdN (c.reg.inst i) + 1)

/-- The same on a page of the hub. -/
def Side.hatMax (x : Side) (c : Ct) (i : Nat) : Bool := decide (c.max ≤ x.hrdN (c.reg.inst i))

def Side.hbump (x : Side) (c : Ct) (i : Nat) : Side :=
  if x.hatMax c i then x.hwr (headReg c.t i Reg.CNT_OVF) (setBit (x.hrd (headReg c.t i Reg.CNT_OVF)) c.n true)
  else x.hwrN (c.reg.inst i) (x.hrdN (c.reg.inst i) + 1)

/-! ## Raising an event -/

/-- An event record in the event ring of function f (R717): dropped and counted when the ring is full, and not written
while the function has no ring or the ring is in ERROR. EQ_DROPPED is counted on the register page; `sat` is what a count
lost at its maximum does. -/
def Side.eventRecordWith (sat : Side → Side) (x : Side) (f : Nat) (die : Nat) (e : Ev) (i status : Nat) : Side :=
  match (x.fn f).ring 5 with
  | none => x
  | some r =>
    if (x.fn f).err.contains 5 then x
    else if ((x.fn f).eqTail + 2 ^ 32 - x.doorbell f 5) % 2 ^ 32 ≥ 2 ^ r.log2 then
      if Ct.RM_EQ_DROPPED.max ≤ x.hrdN (x.rm Reg.RM_EQ_DROPPED) then sat x
      else x.hwrN (x.rm Reg.RM_EQ_DROPPED) (x.hrdN (x.rm Reg.RM_EQ_DROPPED) + 1)
    else
      let st := x.stamp
      let t := (x.fn f).eqTail
      ((x.loftPutW (x.entryAt f r t 32)
          ([pack [(0, status), (8, e.bit)], pack [(0, e.t), (16, i), (24, die)]] ++ st.words ++ [st.word, 0])).modFn f
        fun s => { s with eqTail := (t + 1) % 2 ^ 32 }).putIndex f 5 ((t + 1) % 2 ^ 32)

/-- The deliveries of one 0-to-1 transition of EVT_STAT (R876). `cnt` counts on the EVA page. DEDUCED, note 160. -/
def Side.deliverWith (sat : Side → Side) (cnt : Side → Ct → Side) (x : Side) (route owner : Word) (die : Nat) (e : Ev)
    (i status fn : Nat) : Side :=
  let x := if bit route 6 then
      ((cnt x Ct.EVA_DELIVERED_HOST).eventRecordWith sat fn die e i status).msix fn (fld route 5 0) else x
  let x := if bit route 7 then
      (cnt x Ct.EVA_DELIVERED_FW).emit (.fwInt (if fld owner 1 0 = 1 then fld owner 3 2 else 0) e.t i e.bit) else x
  if bit route 8 then
    ((cnt x Ct.EVA_DELIVERED_SAFE).emit (.fwInt 2 e.t i e.bit)).record 0x09 0
      [pack [(0, e.t), (16, i), (24, die)], word e.bit, 0, 0, 0, 0, 0, 0]
  else x

/-- Raise an event of a page of the die: EVT_RAW is set, a new EVT_STAT bit is delivered (R876, R877), and the pin
route acts on every raise. -/
def Side.raiseBy (sat : Side → Side) (cnt : Side → Ct → Side) (x : Side) (e : Ev) (i status : Nat) : Side :=
  let raw := headReg e.t i Reg.EVT_RAW
  let was := bit (x.rd raw) e.bit
  let route := x.rd (headReg e.t i Reg.EVT_ROUTE)
  let owner := x.rd (headReg e.t i Reg.OWNER)
  let x := x.wr raw (setBit (x.rd raw) e.bit true)
  let x := if !was && bit (x.rd (headReg e.t i Reg.EVT_EN)) e.bit then
      x.deliverWith sat cnt route owner x.d.die e i status (fld owner 12 8) else x
  if bit route 9 && bit (x.rd (headReg e.t i Reg.EVT_PIN)) e.bit then
    (cnt x Ct.EVA_PIN_TRIGGERS).fireEv (classOf e) e i
  else x

/-- A count of EQ_DROPPED is lost (R883): its bit of RM_CNT_OVF, and EVT_GLV_CNT_SAT on FP-HOST's page (R728); a count lost
in the delivery of that event finds both set and does nothing more (R877). -/
def Side.eqLost (cnt : Side → Ct → Side) (x : Side) : Side :=
  (x.hwr (x.rm Reg.RM_CNT_OVF) (setBit (x.hrd (x.rm Reg.RM_CNT_OVF)) Ct.RM_EQ_DROPPED.n true)).raiseBy (fun x => x) cnt
    Ev.GLV_CNT_SAT 0 0

/-- The deliveries of an event, a lost count of EQ_DROPPED among what they do. -/
def Side.deliver (cnt : Side → Ct → Side) (x : Side) (route owner : Word) (die : Nat) (e : Ev) (i status fn : Nat) : Side :=
  x.deliverWith (Side.eqLost cnt) cnt route owner die e i status fn

/-- Raise an event of a page of the die. -/
def Side.raiseWith (cnt : Side → Ct → Side) (x : Side) (e : Ev) (i status : Nat) : Side :=
  x.raiseBy (Side.eqLost cnt) cnt e i status

/-- A count on the EVA page; a lost count raises EVT_EVA_CNT_SAT (R883), whose own deliveries are counted without
raising again, since the raise would find EVT_RAW set (R877). -/
def Side.countEva (x : Side) (c : Ct) : Side :=
  if x.atMax c 0 then (x.bump c 0).raiseWith (fun y k => y.bump k 0) Ev.EVA_CNT_SAT 0 0 else x.bump c 0

/-- An event record on its own (R468, R706). -/
def Side.eventRecord (x : Side) (f : Nat) (die : Nat) (e : Ev) (i status : Nat) : Side :=
  x.eventRecordWith (Side.eqLost Side.countEva) f die e i status

/-- Raise an event of a page of the die with a status in its event record (R717). -/
def Side.raiseStatus (x : Side) (e : Ev) (i status : Nat) : Side := x.raiseWith Side.countEva e i status

/-- Raise an event of page instance i of its block (R876). -/
def Side.raise (x : Side) (e : Ev) (i : Nat := 0) : Side := x.raiseStatus e i 0

/-- Count on page instance i: a count lost at the maximum sets CNT_OVF and raises the page's CNT_SAT (R883).
DESIGN CHOICE, note 118. -/
def Side.count (x : Side) (c : Ct) (i : Nat := 0) : Side :=
  if x.atMax c i then (x.bump c i).raise ⟨c.t, cntSatBit c.t⟩ i else x.bump c i

/-- Count n times. -/
def Side.countN (x : Side) (c : Ct) (i : Nat) : Nat → Side
  | 0 => x
  | n + 1 => (x.count c i).countN c i n

/-- The deliveries of a hub page's event to this channel (R880, R881): the channel that is unpowered or in reset makes no
record and takes no delivery, the HOST vector is still sent. -/
def Side.hdeliver (cnt : Side → Ct → Side) (x : Side) (e : Ev) (i fn : Nat) : Side :=
  let route := x.hrd (headReg e.t i Reg.EVT_ROUTE)
  if x.live then x.deliver cnt route (x.hrd (headReg e.t i Reg.OWNER)) 2 e i 0 fn
  else if bit route 6 then x.msix fn (fld route 5 0) else x

/-- Raise an event of a hub page toward this channel. -/
def Side.hraiseWith (cnt : Side → Ct → Side) (x : Side) (e : Ev) (i fn : Nat) : Side :=
  let raw := headReg e.t i Reg.EVT_RAW
  let was := bit (x.hrd raw) e.bit
  let x := x.hwr raw (setBit (x.hrd raw) e.bit true)
  let x := if !was && bit (x.hrd (headReg e.t i Reg.EVT_EN)) e.bit then x.hdeliver cnt e i fn else x
  if x.live && bit (x.hrd (headReg e.t i Reg.EVT_ROUTE)) 9 && bit (x.hrd (headReg e.t i Reg.EVT_PIN)) e.bit then
    (cnt x Ct.EVA_PIN_TRIGGERS).fireEv (classOf e) e i
  else x

/-- A count on the hub's EVA page; a lost count raises the page's EVT_EVA_CNT_SAT. -/
def Side.hcountEva (x : Side) (c : Ct) : Side :=
  if x.hatMax c 0 then (x.hbump c 0).hraiseWith (fun y k => y.hbump k 0) Ev.EVA_CNT_SAT 0 0 else x.hbump c 0

/-- Raise an event of a hub page that serves this channel; its deliveries are counted on the hub's EVA page.
DEDUCED, note 12. -/
def Side.hraise (x : Side) (e : Ev) (i fn : Nat) : Side := x.hraiseWith Side.hcountEva e i fn

/-- Count on a hub page that serves this channel. -/
def Side.hcount (x : Side) (c : Ct) (i fn : Nat) : Side :=
  if x.hatMax c i then (x.hbump c i).hraise ⟨c.t, cntSatBit c.t⟩ i fn else x.hbump c i

/-- A counter of the channel's register page of Rhordo: its overflow bits lie in RM_CNT_OVF and its saturation is
raised on FP-HOST's GLV page (R728). -/
def Side.countRm (x : Side) (c : Ct) (k : Nat := 0) : Side :=
  let r := (c.reg + 4 * k).inst x.d.die
  if c.max ≤ x.hrdN r then
    (x.hwr (x.rm Reg.RM_CNT_OVF) (setBit (x.hrd (x.rm Reg.RM_CNT_OVF)) (c.n + k) true)).raise Ev.GLV_CNT_SAT 0
  else x.hwrN r (x.hrdN r + 1)

/-! ## Register writes from outside -/

/-- A refused write is counted: of a physical function on its HUB_IOV page (R640), of another initiator in OWNER_DENIED
with its event (R873). A count lost on the page of the other channel's physical function sets CNT_OVF and latches the event;
its deliveries, which would act on that other channel, are not made. DEDUCED, note 10. DESIGN CHOICE, note 11. -/
def Side.denied (x : Side) : Init → Side
  | .pf c =>
    let i := 17 * c.die
    let raw := headReg T.HUB_IOV i Reg.EVT_RAW
    if c = x.d then x.hcount Ct.IOV_OUT_OF_WINDOW i 0
    else if x.hatMax Ct.IOV_OUT_OF_WINDOW i then
      (x.hbump Ct.IOV_OUT_OF_WINDOW i).hwr raw (setBit (x.hrd raw) (cntSatBit T.HUB_IOV) true)
    else x.hbump Ct.IOV_OUT_OF_WINDOW i
  | _ => (x.countEva Ct.EVA_OWNER_DENIED).raise Ev.EVA_OWNER_DENIED

/-- The page of a register in `Chan.lockedAt`. -/
def lockKey (hub : Bool) (a : Reg) : Nat := pageOf a + (if hub then 2 ^ 40 else 0)

/-- LOCK of the page was set in this same cycle: a write that reaches the page in it is performed first (R874).
DEDUCED, note 143. -/
def Side.lockedJust (x : Side) (hub : Bool) (a : Reg) : Bool := x.me.lockedAt.any fun e => e.1 == lockKey hub a && e.2 == x.mt

/-- A write of a register of the die by an initiator: nothing when the page does not answer (R861, R864), counted when
WORLD or LOCK refuses it (R871, R873), else performed by `f`. DEDUCED, note 9. -/
def Side.access (x : Side) (w : Init) (a : Reg) (f : Side → Side) : Side :=
  if !x.pageOn a then x
  else if !worldPermits (x.rd (pageOf a + Reg.OWNER)) x.d false w then x.denied w
  else if lockedOut a (x.rd (pageOf a + Reg.LOCK)) && !x.lockedJust false a then x.denied w
  else (f x).drive (a / 0x40000)

/-- A hub page serves the channel (R880): HUB_IOV and HUB_SHED instances serve one channel each, the others both. -/
def Side.hubServes (x : Side) (a : Reg) : Bool :=
  let i := a % 0x40000 / 0x1000
  if a / 0x40000 = T.HUB_IOV then i / 17 == x.d.die else if a / 0x40000 = T.HUB_SHED then i == x.d.die else true

/-- WORLD and LOCK of a page of the hub permit a write; the pair that PAIR names is one of the channel that the page
serves. -/
def Side.hpermits (x : Side) (w : Init) (a : Reg) : Bool :=
  let owner := x.hrd (pageOf a + Reg.OWNER)
  worldPermits owner x.d true w && !(fld owner 1 0 == 1 && !x.hubServes a) && !(lockedOut a (x.hrd (pageOf a + Reg.LOCK)) && !x.lockedJust true a)

/-- The initiator reaches the hub: a function always, what lies on a die while that die runs. -/
def Side.reachesHub (x : Side) : Init → Bool
  | .pf _ => true
  | .vf _ _ => true
  | _ => x.live

/-- The bits of a register that a write can change (R10). DEDUCED, note 115. -/
def maskAt (a : Reg) : Word := (rowAt a).elim 0 fun r => word r.mask

/-- The stored part of a register write: implemented bits take the value, the rest keep theirs. DEDUCED, note 115. -/
def Side.store (x : Side) (a : Reg) (v : Word) : Side :=
  x.wr a ((x.rd a &&& ~~~(maskAt a)) ||| (v &&& maskAt a))

/-- The same on the hub. -/
def Side.hstore (x : Side) (a : Reg) (v : Word) : Side :=
  x.hwr a ((x.hrd a &&& ~~~(maskAt a)) ||| (v &&& maskAt a))

/-! ## Completions (R712 to R716) -/

/-- Write a 64-byte completion record in the completion ring of function f (R713); KIND COMMAND and SEQ_FINAL records are
also recorded (R848). A network command (function 17 here, 0x7F of R806) is answered by a frame in the context of
HBX_NETCMD (R809). -/
def Side.putCompletion (x : Side) (f : Nat) (kind ring op id status result : Nat) (detail : List Word) : Side :=
  if f = 17 then
    let st := x.stamp
    let w0 := pack [(0, status), (8, result), (16, op), (24, ring)]
    (x.emit (.netCompletion (x.field Reg.HBX_NETCMD 15 8) ([w0, word id]
      ++ st.words ++ [st.word, word kind] ++ (detail ++ List.replicate 8 0).take 8))).record 0x05 0 [w0, word id, 0, 0, 0, 0, 0, 0]
  else
  match (x.fn f).ring 4 with
  | none => x
  | some r =>
    if (x.fn f).err.contains 4 then x else
    let st := x.stamp
    let w0 := pack [(0, status), (8, result), (16, op), (24, ring)]
    let t := (x.fn f).cqTail
    let x := x.loftPutW (x.entryAt f r t 64) ([w0, word id] ++ st.words ++ [st.word, word kind] ++ (detail ++ List.replicate 8 0).take 8)
    let x := (x.modFn f fun s => { s with cqTail := (t + 1) % 2 ^ 32 }).putIndex f 4 ((t + 1) % 2 ^ 32)
    if kind = 1 then x else x.record 0x05 0 [w0, word id, 0, 0, 0, 0, 0, 0]

/-- Signal the completion ring of function f (R714). -/
def Side.signalCq (x : Side) (f : Nat) : Side :=
  match (x.fn f).ring 4 with
  | some r => if (x.fn f).err.contains 4 then x else x.msix f r.vec
  | none => x

/-- A completion record, and its signal. -/
def Side.completion (x : Side) (f : Nat) (kind ring op id status result : Nat) (detail : List Word) : Side :=
  (x.putCompletion f kind ring op id status result detail).signalCq f

/-- Remember the CMD_ID of a completion: the last 256 of each ring (R722). -/
def rememberId (l : List (Nat × Nat)) (ring id : Nat) : List (Nat × Nat) :=
  ((ring, id) :: l.filter fun e => e.1 == ring).take 256 ++ l.filter fun e => e.1 != ring

/-- Complete an accepted command (R712): its record is written and it is no longer accepted. -/
def Side.complete (x : Side) (f : Nat) (c : Cmd) (status : Nat) (result : Nat := 0) (detail : List Word := []) : Side :=
  (x.completion f 0 c.ring c.op c.id status result detail).modFn f fun s => { s with
    accepted := s.accepted.filter fun k => !(k.ring == c.ring && k.id == c.id)
    done := rememberId s.done c.ring c.id }

/-- The accepted command a reference names. -/
def Side.cmd (x : Side) (r : CmdRef) : Option Cmd :=
  (x.fn r.fn).accepted.find? fun k => k.ring == r.ring.val && k.id == r.id

/-- An accepted command of a function. -/
def Side.accepted (x : Side) (f ring id : Nat) : Option Cmd := (x.fn f).accepted.find? fun k => k.ring == ring && k.id == id

/-- Run an accepted command of an opcode; a reference that names none, or a command whose
AUTH check is not done, does nothing (R711). -/
def Side.withCmd (x : Side) (r : CmdRef) (op : Nat) (f : Cmd → Side → Side) : Side :=
  match x.cmd r with
  | some c => if c.op = op && c.checked then f c x else x
  | none => x

/-- Word k of a command's entry (R707). -/
def Cmd.w (c : Cmd) (k : Nat) : Nat := (c.words.getD k 0).toNat

/-- Words k and k + 1 as a 64-bit value. -/
def Cmd.w64 (c : Cmd) (k : Nat) : Nat := c.w k + 2 ^ 32 * c.w (k + 1)

/-- Parameter bits that an opcode's layout leaves out (R707): those of the opcodes whose layout the spec gives word for word
(R708, R852). DEDUCED, note 89. -/
def reservedParams (op : Nat) (l : List Word) : Bool :=
  match op with
  | 0x00 => (l.drop 2).any (· != 0)
  | 0x09 => (l.drop 6).any (· != 0)
  | 0x0B => (l.drop 4).any (· != 0)
  | 0x0F => fld (l.getD 6 0) 31 3 != 0 || (l.drop 12).any (· != 0)
  | _ => false

/-- A reserved bit of an entry or of its EXT entry is not zero (R707, R710, R711). -/
def reservedBits (l ext : List Word) : Bool :=
  let w0 := l.getD 0 0
  fld w0 31 9 != 0 || reservedParams (fld w0 7 0) l
    || (bit w0 8 && (fld (ext.getD 0 0) 31 8 != 0 || fld (ext.getD 1 0) 31 8 != 0 || (ext.drop 8).any (· != 0)))

/-- What follows an AUTH entry is no EXT entry (R711). -/
def extMissing (l ext : List Word) : Bool := bit (l.getD 0 0) 8 && fld (ext.getD 0 0) 7 0 != 0xFE

/-- FP-HOST has handed a command on to another pair or to hardware (R725). -/
def Side.handOn (x : Side) (f ring id : Nat) : Side :=
  x.modFn f fun s => { s with accepted := s.accepted.map fun k =>
    if k.ring == ring && k.id == id then { k with handed := true } else k }

end Sys2Proof.Machine
end

