-- ==== Sys2Proof/Machine/Loft.lean ====
section
/-!
DEFINITION. The loft controller: sealed regions (R420), what a read of a block finds (R410, R413, R416, R433 to R435,
R440, R441), what a read of a master receives (R434), writes of a master (R414, R436).
-/

namespace Sys2Proof.Machine

/-- LOFT_CFG.INLINE_EN. -/
def Side.inline (x : Side) : Bool := x.flag Reg.LOFT_CFG 0

/-- Loft bytes [a, a+n) lie partly in a sealed region (R420). -/
def Side.inSeal (x : Side) (a n : Nat) : Bool :=
  (List.range 8).any fun k =>
    let g := x.rd ((Reg.LOFT_SEAL : Reg).el 4 k)
    decide (a < (fld g 15 0 + fld g 31 16) * 0x200000) && decide (fld g 15 0 * 0x200000 < a + n)

/-- Count n at once. -/
def Side.countBy (x : Side) (c : Ct) (i n : Nat) : Side :=
  let v := x.rdN (c.reg.inst i)
  if n = 0 then x
  else if v + n ≤ c.max then x.wrN (c.reg.inst i) (v + n)
  else (x.wrN (c.reg.inst i) c.max).count c i

/-! ## What a read of a block finds -/

/-- An entry of a table of rewrites lies within one scrub period of now (R441). DEDUCED, note 171. -/
def lately (l : Tbl Nat) (k now period : Nat) : Bool := l.any fun e => e.1 == k && decide (now ≤ e.2 + period)

/-- The block has been rewritten after an error within one LOFT_SCRUB_CFG period (R439, R441). -/
def Side.loftHard (x : Side) (block : Nat) : Bool :=
  lately x.me.mem.loftFixed block x.mt (x.field Reg.LOFT_SCRUB_CFG 4 0 * 3600000000000)

/-- Record a loft error: KIND, block, SCRUB, SEALED, HARD. -/
def Side.loftFound (x : Side) (kind block : Nat) (scrub sealedIn hard : Bool) : Side :=
  let x := x.wr64 Reg.LOFT_ERR_ADDR (64 * block)
  let x := x.wr Reg.LOFT_ERR_INFO (pack [(0, kind), (2, dramChannel (64 * block)), (6, nat1 scrub), (7, nat1 sealedIn), (8, nat1 hard)])
  if hard then (x.count Ct.LOFT_HARD_ERRORS).raise Ev.LOFT_HARD else x

/-- LOFT_STAT.WB_FULL follows the write-back queue. -/
def Side.showWb (x : Side) : Side := x.setFlag Reg.LOFT_STAT 5 (decide (64 ≤ x.me.mem.wb.length))

/-- A correctable block (R433): delivered corrected; queued for write-back, or dropped when the queue is full. A block
that waits for its write-back is counted once (R440). -/
def Side.corrected (x : Side) (block : Nat) (scrub : Bool) : Side :=
  if x.me.mem.wb.contains block then x
  else
    let x := (x.count Ct.LOFT_CE_BLOCKS).loftFound 1 block scrub (x.inSeal (64 * block) 64) (x.loftHard block)
    if 64 ≤ x.me.mem.wb.length then (x.count Ct.LOFT_WB_DROPPED).raise Ev.LOFT_WB_FULL
    else (x.modMem fun m => { m with wb := m.wb ++ [block] }).showWb

/-- A block of a sealed region that is poisoned already is read again (R435). -/
def Side.sealedPoison (x : Side) (block : Nat) : Side :=
  let x := x.wr64 Reg.LOFT_ERR_ADDR (64 * block)
  let x := x.wr Reg.LOFT_ERR_INFO (pack [(0, 2), (2, dramChannel (64 * block)), (7, 1)])
  x.raise Ev.LOFT_SEALED_POISON

/-- An uncorrectable block (R434, R435): with the inline code it is poisoned in the loft, without it the poison waits for
its next reader; a sealed one raises its own event. A block that is poisoned already reports its poison again without a
count. DEDUCED, note 151. -/
def Side.uncorrectable (x : Side) (block : Nat) (scrub : Bool) : Side :=
  let sealedIn := x.inSeal (64 * block) 64
  let hard := x.loftHard block
  let known := x.me.mem.poison.contains block
  let x := if x.inline then (x.modMem fun m => { m with
      poison := m.poison.add block, wb := m.wb.filter (· != block), cells := cellsLeft m.cells block block }).showWb
    else x.modMem fun m => { m with lost := m.lost.add block }
  if known then (if sealedIn then x.sealedPoison block else x)
  else
    let x := ((x.count Ct.LOFT_UE_BLOCKS).loftFound 2 block scrub sealedIn hard).raise Ev.LOFT_UE
    if sealedIn then x.raise Ev.LOFT_SEALED_POISON else x

/-- A single-bit link error in a burst of a block is corrected (R416). -/
def Side.linkErr (x : Side) (scrub : Bool) (block : Nat) : Side := (x.count Ct.LOFT_LINK_CE).loftFound 3 block scrub false false

/-- The controller reads a block (R410): it is correctable when no codeword holds more than one wrong cell. The poison
signature decodes as uncorrectable whatever cell changes (R434). -/
def Side.blockRead (x : Side) (scrub : Bool) (block : Nat) : Side :=
  let l := wrongWords x.me.mem.cells block
  if l.isEmpty || x.me.mem.poison.contains block then x
  else if decide l.Nodup then x.corrected block scrub
  else x.uncorrectable block scrub

/-! ## Reads of a master -/

/-- A master's read of [a, a+n) receives poison (R434): a block of it is poisoned or lost, or cannot be corrected. -/
def Side.loftBad (x : Side) (a n : Nat) : Bool :=
  let m := x.me.mem
  (m.poison ++ m.lost).any (inBytes a n)
    || (wrongBlocks m.cells).any fun b => inBytes a n b && !decide (wrongWords m.cells b).Nodup

/-- What a master's read of [a, a+n) does in the controller: its blocks with wrong cells are corrected or poisoned, a
sealed block that was poisoned before raises its event again (R435), and what was lost has reached its reader (R434). The
flag says that the reader receives poison. DEDUCED, note 151. -/
def Side.loftMeet (x : Side) (a n : Nat) : Side × Bool :=
  let bad := x.loftBad a n
  let old := x.me.mem.poison.find? (inBytes a n)
  let x := ((wrongBlocks x.me.mem.cells).filter (inBytes a n)).foldl (fun x b => x.blockRead false b) x
  let x := match old with
    | some b => if x.inSeal (64 * b) 64 then x.sealedPoison b else x
    | none => x
  (if x.me.mem.lost.isEmpty then x else x.modMem fun m => { m with lost := m.lost.filter fun b => !inBytes a n b }, bad)

/-! ## Writes of a master -/

/-- A loft write of a master (R414): the blocks that it covers in part are read and corrected first, each a counted
read-modify-write; the merge into one that cannot be corrected is abandoned with EVT_LOFT_UE, and the block stays as it is
(R436). -/
def Side.loftWrite (x : Side) (a : Nat) (l : List Byte) : Side :=
  let part := partBlocks a l.length
  let m := x.me.mem
  let old := part.any fun b => m.poison.contains b || m.lost.contains b
  let x := x.countBy Ct.LOFT_RMW_WRITES 0 part.length
  let x := ((wrongBlocks m.cells).filter part.contains).foldl (fun x b => x.blockRead false b) x
  (if old then x.raise Ev.LOFT_UE else x).loftPut a l

/-- Words of a master. -/
def Side.loftWriteW (x : Side) (a : Nat) (l : List Word) : Side := x.loftWrite a (wordsBytes l)

/-! ## Wipes (R426 to R428) -/

/-- The count of pending units follows the wipe order; the last one ends the wipe (R428). -/
def Side.wipeShow (x : Side) : Side :=
  let x := x.wrN Reg.LOFT_WIPE_LEFT (wipeLeft x.me.mem.wipe)
  if x.me.mem.wipe.isEmpty && x.flag Reg.LOFT_STAT 4 then (x.setFlag Reg.LOFT_STAT 4 false).raise Ev.LOFT_WIPE_DONE else x

end Sys2Proof.Machine
end

