-- ==== Sys2Proof/Machine/Credits.lean ====
section
/-!
DEFINITION. What a bridle is set to, the rate now applied to it, and its credits: every request of a master to the loft or
the yard passes its bridle (R415, R447, R451, R452, R466).
-/

namespace Sys2Proof.Machine

/-! ## What a bridle is set to -/

/-- CLASS of a bridle: 0 UNGUARANTEED, 1 ORDINARY, 2 PROTECTED. -/
def Side.brClass (x : Side) (b : Nat) : Nat := x.field (Reg.BRDL_CFG.inst b) 1 0

/-- Its loft RATE in MB/s and BURST in bytes, and those of its yard regulator. -/
def Side.brRate (x : Side) (b : Nat) : Nat := x.field (Reg.BRDL_LOFT_RATE.inst b) 18 0
def Side.brBurst (x : Side) (b : Nat) : Nat := x.field (Reg.BRDL_LOFT_BURST.inst b) 16 0
def Side.brYardRate (x : Side) (b : Nat) : Nat := x.field (Reg.BRDL_YARD_RATE.inst b) 18 0
def Side.brYardBurst (x : Side) (b : Nat) : Nat := x.field (Reg.BRDL_YARD_BURST.inst b) 16 0

/-- A guaranteed bridle (R448), and one whose guarantee is in force. -/
def Side.guaranteed (x : Side) (b : Nat) : Bool := x.brClass b == 1 || x.brClass b == 2
def Side.inForce (x : Side) (b : Nat) : Bool := x.guaranteed b && !x.me.breached.contains b

/-- The master ports. -/
def ports : List Nat := List.range 20

/-- The sum of the loft RATEs of some bridles. -/
def Side.rateSum (x : Side) (sel : Nat → Bool) : Nat := ((ports.filter sel).map x.brRate).sum

/-- The certified deliverable bandwidth of a band in MB/s (R443). -/
def deliverable (inline : Bool) (band : Nat) : Nat :=
  match band with
  | 1 => if inline then 186400 else 209700
  | 2 => if inline then 178600 else 201000
  | _ => if inline then 163100 else 183500

/-- D_now (R465): the figure of LOFT_DERATE, and before the first poll that of band 1. DEDUCED, note 50. -/
def Side.dNow (x : Side) : Nat := if x.field Reg.LOFT_STAT 3 2 = 0 then deliverable x.inline 1 else x.rdN Reg.LOFT_DERATE

/-- G: the guarantees in force. -/
def Side.gSum (x : Side) : Nat := x.rateSum x.inForce

/-- The headroom H (R466). -/
def Side.headroom (x : Side) : Int := (x.dNow : Int) - (x.gSum : Int)

/-- The loft rate now applied to a bridle, in ten-thousandths of a byte per ns: its own RATE while its guarantee is in
force; else its share of the headroom, or the floor of one block per 10 µs (R466, R467), to which stage 4 holds an
unguaranteed bridle too (R835). -/
def Side.brSpeed (x : Side) (b : Nat) : Nat :=
  if x.inForce b then 10 * x.brRate b
  else if x.headroom ≤ 0 || (x.thermal == 4 && !x.guaranteed b) then min 64 (10 * x.brRate b)
  else min (10 * x.brRate b) (10 * x.headroom.toNat * x.brRate b / max 1 (x.rateSum fun k => !x.inForce k))

/-! ## Credits -/

/-- The default of the table of bridles. -/
def Side.bridle (x : Side) (b : Nat) : BridleSt := Tbl.get BridleSt.zero x.me.bridles b

/-- Change what a bridle holds. -/
def Side.modBridle (x : Side) (b : Nat) (f : BridleSt → BridleSt) : Side :=
  { x with me := { x.me with bridles := x.me.bridles.put b (f (x.bridle b)) } }

/-- The fabric cycles since its credits last accrued, in all of which a bridle that holds a request now held it. -/
def Side.heldSince (x : Side) (b : Nat) : Nat :=
  let s := x.bridle b
  if s.held.isEmpty then 0 else x.mt * 6 / 5 - s.at_ * 6 / 5

/-- The credits of a bridle accrue up to now (R451), and the fabric cycles in which it held a request are counted.
DEDUCED, note 82. -/
def Side.accrue (x : Side) (b : Nat) : Side :=
  let s := x.bridle b
  let t := x.mt - s.at_
  let x := x.countBy Ct.BRDL_HELD_CYCLES b (x.heldSince b)
  x.modBridle b fun s => { s with
    at_ := x.mt
    loft := min (10000 * x.brBurst b) (s.loft + x.brSpeed b * t)
    yard := min (10000 * x.brYardBurst b) (s.yard + 10 * x.brYardRate b * t) }

/-- The bytes a request is charged (R415): whole blocks in the yard and the loft; a loft write that covers part of a block
takes two accesses of it; under the inline code fewer than four blocks of a granule count as four. -/
def Side.charge (x : Side) (r : MemReq) : Nat :=
  if r.len = 0 then 0
  else
    let b0 := r.addr / 64
    let b1 := (r.addr + r.len - 1) / 64
    if !r.loft then 64 * (b1 - b0 + 1)
    else
      let cost := fun g =>
        let blocks := (List.range 4).filter fun k => decide (b0 ≤ 4 * g + k) && decide (4 * g + k ≤ b1)
        let part := blocks.filter fun k => decide (64 * (4 * g + k) < r.addr) || decide (r.addr + r.len < 64 * (4 * g + k) + 64)
        let rmw := r.write.isSome && !part.isEmpty
        let n := if x.inline && decide (blocks.length < 4) then 4 else blocks.length
        if x.inline then (if rmw then 2 * n else n) else n + (if r.write.isSome then part.length else 0)
      64 * ((List.range (b1 / 4 - b0 / 4 + 1)).map fun k => cost (b0 / 4 + k)).sum

/-- A request may be issued (R452): its charge is available, and a RATE of 0 holds every request (R453). -/
def Side.affords (x : Side) (b : Nat) (r : MemReq) : Bool :=
  (if r.loft then x.brRate b else x.brYardRate b) != 0
    && decide ((10000 * x.charge r : Nat) ≤ if r.loft then (x.bridle b).loft else (x.bridle b).yard)

/-- A bridle's credit falls by n requests of q bytes in all, which are counted (R452). -/
def Side.pay (x : Side) (b : Nat) (loft : Bool) (n q : Nat) : Side :=
  let x := (x.countBy Ct.BRDL_REQ_ISSUED b n).countBy Ct.BRDL_BLOCKS_CHARGED b (q / 64)
  x.modBridle b fun s => if loft then { s with loft := s.loft - 10000 * q } else { s with yard := s.yard - 10000 * q }

/-- A request of a master whose work a command completes has passed its bridle before: its charge is taken (R447, R452).
DESIGN CHOICE, note 152. -/
def Side.passBridle (x : Side) (b : Nat) (r : MemReq) : Side := (x.accrue b).pay b r.loft 1 (x.charge r)

end Sys2Proof.Machine
end

