-- ==== Sys2Proof/Machine/Spaces.lean ====
section
/-!
DEFINITION. The SRAMs with valid bits and parity (R401 to R403) and physical access to a tile, the yard or the loft.
-/

namespace Sys2Proof.Machine

/-- A byte of an SRAM: zero in a line that is not valid (R402). DESIGN CHOICE, note 5. -/
def Sram.byte (r : Sram) (a : Nat) : Byte := if r.valid.contains (a / 64) then r.cells.get a else 0

/-- Bytes of an SRAM. -/
def Sram.bytes (r : Sram) (a n : Nat) : List Byte := (List.range n).map fun k => r.byte (a + k)

/-- Some byte of [a, a+n) in a valid line has wrong parity. -/
def Sram.parityBad (r : Sram) (a n : Nat) : Bool :=
  r.bad.any fun b => a ≤ b && b < a + n && r.valid.contains (b / 64)

/-- The lines of [a, a+n). -/
def linesOf (a n : Nat) : List Nat := if n = 0 then [] else (List.range ((a + n - 1) / 64 - a / 64 + 1)).map (a / 64 + ·)

/-- The lines of [a, a+n) have their valid bits cleared: they hold nothing. -/
def Sram.invalidate (r : Sram) (a n : Nat) : Sram :=
  let b := a / 64 * 64
  let m := (linesOf a n).length * 64
  { cells := r.cells.zero b m, valid := r.valid.delRange (a / 64) (linesOf a n).length, bad := r.bad.delRange b m }

/-- Write bytes: their parity is set; a line that was not valid takes zero in its other bytes (R401, R402). -/
def Sram.put (r : Sram) (a : Nat) (l : List Byte) : Sram :=
  if l.isEmpty then r
  else { cells := r.cells.write a l, valid := (linesOf a l.length).foldl NatSet.add r.valid,
         bad := r.bad.delRange a l.length }

/-- The number of byte 0 of the tile buffer of an engine among the bytes of the yard and the tile buffers. -/
def tileFrom (e : Nat) : Nat := 2 ^ 28 + e * 2 ^ 23

/-- The memories after bytes [a, a+n) of an SRAM are written, whose bytes with wrong parity are `bad` and are numbered from
`from_` on: a line of which one had been counted is rewritten (R441). -/
def MemSt.refix (m : MemSt) (now from_ : Nat) (bad : NatSet) (a n : Nat) : MemSt :=
  let hit := (bad.filter fun b => decide (a ≤ b) && decide (b < a + n) && m.yardSeen.contains (from_ + b)).map (from_ + ·)
  { m with
    yardFixed := hit.foldl (fun (t : Tbl Nat) b => t.put (b / 64) now) m.yardFixed
    yardSeen := m.yardSeen.filter fun b => !hit.contains b }

/-- Bytes of a physical space: 0 the tile buffer of engine `i`, 1 the yard, 2 the loft. -/
def Side.physGet (x : Side) (sp i a n : Nat) : List Byte :=
  if sp = 0 then (x.me.tiles.sram i).bytes a n
  else if sp = 1 then x.me.mem.yard.bytes a n
  else x.loftGet a n

/-- Write bytes of a physical space. -/
def Side.physPut (x : Side) (sp i a : Nat) (l : List Byte) : Side :=
  if sp = 0 then
    let x := x.modMem fun m => m.refix x.mt (tileFrom i) (x.me.tiles.sram i).bad a l.length
    { x with me := { x.me with tiles := x.me.tiles.put i ((x.me.tiles.sram i).put a l) } }
  else if sp = 1 then x.modMem fun m => { m.refix x.mt 0 m.yard.bad a l.length with yard := m.yard.put a l }
  else x.loftPut a l

end Sys2Proof.Machine
end

