-- ==== Sys2Proof/Machine/Windows.lean ====
section
/-!
DEFINITION. A stall's windows (R294 to R300, R357), access to them, the refusals of R298, R390, R406 and R420, tensor
headers (R375 to R380) and the scoreboard (R371).
-/

namespace Sys2Proof.Machine

/-- What the model holds of stall st, and a change of it. -/
def Side.stl (x : Side) (st : Nat) : StallSt := Tbl.get StallSt.zero x.me.stalls st
def Side.modStl (x : Side) (st : Nat) (f : StallSt → StallSt) : Side :=
  { x with me := { x.me with stalls := x.me.stalls.put st (f (x.stl st)) } }

/-- The stall's PSQ state: 0 EMPTY, 1 ARMED, 2 RUNNING, 3 DRAINING, 4 HALTED. -/
def Side.psq (x : Side) (st : Nat) : Nat := x.field (Reg.PSQ_STAT.inst st) 2 0

/-- The banks of a stall in ascending number. -/
def Side.banks (x : Side) (st : Nat) : List Nat := (List.range 32).filter fun b => x.flag (Reg.PSQ_YARD_BANKS.inst st) b

/-- Bytes of a yard bank (R399). -/
def bankBytes : Nat := 8388608

/-- The yard byte of a stall's yard offset (R296). -/
def Side.yardAt (x : Side) (st o : Nat) : Nat := (x.banks st).getD (o / bankBytes) 0 * bankBytes + o % bankBytes

/-- First byte and bytes of a stall's loft window (R297). -/
def Side.loftWin (x : Side) (st : Nat) : Nat × Nat :=
  (x.field (Reg.PSQ_LOFT_RGN.inst st) 15 0 * 0x200000, x.field (Reg.PSQ_LOFT_RGN.inst st) 31 16 * 0x200000)

/-- First byte and bytes of the region that a stall imports (R300): none when it imports nothing. -/
def Side.importWin (x : Side) (st : Nat) : Nat × Nat :=
  if x.flag (Reg.PSQ_IMPORT.inst st) 3 then
    let e := x.field (Reg.PSQ_IMPORT.inst st) 2 0
    ((x.loftWin e).1 + x.field (Reg.PSQ_EXPORT.inst e) 15 0 * 0x200000, x.field (Reg.PSQ_EXPORT.inst e) 31 16 * 0x200000)
  else (0, 0)

/-- SPACE and OFFSET of an operand address (R357). -/
def spaceOf (a : Nat) : Nat := a / 2 ^ 36 % 16
def offOf (a : Nat) : Nat := a % 2 ^ 36

/-- An address in the yard (1) or the loft (2). -/
def yardAddr (o : Nat) : Nat := 2 ^ 36 + o
def loftAddr (o : Nat) : Nat := 2 ^ 37 + o

/-- Bytes of the physical loft that an offset of LOFT or IMPORT names. -/
def Side.loftPhys (x : Side) (st a : Nat) : Nat :=
  (if spaceOf a = 3 then (x.importWin st).1 else (x.loftWin st).1) + offOf a

/-- Bytes at an operand address of a stall; `e` is the engine whose tile buffer TILE names. -/
def Side.spGet (x : Side) (st e a n : Nat) : List Byte :=
  match spaceOf a with
  | 0 => (x.me.tiles.sram e).bytes (offOf a) n
  | 1 => (List.range n).map fun k => x.me.mem.yard.byte (x.yardAt st (offOf a + k))
  | _ => x.loftGet (x.loftPhys st a) n

/-- Write yard bytes from an offset of a stall on, bank by bank. -/
def Side.yardPut (x : Side) (st o : Nat) (l : List Byte) : Nat → Side
  | 0 => x
  | k + 1 =>
    let n := bankBytes - o % bankBytes
    let x := x.physPut 1 0 (x.yardAt st o) (l.take n)
    if l.length ≤ n then x else x.yardPut st (o + n) (l.drop n) k

/-- Write bytes at an operand address of a stall. -/
def Side.spPut (x : Side) (st e a : Nat) (l : List Byte) : Side :=
  match spaceOf a with
  | 0 => x.physPut 0 e (offOf a) l
  | 1 => x.yardPut st (offOf a) l 32
  | _ => x.loftWrite (x.loftPhys st a) l

/-- An access of n bytes at an operand address of a stall passes the bridle of its master (R447); a tile buffer has none.
DESIGN CHOICE, note 152. -/
def Side.fare (x : Side) (b st a n : Nat) (write : Option (List Byte)) : Side :=
  match spaceOf a with
  | 0 => x
  | 1 => x.passBridle b ⟨false, x.yardAt st (offOf a), n, write⟩
  | _ => x.passBridle b ⟨true, x.loftPhys st a, n, write⟩

/-- Write bytes at an operand address of a stall through bridle b. -/
def Side.spPutBy (x : Side) (b st e a : Nat) (l : List Byte) : Side := (x.fare b st a l.length (some l)).spPut st e a l

/-- Some byte read at an operand address has wrong parity, or lies in a poisoned block of the loft. -/
def Side.spBad (x : Side) (st e a n : Nat) : Bool :=
  match spaceOf a with
  | 0 => (x.me.tiles.sram e).parityBad (offOf a) n
  | 1 => x.me.mem.yard.bad.any fun b => (List.range n).any fun k => x.yardAt st (offOf a + k) == b && x.me.mem.yard.valid.contains (b / 64)
  | _ => x.loftBad (x.loftPhys st a) n

/-- Yard bytes [a, a+n) of the die overlap a mirror range (R404). -/
def Side.inMirror (x : Side) (a n : Nat) : Bool :=
  (List.range 32).any fun k =>
    let w := x.rd ((Reg.YARD_MIR_LINE : Reg).el 0x10 k)
    let b := fld w 21 17 * bankBytes + fld w 16 0 * 64
    bit w 31 && decide (a < b + x.field ((Reg.YARD_MIR_LEN : Reg).el 0x10 k) 17 0 * 64) && decide (b < a + n)

/-- Loft offsets [o, o+n) of a stall overlap its sequence table (R390). -/
def Side.inSeqTable (x : Side) (st o n : Nat) : Bool :=
  let b := x.rd64 (Reg.BSQ_SEQ_TABLE.inst st)
  x.flag (Reg.PSQ_STAT.inst st) 3 && decide (o < b + 128 * x.field (Reg.BSQ_SEQ_MAX.inst st) 8 0) && decide (b < o + n)

/-- An access of a stall's engine or of the general DMA on its behalf is permitted (R298, R300, R390, R406, R420). -/
def Side.winOk (x : Side) (st a n : Nat) (write : Bool) : Bool :=
  let o := offOf a
  match spaceOf a with
  | 0 => decide (o + n ≤ bankBytes)
  | 1 => decide (o + n ≤ (x.banks st).length * bankBytes) &&
      !(write && (x.inMirror (x.yardAt st o) (min n (bankBytes - o % bankBytes))
        || (decide (bankBytes < o % bankBytes + n) && x.inMirror (x.yardAt st ((o / bankBytes + 1) * bankBytes)) (o + n - (o / bankBytes + 1) * bankBytes))))
  | 2 => decide (o + n ≤ (x.loftWin st).2) && !(write && (x.inSeal (x.loftPhys st a) n || x.inSeqTable st o n))
  | 3 => !write && decide (o + n ≤ (x.importWin st).2)
  | _ => false

/-- Tier code of PSQ_WF_INFO: 0 yard, 1 loft, 3 import. -/
def tierOf (a : Nat) : Nat := match spaceOf a with | 1 => 0 | 2 => 1 | _ => 3

/-- A window fault of a stall (R298): recorded and raised; the access is not performed. Masters: 0–7 engines, 8 GDMA. -/
def Side.windowFault (x : Side) (st m a : Nat) (write : Bool) : Side :=
  let x := x.wr64 (Reg.PSQ_WF_OFFSET.inst st) (offOf a)
  let x := x.wr (Reg.PSQ_WF_INFO.inst st) (pack [(0, tierOf a), (2, m), (6, nat1 write)])
  (x.count Ct.PSQ_WINDOW_FAULTS st).raise Ev.PSQ_WINDOW st

/-! ## Tensor headers (R375 to R380) -/

/-- The 32 words of a header. -/
abbrev Hdr := List Word

/-- Word k of a header. -/
def hw (h : Hdr) (k : Nat) : Word := h.getD k 0

/-- Words from bytes. -/
def bytesWords : List Byte → List Word
  | a :: b :: c :: d :: t => word (bytesNat [a, b, c, d]) :: bytesWords t
  | [] => []
  | l => [word (bytesNat l)]

/-- The header at an operand address. -/
def Side.hdr (x : Side) (st e a : Nat) : Hdr := bytesWords (x.spGet st e a 128)

/-- Write a header. -/
def Side.putHdr (x : Side) (st e a : Nat) (h : Hdr) : Side := x.spPut st e a (wordsBytes h)

/-- Header fields: FORMAT, LAYOUT, H, W, C, ACT_LEN, DATA_BYTES, SCALE_OFF, L, ENTRY, NEXT. -/
def hFmt (h : Hdr) : Nat := fld (hw h 0) 11 8
def hLayout (h : Hdr) : Nat := fld (hw h 0) 13 12
def hFlags (h : Hdr) : Nat := fld (hw h 0) 19 16
def hActEn (h : Hdr) : Bool := bit (hw h 0) 20
def hH (h : Hdr) : Nat := fld (hw h 1) 15 0
def hW (h : Hdr) : Nat := fld (hw h 2) 17 0
def hC (h : Hdr) : Nat := fld (hw h 3) 17 0
def hAct (h : Hdr) : Nat := fld (hw h 4) 17 0
def hBytes (h : Hdr) : Nat := (hw h 5).toNat
def hScale (h : Hdr) : Nat := (hw h 6).toNat
def hL (h : Hdr) : Nat := fld (hw h 7) 2 0 + 1
def hEntry (h : Hdr) : Nat := fld (hw h 7) 8 6
def hNext (h : Hdr) : Nat := fld (hw h 7) 11 9

/-- Entry e of the 8-bit array that begins at word k. -/
def hByte (h : Hdr) (k e : Nat) : Nat := fld (hw h (k + e / 4)) (8 * (e % 4) + 7) (8 * (e % 4))

/-- The flag bits of a header: CHK_POISON 1, PAR_POISON 2, WINDOW 4, LATE 8. -/
abbrev fChk : Nat := 1
abbrev fPar : Nat := 2
abbrev fWin : Nat := 4
abbrev fLate : Nat := 8

/-- A header with flags added. -/
def orFlags (h : Hdr) (f : Nat) : Hdr := h.set 0 (hw h 0 ||| (word (f % 16) <<< 16))

/-- The first write of a step clears flags and sums and sets STEP_LO (R379). -/
def stepHdr (h : Hdr) (num : Nat) : Hdr :=
  if hw h 19 = word num then h
  else (((h.set 0 (setFld (hw h 0) 19 16 0)).set 16 0).set 17 0 |>.set 18 (setFld (hw h 18) 15 0 0)).set 19 (word num)

/-- Add flags to the header at an address, as a write of frame or step `num` (R377, R379). -/
def Side.markHdr (x : Side) (st e a num f : Nat) : Side := x.putHdr st e a (orFlags (stepHdr (x.hdr st e a) num) f)

/-! ## Scoreboard (R371, R372, R325) -/

/-- The bits of a group that are set. -/
def Side.sbGroup (x : Side) (st grp : Nat) : Nat :=
  x.field ((Reg.PSQ_SB.inst st).el 4 (grp / 2)) (16 * (grp % 2) + 15) (16 * (grp % 2))

/-- Eight cycles of an engine have passed since MT t (R372). -/
def Side.sbOld (x : Side) (t : Nat) : Bool := decide (40 ≤ 3 * (x.mt - t))

/-- The bits of a group that the waits of descriptors see (R372). -/
def Side.sbSeen (x : Side) (st grp : Nat) : Nat :=
  ((x.stl st).fresh.filter fun e => e.2.1 == grp && !x.sbOld e.1).foldl (fun m e => m &&& (65535 ^^^ e.2.2)) (x.sbGroup st grp)

/-- Set the bits of a mask of a group, with their taint bits when `taint`. -/
def Side.signal (x : Side) (st grp mask : Nat) (taint : Bool) : Side :=
  let r := (Reg.PSQ_SB.inst st).el 4 (grp / 2)
  let t := (Reg.PSQ_SBT.inst st).el 4 (grp / 2)
  let m := word (mask % 65536) <<< (16 * (grp % 2))
  let new := mask % 65536 &&& (65535 ^^^ x.sbGroup st grp)
  let x := x.modStl st fun s => { s with
    fresh := s.fresh.filter (fun e => !x.sbOld e.1) ++ if new = 0 then [] else [(x.mt, grp, new)] }
  let x := x.wr r (x.rd r ||| m)
  if taint then x.wr t (x.rd t ||| m) else x

/-- The bits of a group that are tainted. -/
def Side.sbTaint (x : Side) (st grp : Nat) : Nat :=
  x.field ((Reg.PSQ_SBT.inst st).el 4 (grp / 2)) (16 * (grp % 2) + 15) (16 * (grp % 2))

/-- Clear the scoreboard of a stall. -/
def Side.clearSb (x : Side) (st : Nat) : Side :=
  (List.range 8).foldl (fun x w => (x.wr ((Reg.PSQ_SB.inst st).el 4 w) 0).wr ((Reg.PSQ_SBT.inst st).el 4 w) 0)
    (x.modStl st fun s => { s with fresh := [] })

end Sys2Proof.Machine
end

