-- ==== Sys2Proof/Machine/PageState.lean ====
section
/-!
DEFINITION. What a stall holds beside its pages: the state words of context pages (R228 to R230, R263 to R265), page
lists (R384, R385), sequence-table entries (R388), the end of a step that does not commit (R262), and what a parity error
met by a read does (R430 to R435).
-/

namespace Sys2Proof.Machine

/-- The stall serves sequences (PSQ_STAT.KIND). -/
def Side.served (x : Side) (st : Nat) : Bool := x.flag (Reg.PSQ_STAT.inst st) 3

/-! ## Page geometry (R222 to R226) -/

/-- A field of BSQ_PAGE_GEOM. -/
def Side.geom (x : Side) (st hi lo : Nat) : Nat := x.field (Reg.BSQ_PAGE_GEOM.inst st) hi lo

/-- Format, heads, head dimension, layers, page stride. -/
def Side.pgFmt (x : Side) (st : Nat) : Nat := x.geom st 1 0
def Side.pgHeads (x : Side) (st : Nat) : Nat := x.geom st 5 2 + 1
def Side.pgDim (x : Side) (st : Nat) : Nat := 32 * (x.geom st 8 6 + 1)
def Side.pgGroup (x : Side) (st : Nat) : Nat := x.geom st 12 9 + 1
def Side.pgLayers (x : Side) (st : Nat) : Nat := x.geom st 20 13 + 1
def Side.pgStride (x : Side) (st : Nat) : Nat := x.rdN (Reg.BSQ_PAGE_STRIDE.inst st)

/-- S_row, V_off and PB_min of a geometry (R224 to R226). -/
def rowBytes (fmt dim : Nat) : Nat := ceilDiv (dim * (if fmt = 2 then 2 else 1)) 128 * 128
def valueOff (fmt dim heads : Nat) : Nat := heads * 16 * rowBytes fmt dim
def pageMin (fmt dim heads : Nat) : Nat := 2 * valueOff fmt dim heads + (if fmt = 0 then 128 * heads else 0)

/-! ## Page numbers and states (R228, R263) -/

/-- Pages of a tier, and its first byte: 0 yard, 1 loft, 2 shed. -/
def Side.tierPages (x : Side) (st tier : Nat) : Nat :=
  match tier with
  | 0 => x.field (Reg.BSQ_YARD_PAGES.inst st) 17 0
  | 1 => x.field (Reg.BSQ_LOFT_PAGES.inst st) 29 0
  | _ => x.field (Reg.BSQ_SHED_PAGES.inst st) 29 0
def Side.tierBase (x : Side) (st tier : Nat) : Nat :=
  match tier with
  | 0 => x.rdN (Reg.BSQ_YARD_PBASE.inst st)
  | 1 => x.rd64 (Reg.BSQ_LOFT_PBASE.inst st)
  | _ => x.rd64 (Reg.BSQ_SHED_PBASE.inst st)

/-- A page number of a tier; its tier and index. -/
def pageNo (tier i : Nat) : Nat := tier * 2 ^ 30 + i
def pageTier (p : Nat) : Nat := p / 2 ^ 30 % 4
def pageIx (p : Nat) : Nat := p % 2 ^ 30

/-- The list entry of no page (R237). -/
def noPage : Nat := 0xC0000000

/-- The stall-relative operand address of a page of the yard or the loft (R229), and its offset in the shed window. -/
def Side.pageAddr (x : Side) (st p : Nat) : Nat :=
  let o := x.tierBase st (pageTier p) + pageIx p * x.pgStride st
  if pageTier p = 0 then yardAddr o else loftAddr o
def Side.shedOff (x : Side) (st p : Nat) : Nat := x.tierBase st 2 + pageIx p * x.pgStride st

/-- The page's region lies within the tier's count and the stall's window (R230). -/
def Side.pageMay (x : Side) (st p : Nat) (write : Bool) : Bool :=
  decide (pageIx p < x.tierPages st (pageTier p)) &&
    (if pageTier p = 2 then decide (x.shedOff st p + x.pgStride st ≤ x.rd64 (Reg.PSQ_SHED_SIZE.inst st))
     else pageTier p != 3 && x.winOk st (x.pageAddr st p) (x.pgStride st) write)

/-- A page may be read; a page may be written, so that no mirror or sealed region lies in it (R406, R420). -/
def Side.pageOk (x : Side) (st p : Nat) : Bool := x.pageMay st p false
def Side.pageTo (x : Side) (st p : Nat) : Bool := x.pageMay st p true

/-- The state word of a page, and its STATE field: 0 FREE, 1 OWNED, 2 SHARED, 3 MOVING, 4 POISON, 5 QUARANTINE. -/
def Side.pword (x : Side) (st p : Nat) : Nat := Tbl.get 0 (x.stl st).pstate p
def Side.pstate (x : Side) (st p : Nat) : Nat := x.pword st p % 8

/-- Write a state word. -/
def Side.putPword (x : Side) (st p w : Nat) : Side := x.modStl st fun s => { s with pstate := s.pstate.put p w }

/-- A state word: STATE, VALID, OWNER, REFS, LAYER. -/
def pwordOf (state valid owner refs layer : Nat) : Nat := state + 8 * valid + 256 * owner + 65536 * refs + 16777216 * layer

/-- Free pages of a tier. -/
def Side.freePages (x : Side) (st tier : Nat) : Nat :=
  x.tierPages st tier - ((x.stl st).pstate.filter fun e => pageTier e.1 == tier && e.2 % 8 != 0 && decide (pageIx e.1 < x.tierPages st tier)).length

/-- The lowest free page of a tier (R264): the first index that no entry of the table keeps from being free. -/
def Side.lowestFree (x : Side) (st tier : Nat) : Option Nat :=
  let used := (x.stl st).pstate.filter fun e => pageTier e.1 == tier && e.2 % 8 != 0
  ((List.range (min (x.tierPages st tier) (used.length + 1))).find? fun i => !used.any fun e => pageIx e.1 == i).map (pageNo tier)

/-- A state word with another STATE that is not SHARED: its REFS read zero (R263). -/
def withPageState (w state : Nat) : Nat := (setFld (setFld (word w) 2 0 state) 23 16 0).toNat

/-- A page that nothing names any more is freed; a poisoned one goes to QUARANTINE (R286, R290). -/
def Side.freePage (x : Side) (st p : Nat) : Side :=
  let w := x.pword st p
  x.putPword st p (if w % 8 = 4 then withPageState w 5 else 0)

/-! ## Sequence-table entries (R388) -/

/-- The operand address of entry i. -/
def Side.seqAddr (x : Side) (st i : Nat) : Nat := loftAddr (x.rd64 (Reg.BSQ_SEQ_TABLE.inst st) + 128 * i)

/-- Word k of entry i, a field of it, and a pair. -/
def Side.sqw (x : Side) (st i k : Nat) : Nat := bytesNat (x.spGet st 0 (x.seqAddr st i + 4 * k) 4)
def Side.sqf (x : Side) (st i k hi lo : Nat) : Nat := bits (x.sqw st i k) hi lo
def Side.sq64 (x : Side) (st i k : Nat) : Nat := x.sqw st i k + 2 ^ 32 * x.sqw st i (k + 1)

/-- Write word k of entry i, or one field of it. -/
def Side.putSqw (x : Side) (st i k v : Nat) : Side := x.spPut st 0 (x.seqAddr st i + 4 * k) (natBytes 4 v)
def Side.putSqf (x : Side) (st i k hi lo v : Nat) : Side := x.putSqw st i k (setFld (word (x.sqw st i k)) hi lo v).toNat
def Side.putSq64 (x : Side) (st i k v : Nat) : Side := (x.putSqw st i k (v % 2 ^ 32)).putSqw st i (k + 1) (v / 2 ^ 32 % 2 ^ 32)

/-- STATE of entry i, N_CTX, CAP. -/
def Side.seqState (x : Side) (st i : Nat) : Nat := x.sqf st i 0 2 0
def Side.nCtx (x : Side) (st i : Nat) : Nat := x.sqf st i 1 17 0
def Side.seqCap (x : Side) (st i : Nat) : Nat := x.sqf st i 10 13 0

/-- BSQ_SEQ_MAX. -/
def Side.seqMax (x : Side) (st : Nat) : Nat := x.field (Reg.BSQ_SEQ_MAX.inst st) 8 0

/-- Entries in one of some states. -/
def Side.seqsIn (x : Side) (st : Nat) (l : List Nat) : List Nat :=
  if x.served st then (List.range (x.seqMax st)).filter fun i => l.contains (x.seqState st i) else []

/-- Pages in use per layer (R236). -/
def pagesOf (n : Nat) : Nat := ceilDiv n 16

/-- The address of the list entry of page p of layer l of sequence i (R384). -/
def Side.entryOf (x : Side) (st i l p : Nat) : Nat :=
  x.sq64 st i 8 % 2 ^ 40 + 128 + (l * x.seqCap st i + p) * 4

/-- A list entry, and a write of it. -/
def Side.getEntry (x : Side) (st a : Nat) : Nat := bytesNat (x.spGet st 0 a 4)
def Side.putEntry (x : Side) (st a p : Nat) : Side := x.spPut st 0 a (natBytes 4 p)

/-- The list entries in use of sequence i: (layer, page, address), layer-major. -/
def Side.entriesOf (x : Side) (st i : Nat) : List (Nat × Nat × Nat) :=
  (List.range (x.pgLayers st)).flatMap fun l => (List.range (pagesOf (x.nCtx st i))).map fun p => (l, p, x.entryOf st i l p)

/-- Sequence i names page p in its list. -/
def Side.holdsPage (x : Side) (st i p : Nat) : Bool := (x.entriesOf st i).any fun e => x.getEntry st e.2.2 == p

/-- The sequences whose lists name a page, ascending. -/
def Side.sharers (x : Side) (st p : Nat) : List Nat := (x.seqsIn st [2, 3, 4, 5]).filter fun i => x.holdsPage st i p

/-- The state word of a SHARED page as its sharers make it: OWNER the lowest of them, REFS their number (R263, R265). REFS
holds at most 255. DESIGN CHOICE, note 128. -/
def sharedWord (w : Nat) (l : List Nat) : Nat := (setFld (setFld (word w) 15 8 (l.headD 0)) 23 16 (min 255 l.length)).toNat
def Side.reshare (x : Side) (st p : Nat) : Side :=
  if x.pstate st p = 2 then x.putPword st p (sharedWord (x.pword st p) (x.sharers st p)) else x

/-- Sequence i holds a page in a state. -/
def Side.seqHas (x : Side) (st i state : Nat) : Bool := (x.entriesOf st i).any fun e => x.pstate st (x.getEntry st e.2.2) == state

/-- Pages of a step that does not commit are freed (R262); no list entry names them yet (R385). -/
def Side.trimAlloc (x : Side) (st : Nat) (l : List (Nat × Nat × Nat)) : Side :=
  l.foldl (fun y a => (y.freePage st a.2.2).count Ct.BSQ_PAGES_TRIMMED st) x

/-- The page that the step in progress has allocated for a list entry of a sequence. -/
def Side.freshFor (x : Side) (st i a : Nat) : Bool :=
  (x.stl st).step.any fun t => t.alloc.any fun (n : Nat × Nat × Nat) => n.1 == i && n.2.1 == a

/-- The page that stands for a list entry in the step in progress: the one it allocated, else the one that the list names;
the list is written at the commit (R246, R286, R385). -/
def Side.pageOfEntry (x : Side) (st a : Nat) : Nat :=
  (((x.stl st).step.bind fun t => t.alloc.find? fun (n : Nat × Nat × Nat) => n.2.1 == a).map fun n => n.2.2).getD (x.getEntry st a)

/-- A page becomes POISON, with what is done beside it: the sequences of the running step that hold it, or for which the step
allocated it, do not commit (R285). A served stall's page that no sequence uses stays as it is. -/
def Side.spoilPage (x : Side) (st p : Nat) (f : Side → Side) : Side :=
  let w := x.pword st p
  if w % 8 = 4 || (x.served st && (w % 8 == 0 || w % 8 == 5)) then x else
  let x := (x.putPword st p (withPageState w 4)).count Ct.BSQ_POISONED_PAGES st
  if !x.served st then x else
  (f x).modStl st fun s => { s with step := s.step.map fun t => { t with
    out := (t.seqs.filter fun q => x.holdsPage st q.seq p || t.alloc.any fun a => a.1 == q.seq && a.2.2 == p).foldl
      (fun o q => o.add q.seq) t.out } }

/-- A parity error on a page makes it POISON (R284); of a fixed stall's the results of the cadence frame are PARITY_POISON
(R292). -/
def Side.poisonPage (x : Side) (st p : Nat) : Side :=
  let x := x.spoilPage st p fun y => y.raise Ev.BSQ_POISON st
  if x.served st then x else x.modStl st fun s => { s with parFrame := some (x.rdN Reg.CAD_FRAME) }

/-- A page fails its CRC on its return from the shed (R279): its unit raises the event. -/
def Side.crcPage (x : Side) (st p : Nat) : Side := x.spoilPage st p fun y => y

/-! ## Parity (R430 to R435) -/

/-- The stall that holds a bank. -/
def Side.bankOwner (x : Side) (b : Nat) : Option Nat :=
  (List.range 8).find? fun s => x.psq s != 0 && x.flag (Reg.PSQ_YARD_BANKS.inst s) b

/-- The mirror entry that covers a yard line of the die (R404), with the source block of that line. -/
def Side.mirrorOf (x : Side) (line : Nat) : Option (Nat × Nat) :=
  (List.range 32).findSome? fun k =>
    let w := x.rd ((Reg.YARD_MIR_LINE : Reg).el 0x10 k)
    let first := fld w 21 17 * 131072 + fld w 16 0
    if bit w 31 && decide (first ≤ line) && decide (line < first + x.field ((Reg.YARD_MIR_LEN : Reg).el 0x10 k) 17 0) then
      some (k, x.field ((Reg.YARD_MIR_SRC : Reg).el 0x10 k) 29 0 + (line - first))
    else none

/-- The offset in a stall's yard window of a yard byte of the die. -/
def Side.yardOff (x : Side) (st b : Nat) : Option Nat :=
  ((x.banks st).findIdx? (· == b / bankBytes)).map fun i => i * bankBytes + b % bankBytes

/-- The page of a stall that holds a yard offset. -/
def Side.pageAt (x : Side) (st o : Nat) : Option Nat :=
  let base := x.tierBase st 0
  if x.pgStride st = 0 then none
  else if base ≤ o ∧ o < base + x.tierPages st 0 * x.pgStride st then some (pageNo 0 ((o - base) / x.pgStride st)) else none

/-- The line has shown an error before, and has been rewritten since, within one YARD_SCRUB_CFG period (R437, R441). -/
def Side.lineHard (x : Side) (line : Nat) : Bool :=
  lately x.me.mem.yardFixed line x.mt (x.field Reg.YARD_SCRUB_CFG 3 0 * 1000000000)

/-- The bytes with wrong parity of a line: of the yard, then of the tile buffers. -/
def Side.badOf (x : Side) (line : Nat) : NatSet :=
  if line < 2 ^ 22 then x.me.mem.yard.bad.filter fun b => b / 64 == line
  else
    let e := (line - 2 ^ 22) / 2 ^ 17
    if e < 8 then ((x.me.tiles.sram e).bad.map (tileFrom e + ·)).filter fun b => b / 64 == line else []

/-- A parity error is found: its place and kind (0 unallocated, 1 mirror, 2 page, 3 fixed, 4 served, 5 tile buffer or
accumulator). One that has been counted is not counted again (R440). DEDUCED, note 81. -/
def Side.yardFound (x : Side) (kind st line byte : Nat) (scrub : Bool) : Side :=
  let hard := x.lineHard line
  let x := x.wr Reg.YARD_ERR_LOC (pack [(0, line % 131072), (17, if kind = 5 then 0 else line / 131072 % 32), (22, byte)])
  let x := x.wr Reg.YARD_ERR_INFO (pack [(0, kind), (3, st), (6, nat1 scrub), (7, nat1 hard)])
  let bad := x.badOf line
  if !bad.isEmpty && bad.all (x.me.mem.yardSeen.contains ·) then x.raise Ev.YARD_PARITY
  else
    let x := (x.modMem fun m => { m with yardSeen := bad.foldl NatSet.add m.yardSeen }).count Ct.YARD_PARITY_ERRORS
    (if hard then (x.count Ct.YARD_HARD_ERRORS).raise Ev.YARD_HARD else x).raise Ev.YARD_PARITY

/-- A byte of a tile buffer with wrong parity is found (R430). -/
def Side.tileFound (x : Side) (st e b : Nat) : Side :=
  ((x.yardFound 5 st ((tileFrom e + b) / 64) (b % 64) false).count Ct.YARD_DATA_POISONS).raise Ev.TE_TB_PARITY e

/-- A mirror line is re-fetched from its source block (R432), with whether that succeeded; one whose source cannot be
corrected is sealed content that is lost (R435), and keeps its error (R431). -/
def Side.refetchLine (x : Side) (line src : Nat) : Side × Bool :=
  let r := x.loftMeet (64 * src) 64
  if r.2 then (r.1, false)
  else ((r.1.physPut 1 0 (64 * line) (r.1.loftGet (64 * src) 64)).count Ct.YARD_REFETCHES, true)

/-- A read of one bad yard line of the die by a stall: re-fetched, or poison; the flag says that the data is lost. -/
def Side.meetLine (x : Side) (st line byte : Nat) : Side × Bool :=
  match x.mirrorOf line with
  | some (_, src) =>
    let r := (x.yardFound 1 st line byte false).refetchLine line src
    (r.1, !r.2)
  | none =>
    match (x.yardOff st (64 * line)).bind (x.pageAt st) with
    | some p => ((x.yardFound 2 st line byte false).poisonPage st p, true)
    | none => ((x.yardFound (if x.served st then 4 else 3) st line byte false).count Ct.YARD_DATA_POISONS, true)

/-- The distinct lines of some bytes, each with its first byte. -/
def badLines (l : List Nat) : List (Nat × Nat) :=
  l.foldl (fun o b => if o.any fun e => e.1 == b / 64 then o else o ++ [(b / 64, b % 64)]) []

/-- What a read of n bytes at an operand address meets (R430, R434): the flag says that it is poisoned. -/
def Side.meet (x : Side) (st e a n : Nat) : Side × Bool :=
  match spaceOf a with
  | 0 =>
    if (x.me.tiles.sram e).parityBad (offOf a) n then
      let b := ((x.me.tiles.sram e).bad.find? fun b => offOf a ≤ b && decide (b < offOf a + n)).getD 0
      (x.tileFound st e b, true)
    else (x, false)
  | 1 =>
    let y := x.me.mem.yard
    (badLines (y.bad.filter fun b => y.valid.contains (b / 64) && (x.yardOff st b).any fun o => offOf a ≤ o && decide (o < offOf a + n))).foldl
      (fun r l => let z := r.1.meetLine st l.1 l.2; (z.1, r.2 || z.2)) (x, false)
  | _ => x.loftMeet (x.loftPhys st a) n

/-- What a read through bridle b meets. -/
def Side.meetBy (x : Side) (b st e a n : Nat) : Side × Bool := (x.fare b st a n none).meet st e a n

end Sys2Proof.Machine
end

