-- ==== Sys2Proof/Machine/Engine.lean ====
section
/-!
DEFINITION. Tensor engines: descriptors and their fields (R359 to R370), the run on an engine (R113), stops, fences and
discarded steps (R115, R151, R324 to R326, R334 to R336).
-/

namespace Sys2Proof.Machine

/-- What the model holds of engine e beside its page, and a change of it. -/
def Side.eng (x : Side) (e : Nat) : EngSt := Tbl.get EngSt.zero x.me.engines e
def Side.modEng (x : Side) (e : Nat) (f : EngSt → EngSt) : Side :=
  { x with me := { x.me with engines := x.me.engines.put e (f (x.eng e)) } }

/-- TE_STAT.STATE: 0 IDLE, 1 RUNNING, 2 STOPPING, 3 SELFTEST, 4 FENCED (R114). -/
def Side.teState (x : Side) (e : Nat) : Nat := x.field (Reg.TE_STAT.inst e) 2 0
def Side.setTe (x : Side) (e s : Nat) : Side := x.setField (Reg.TE_STAT.inst e) 2 0 s

/-- The engines of a stall. -/
def Side.engines (x : Side) (st : Nat) : List Nat := (List.range 8).filter fun e => x.flag (Reg.PSQ_ENGINES.inst st) e

/-- The engines that run a stall's step programs: those that are not fenced (R154, R346), and the lowest of them, which
acts for the step where one must. DEDUCED, note 74. -/
def Side.stepEngines (x : Side) (st : Nat) : List Nat := (x.engines st).filter fun e => x.teState e != 4
def Side.stepEngine (x : Side) (st : Nat) : Option Nat := (x.stepEngines st).head?

/-- The loft address of a stall's sealed plan image. -/
def Side.planBase (x : Side) (st : Nat) : Nat := x.rd64 (Reg.PSQ_PLAN_BASE.inst st)

/-! ## Descriptors -/

/-- The 64 bytes of a descriptor. -/
abbrev Desc := List Byte

/-- n bytes from byte k on, as a number; and bits of a byte. -/
def Desc.n (d : Desc) (k n : Nat) : Nat := bytesNat ((d.drop k).take n)
def Desc.f (d : Desc) (k hi lo : Nat) : Nat := bits (d.getD k 0).toNat hi lo

def Desc.op (d : Desc) : Nat := d.n 0 1
def Desc.fa (d : Desc) : Nat := d.f 1 3 0
def Desc.fb (d : Desc) : Nat := d.f 1 7 4
def Desc.fo (d : Desc) : Nat := d.f 2 3 0
def Desc.depthwise (d : Desc) : Bool := d.f 2 4 4 == 1
def Desc.includePad (d : Desc) : Bool := d.f 2 5 5 == 1
def Desc.last (d : Desc) : Bool := d.f 2 6 6 == 1
def Desc.template (d : Desc) : Bool := d.f 2 7 7 == 1
def Desc.mu (d : Desc) : Nat := 16 * (d.f 3 5 0 + 1)
def Desc.wcet (d : Desc) : Nat := d.n 4 4
def Desc.waitMask (d : Desc) : Nat := d.n 8 2
def Desc.sigMask (d : Desc) : Nat := d.n 10 2
def Desc.waitGrp (d : Desc) : Nat := d.f 12 3 0
def Desc.sigGrp (d : Desc) : Nat := d.f 12 7 4
def Desc.aA (d : Desc) : Nat := d.n 13 5
def Desc.aB (d : Desc) : Nat := d.n 18 5
def Desc.aO (d : Desc) : Nat := d.n 23 5
def Desc.chk (d : Desc) : Nat := 128 * d.n 28 2
def Desc.rq (d : Desc) : Nat := 128 * d.n 30 2
def Desc.vop (d : Desc) : Nat := d.n 32 1
def Desc.tag (d : Desc) : Word := word (d.n 56 4)

/-- The opcode takes an A, always takes a B, has an OUT (R360). -/
def Desc.takesA (d : Desc) : Bool := decide (1 ≤ d.op) && decide (d.op ≤ 10)
def Desc.takesB (d : Desc) : Bool := d.op == 1 || d.op == 2 || (d.op == 8 && (d.vop == 0x18 || d.vop == 0x1E))
def Desc.mayB (d : Desc) : Bool := d.takesB || (d.op == 8 && decide (d.vop ≤ 6)) || d.op == 10
def Desc.hasB (d : Desc) : Bool := d.takesB || (d.mayB && d.aB != 0)
def Desc.hasOut (d : Desc) : Bool := decide (1 ≤ d.op) && decide (d.op ≤ 9)

/-- The run's head descriptor: its offset in the plan image, and its bytes. -/
def Run.at_ (r : Run) : Nat := r.off + 64 * r.idx
def Side.descAt (x : Side) (st off : Nat) : Desc := x.loftGet (x.planBase st + off) 64
def Side.desc (x : Side) (r : Run) : Desc := x.descAt r.stall r.at_

/-! ## Marks and signals -/

/-- A header that the engine can read (R298: a header outside its window reads zero). -/
def Side.hdrIn (x : Side) (st e a : Nat) : Hdr := if x.winOk st a 128 false then x.hdr st e a else List.replicate 32 0

/-- The stall may write the OUT header of a descriptor: its line; of a MOVE the whole extent that it writes (R920). -/
def Side.outOk (x : Side) (e : Nat) (r : Run) (d : Desc) : Bool :=
  x.winOk r.stall d.aO (if d.op = 9 then 128 + hBytes (x.hdrIn r.stall e d.aA) else 128) true

/-- Flags into the OUT header of a descriptor, where it may be written. -/
def Side.markOut (x : Side) (e : Nat) (r : Run) (d : Desc) (flags : Nat) : Side :=
  if d.hasOut && flags != 0 && x.outOk e r d then x.markHdr r.stall e d.aO r.num flags else x

/-- Set a descriptor's signal bits. -/
def Side.signalDesc (x : Side) (r : Run) (d : Desc) (taint : Bool) : Side := x.signal r.stall d.sigGrp d.sigMask taint

/-- A descriptor that does not commit (R151, R325): its outputs take the flags, its bits are set with taint. -/
def Side.abandon (x : Side) (e : Nat) (r : Run) (d : Desc) (flags : Nat) : Side := (x.markOut e r d flags).signalDesc r d true

/-- The run of an engine after its head descriptor is done with. -/
def Run.next (r : Run) : Option Run :=
  if r.idx + 1 < r.count then
    some { r with
      idx := r.idx + 1, started := false, issueMt := 0, round := 0, chk := false, par := false, win := false, late := false,
      overrun := false, pages := 0, lines := 0, badPages := [], heads := [], copy := 0, entA := 0, entB := 0, refused := none, unfit := false }
  else none

/-- A run from its first descriptor. -/
def Run.first (st off count bend num : Nat) (served : Bool) : Run :=
  { stall := st, off := off, count := count, idx := 0, bend := bend, num := num, served := served, started := false,
    issueMt := 0, round := 0, chk := false, par := false, win := false, late := false, overrun := false, pages := 0,
    lines := 0, badPages := [], heads := [], copy := 0, entA := 0, entB := 0, refused := none, unfit := false }

/-- The engine runs what waits for it, once it is IDLE (R319). -/
def Side.promote (x : Side) (e : Nat) : Side :=
  if x.teState e = 0 && (x.eng e).run.isNone then x.modEng e fun s => { s with run := s.next, next := none } else x

/-- The engine leaves its head descriptor: RUNNING ends unless `state` says otherwise. -/
def Side.leaveDesc (x : Side) (e state : Nat) : Side :=
  let x := if x.teState e = 1 then x.setTe e state else x
  x.modEng e fun s => { s with run := s.run.bind Run.next }

/-- The engine drops its run: a started descriptor drains (R115). DEDUCED, note 66. -/
def Side.dropRun (x : Side) (e : Nat) : Side :=
  let busy := x.teState e = 1
  let x := if busy then x.setTe e 2 else x
  (x.modEng e fun s => { s with run := none }).promote e

/-- A list ends before its last commit (R325): what is left of it is given up as LATE, and the list is counted. -/
def Side.lateList (x : Side) (e : Nat) (r : Run) : Side :=
  let x := (List.range (r.count - r.idx)).foldl (fun y k =>
    let q := { r with idx := r.idx + k }
    y.abandon e q (y.desc q) fLate) x
  ((x.count Ct.PSQ_LISTS_LATE r.stall).raise Ev.PSQ_LATE r.stall).count Ct.TE_LATE_STOPS e

/-- The list of an engine is stopped at its budget end (R324, R325). DEDUCED, note 66. -/
def Side.stopList (x : Side) (e : Nat) : Side :=
  match (x.eng e).run with
  | none => x
  | some r => (x.lateList e r).dropRun e

/-- The budgets of an engine's lists end with their frame (R324): a list that still waits for its engine ends with it. -/
def Side.endLists (x : Side) (e : Nat) : Side :=
  let x := match (x.eng e).next with
    | some r => if r.served then x else (x.lateList e r).modEng e fun s => { s with next := none }
    | none => x
  if ((x.eng e).run).any fun r => !r.served then x.stopList e else x

/-! ## Served steps that do not commit -/

/-- A window or decode fault of a stall (R299): the results of the frame of a fixed stall, the step of a served one.
DEDUCED, note 51. -/
def Side.stallFaulted (x : Side) (st : Nat) : Side :=
  if x.served st then x.modStl st fun s => { s with step := s.step.map fun t => { t with win := true } }
  else x.modStl st fun s => { s with winFrame := some (x.rdN Reg.CAD_FRAME) }


/-- A served stall's step is given up (R262, R334 to R336): its engines stop, its pages are freed, its scoreboard is
cleared. -/
def Side.dropStep (x : Side) (st : Nat) : Side :=
  match (x.stl st).step with
  | none => x
  | some t =>
    let x := (x.engines st).foldl (fun y e => if (y.eng e).run.any fun r => r.served && r.stall == st then y.dropRun e else y) x
    let x := (x.trimAlloc st t.alloc).modStl st fun s => { s with step := none }
    x.clearSb st

/-- The same, counted and raised as a discarded step (R334, R335, R352). -/
def Side.discardStep (x : Side) (st : Nat) : Side :=
  if (x.stl st).step.isNone then x
  else ((x.dropStep st).count Ct.BSQ_STEPS_DISCARDED st).raise Ev.BSQ_STEP_DISCARD st

/-- BLK_CTRL.QUIESCE of a stall's BSQ page. -/
def Side.bsqQuiesce (x : Side) (st : Nat) : Bool := x.flag (headReg T.BSQ st Reg.BLK_CTRL) 1

/-- The state in which the batch sequencer of a running stall stands: 4 HALTED in safe state (R336), 3 QUIESCED (R335), 2
HOLD while FP-PLAN restarts (R345), else 1 SERVING. -/
def Side.serveState (x : Side) (st : Nat) : Nat :=
  if x.field Reg.SAFE_STAT 2 0 = 2 || x.field Reg.SAFE_STAT 2 0 = 3 then 4
  else if x.bsqQuiesce st then 3
  else if x.field (Reg.GLV_STAT.inst 1) 1 0 = 0 then 1 else 2

/-- A served stall that is being quiesced (R335): once no descriptor of its executes, its step is discarded and it is
QUIESCED. -/
def Side.bsqSettle (x : Side) (st : Nat) : Side :=
  if x.bsqQuiesce st && x.served st && x.psq st != 0 && x.field (Reg.BSQ_STAT.inst st) 2 0 != 4
      && !(x.engines st).any (fun e => x.teState e == 1) then
    (x.discardStep st).setField (Reg.BSQ_STAT.inst st) 2 0 3
  else x

/-- The program of a step has ended on an engine. -/
def Side.stepDone (x : Side) (st e : Nat) : Side :=
  x.modStl st fun s => { s with step := s.step.map fun t => { t with done := t.done.add e } }

/-- A descriptor is over: the engine goes on to the next; after the last of a step's program the engine is done with the
step, and a stall that is being quiesced may settle (R335). -/
def Side.endDesc (x : Side) (e : Nat) (r : Run) : Side :=
  let x := if r.served && r.next.isNone then x.stepDone r.stall e else x
  let x := (x.leaveDesc e 0).promote e
  if r.served then x.bsqSettle r.stall else x

/-- The step of a served stall on an engine that is fenced: after a mismatch it has run, and fails or runs once more (R155);
else it is formed again on the engines that are left (R154), a discard that neither R334 nor R335 makes (R354). -/
def Side.fenceStep (x : Side) (e st : Nat) : Side :=
  if ((x.stl st).step.any fun t => t.chk) then (x.modEng e fun s => { s with run := none }).stepDone st e
  else x.dropStep st

/-- The descriptor in execution on an engine that is fenced (R151): its outputs are poisoned and its bits tainted.
DEDUCED, note 33. -/
def Side.fenceStop (x : Side) (e : Nat) : Side :=
  let run := (x.eng e).run
  let x := match run with
    | some r =>
      if r.started then
        let x := x.abandon e r (x.desc r) fChk
        if r.served then x.fenceStep e r.stall else x.leaveDesc e 4
      else if r.served then x.dropStep r.stall else x
    | none => x
  match run with
  | some r => if r.served then (x.setTe e 4).bsqSettle r.stall else x.setTe e 4
  | none => x.setTe e 4

end Sys2Proof.Machine
end

