-- ==== Sys2Proof/Machine/Net.lean ====
section
/-!
DEFINITION. The switch and gateway's shared operations: the network image and its check (R579, R580), ports and queues,
published results (R590 to R594), the receive queue (R669 to R672), ACF (R598, R599), routing (R600 to R603).
-/

namespace Sys2Proof.Machine

/-- Change what the switch holds. -/
def Side.modNet (x : Side) (f : NetSt → NetSt) : Side := { x with me := { x.me with net := f x.me.net } }

/-- A port. -/
def Side.port (x : Side) (p : Nat) : PortSt := Tbl.get PortSt.zero x.me.net.ports p

/-- Change a port. -/
def Side.modPort (x : Side) (p : Nat) (f : PortSt → PortSt) : Side :=
  x.modNet fun n => { n with ports := n.ports.put p (f (x.port p)) }

/-! ## The network image (R579, R580) -/

/-- Bytes of the image. -/
def imgBytes : Nat := 189568

/-- Parts of the image. -/
def imgCtx (h : Nat) : Nat := 128 + 16 * h
def imgStream (h : Nat) : Nat := 4224 + 32 * h
/-- Meter m. PRESUMED, note 103. -/
def imgMeter (m : Nat) : Nat := 12416 + 16 * m
def imgSGate (g i : Nat) : Nat := 14464 + 256 * g + 8 * i
def imgGate (p i : Nat) : Nat := 30848 + (128 * p + i) * 8
def imgTalker (t : Nat) : Nat := 39040 + 32 * t
def imgListener (t : Nat) : Nat := 41088 + 16 * t
/-- Static FDB entry k. PRESUMED, note 103. -/
def imgFdb (k : Nat) : Nat := 42112 + 16 * k
def imgRoute (k : Nat) : Nat := 58496 + 32 * k

/-- Word k of an entry at an offset of an image. -/
def imgWord (m : Mem) (off k : Nat) : Word := word (bytesNat (m.read (off + 4 * k) 4))

/-- The 48-bit address in words k and k + 1 of an entry. -/
def imgMac (m : Mem) (off k : Nat) : Nat := bytesNat (m.read (off + 4 * k) 6)

/-- Some word of an entry has a bit outside its fields. -/
def reservedSet (m : Mem) (off : Nat) (masks : List Nat) : Bool :=
  (List.range masks.length).any fun k => (imgWord m off k).toNat &&& (0xFFFFFFFF ^^^ masks.getD k 0) != 0

/-- Some entry of a part has a reserved bit set. -/
def partReserved (m : Mem) (base size n : Nat) (masks : List Nat) : Bool :=
  (List.range n).any fun k => reservedSet m (base + size * k) masks

/-- A reserved bit of the image is not zero (R580 RESERVED). -/
def imgReserved (m : Mem) : Bool :=
  reservedSet m 0 ([0xFF, 0xFFFFFFFF, 0xFFFFFFFF, 0xFFFFFFFF] ++ List.replicate 28 0)
    || partReserved m (imgCtx 0) 16 256 [0x3FFFFFF, 0xFFFFFFFF, 0xFFFF, 0xFFFF]
    || partReserved m (imgStream 0) 32 256 [0xFF3FFF, 0xFFFFFFFF, 0xFFFF, 0x3FFF, 0xFFFFFFFF, 0x3FF, 0, 0]
    || partReserved m (imgMeter 0) 16 128 [0xFFFFFFFF, 0xFFFFFFFF, 0xFFFFFFFF, 3]
    || partReserved m (imgSGate 0 0) 8 2048 [0xF, 0xFFFFFFFF]
    || partReserved m (imgGate 0 0) 8 1024 [0x1FFFF, 0xFFFFFFFF]
    || partReserved m (imgTalker 0) 32 64 [0xFFFFFFFF, 0xFFFFFFFF, 0xFFFF, 0xFFFFFFFF, 0xFFFFFFFF, 0xFFFFFFFF, 0, 0]
    || partReserved m (imgListener 0) 16 64 [1, 0xFFFFFFFF, 0xFFFFFFFF, 0]
    || partReserved m (imgFdb 0) 16 1024 [0xFFFFFFFF, 0x0FFFFFFF, 0x1FF, 1]
    || partReserved m (imgRoute 0) 32 4096 [0x3FFFFF, 0x1FFFFFFF, 0x1FFFFFFF, 0x3FFFFFFF, 0x1FFFFF, 0x1FFFFF, 0x1FFFFF, 0x1FFFFF]

/-- A VLAN ID outside 1–4,094 (R578). -/
def vidBad (v : Nat) : Bool := v == 0 || v == 4095

/-- Field [hi:lo] of word k of an entry. -/
def imgField (m : Mem) (off k hi lo : Nat) : Nat := fld (imgWord m off k) hi lo

/-- A stream identification entry out of range (R584, R585). -/
def streamBad (m : Mem) (h : Nat) : Bool :=
  let f := imgField m (imgStream h)
  f 0 0 0 == 1 && (vidBad (f 0 13 2) || (f 3 1 0 == 1 && decide (64 ≤ h)) || (f 3 8 8 == 1 && f 3 13 9 == 0)
    || (decide (128 ≤ f 4 23 16) && f 4 23 16 != 0xFF) || (decide (64 ≤ f 4 31 24) && f 4 31 24 != 0xFF)
    || (f 3 8 8 == 1 && (f 5 9 0 == 0 || decide (1000 < f 5 9 0))))

/-- Port p's gate control list out of range (R587). -/
def gateBad (m : Mem) (p : Nat) : Bool :=
  let len := imgField m (imgGate p 0) 0 16 9
  len == 0 || decide (128 < len)
    || (List.range len).any fun i => (imgWord m (imgGate p i) 1).toNat == 0 || decide (200000000 < (imgWord m (imgGate p i) 1).toNat)

/-- A routing entry out of range (R600). -/
def routeBad (m : Mem) (k : Nat) : Bool :=
  let f := imgField m (imgRoute k)
  f 0 0 0 == 1 && (decide (2 ≤ f 0 2 1) || (List.range 4).any fun a => decide (4 ≤ f (4 + a) 2 0) || f (4 + a) 20 19 == 3)

/-- A field of the image lies outside its range (R580 RANGE), or more than 64 streams ask for a recovery function (R578).
PRESUMED, note 103. -/
def imgRange (m : Mem) : Bool :=
  ((List.range 256).any fun h => imgField m (imgCtx h) 0 0 0 == 1 && vidBad (imgField m (imgCtx h) 0 14 3))
    || (List.range 256).any (streamBad m)
    || decide (64 < ((List.range 256).filter fun h => imgField m (imgStream h) 0 0 0 == 1 && imgField m (imgStream h) 3 8 8 == 1).length)
    || ((List.range 2048).any fun k => decide (200000000 < (imgWord m (imgSGate 0 k) 1).toNat))
    || (List.range 8).any (gateBad m)
    || ((List.range 64).any fun t =>
        let f := imgField m (imgTalker t)
        f 0 0 0 == 1 && (vidBad (f 0 22 11) || f 0 31 26 == 0 || decide (20000 < f 5 31 0)))
    || ((List.range 1024).any fun k => imgField m (imgFdb k) 3 0 0 == 1 && vidBad (imgField m (imgFdb k) 1 27 16))
    || (List.range 4096).any (routeBad m)

/-- The image lies in the sealed regions or in NET_IMG_RGN (R580 WINDOW). -/
def Side.imgInWindow (x : Side) (a : Nat) : Bool :=
  let inside := fun r : Word => decide (fld r 15 0 * 0x200000 ≤ a) && decide (a + imgBytes ≤ (fld r 15 0 + fld r 31 16) * 0x200000)
  inside (x.rd (Reg.NET_IMG_RGN.inst 9)) || (List.range 8).any fun k => inside (x.rd ((Reg.LOFT_SEAL : Reg).el 4 k))

/-- The image bytes at a loft address. -/
def Side.imgAt (x : Side) (a : Nat) : Mem := Mem.write [] 0 (x.loftGet a imgBytes)

/-- NET_IMG_RESULT of a load from a loft address: the first failing check (R580). A poisoned block fails the check code. -/
def Side.imgResult (x : Side) (a : Nat) : Nat :=
  let m := x.imgAt a
  if imgField m 0 0 7 0 != 1 || (imgWord m 0 2).toNat != imgBytes then 1
  else if x.loftBad a imgBytes || imgWord m 0 3 != crc32c (m.read 128 (imgBytes - 128)) then 2
  else if imgReserved m then 3
  else if imgRange m then 4
  else if !x.imgInWindow a then 5
  else 0

/-- NET_STAT bits. -/
def Side.netLoaded (x : Side) : Bool := x.flag (Reg.NET_STAT.inst 9) 2

/-- An accepted image takes effect (R580, R581): the bank in force changes. -/
def Side.applyImage (x : Side) (m : Mem) (a : Nat) : Side :=
  let x := x.modNet fun n => { n with img := m, addr := a, next := none, invalid := [] }
  let s := Reg.NET_STAT.inst 9
  let x := x.wr s (pack [(0, 1 - x.field s 0 0), (1, nat1 x.me.net.load.isSome), (2, 1)])
  x.wr (Reg.NET_IMG_VERSION.inst 9) (imgWord m 0 1)

/-- What a frame boundary does to the switch (R580). -/
def Side.netFrameStart (x : Side) : Side :=
  match x.me.net.next with
  | some (m, a) => x.applyImage m a
  | none => x

/-- A lookup finds an entry with wrong parity (R582): it counts as invalid, and the bank in force is reloaded. -/
def Side.imgParity (x : Side) (par : Option Nat) : Side :=
  match par with
  | none => x
  | some o =>
    let x := x.modNet fun n => { n with
      invalid := n.invalid.add o, load := if n.load.isSome then n.load else some (n.addr, true) }
    ((x.setFlag (Reg.NET_STAT.inst 9) 1 true).count Ct.NET_IMG_PARITY 9).raise Ev.NET_IMG_PARITY 9

/-- An entry of the image in force is usable: its lookup found no wrong parity. -/
def NetSt.ok (n : NetSt) (off : Nat) : Bool := !n.invalid.contains off

/-! ## Ports -/

/-- Bytes of an ACF CAN message: 8 of header, 8 of stamp in the long form, the data padded to four bytes (IEEE 1722). -/
def acfMsgSize (m : AcfMsg) : Nat := (if m.stamp.isSome then 16 else 8) + (m.frame.data.length + 3) / 4 * 4

/-- Bytes of an ACF frame's payload: a header of 12 bytes, 24 for TSCF (IEEE 1722), and its messages. -/
def acfPduSize (a : AcfPdu) : Nat := (if a.tscf then 24 else 12) + (a.msgs.map acfMsgSize).sum

/-- Bytes of a frame on the wire, FCS included. -/
def wireBytes (f : EthFrame) : Nat :=
  max 64 (18 + (if f.tag.isSome then 4 else 0) + (if f.rtag.isSome then 6 else 0)
    + (match f.acf with | some a => acfPduSize a | none => f.body.length))

/-- MODE and MAX_FRAME of a port: port 8 has no MODE, and one that the port does not take is off (R576). DEDUCED, note 109. -/
def Side.portMode (x : Side) (p : Nat) : Nat :=
  let m := x.field (Reg.NET_PORT_CFG.inst p) 1 0
  if p = 8 then 4 else if p < 2 then (if m = 3 then 3 else 0) else if m = 3 then 0 else m
def Side.maxFrame (x : Side) (p : Nat) : Nat := clampN 64 9216 (x.field (Reg.NET_PORT_CFG.inst p) 29 16)

/-- Tenths of a nanosecond that a frame of n bytes takes on a port (R576), its preamble of 8 bytes included. -/
def Side.wireTime (x : Side) (p n : Nat) : Nat :=
  let b := (n + 8) * 10
  match x.portMode p with
  | 1 => b * 8
  | 2 => b * 16 / 5
  | 3 => b * 4 / 5
  | _ => b / 153

/-- The traffic class of a frame: the stream gate's IPV when it gives one, else the PCP. PRESUMED, note 102. -/
def clsOf (ipv : Option Nat) (f : EthFrame) : Nat := ipv.getD ((f.tag.map (·.2)).getD 0)

/-- Queue a frame on a port. -/
def Side.enqueue (x : Side) (p : Nat) (i : NetFrame) : Side := x.modPort p fun s => { s with queue := s.queue ++ [i] }

/-- A port takes part in traffic: its page answers, and an external port has a MODE and a link. DEDUCED, note 109. -/
def Side.portUp (x : Side) (p : Nat) : Bool :=
  x.pageOn (Reg.NET_PORT_CFG.inst p) && (p == 8 || (x.portMode p != 0 && x.flag (Reg.NET_PORT_STAT.inst p) 0))

/-- The ports of a mask. -/
def maskPorts (m : Nat) : List Nat := (List.range 9).filter fun p => m.testBit p

/-! ## Gates (R587, R588, R102) -/

/-- The entry a gate list stands at. -/
def Side.gateEntry (x : Side) (p : Nat) : Option Word :=
  x.me.net.gates.bind fun m => (x.me.net.pos.find? fun e => e.1 == p).map fun e => imgWord m (imgGate p e.2.1) 0

/-- Show a port's gate states and HOLD in NET_PORT_STAT. -/
def Side.showGates (x : Side) (p : Nat) : Side :=
  match x.gateEntry p with
  | some w =>
    (x.setField (Reg.NET_PORT_STAT.inst p) 9 2 (fld w 7 0)).setField (Reg.NET_PORT_STAT.inst p) 10 10 (fld w 8 8)
  | none => x

/-- Nanoseconds of MT from now to the next gate launch: the next slot in which GATE_CFG fires, none while it is off.
DEDUCED, note 104. -/
def Side.toGateLaunch (x : Side) : Option Nat :=
  if !x.flag Reg.GATE_CFG 0 then none else
  let c := x.me.cad
  let s := x.field Reg.GATE_CFG 10 1
  let m := max 1 (x.field Reg.GATE_CFG 21 11)
  let now := x.mt - c.fMt
  let slots := (List.range c.slots).filter fun k => s ≤ k && (k - s) % m == 0 && decide (now < k * c.len / max 1 c.slots)
  match slots with
  | k :: _ => some (k * c.len / max 1 c.slots - now)
  | [] => some (c.len + s * c.period / max 1 c.slots - now)

/-- Nanoseconds from an instant `t` within entry i until the gate of class c closes: entries with the class closed end
the wait, and so does the next launch; after the last entry its states hold (R588, R102). -/
def Side.toClose (x : Side) (m : Mem) (p c : Nat) : Nat → Nat → Nat → Option Nat
  | 0, _, _ => none
  | fuel + 1, i, acc =>
    if !(imgWord m (imgGate p i) 0).getLsbD c then some acc
    else if i + 1 < imgField m (imgGate p 0) 0 16 9 then
      Side.toClose x m p c fuel (i + 1) (acc + (imgWord m (imgGate p i) 1).toNat)
    else none

/-- Whether class c of a port is open, and nanoseconds until it closes (R588); ports with no list running are open.
DEDUCED, note 104. -/
def Side.gateOf (x : Side) (p c : Nat) : Bool × Option Nat :=
  match x.me.net.gates, x.me.net.pos.find? fun e => e.1 == p with
  | some m, some (_, i, t) =>
    if p = 8 then (true, none) else
    let opn := (imgWord m (imgGate p i) 0).getLsbD c
    let close := (Side.toClose x m p c 129 i 0).map fun d => d - (x.mt - t)
    let both := match close, x.toGateLaunch with
      | some a, some b => some (min a b)
      | some a, none => some a
      | none, b => b
    (opn, both)
  | _, _ => (true, none)

/-- Pre-emption is in force on a port. -/
def Side.preempts (x : Side) (p : Nat) : Bool :=
  p != 8 && x.flag (Reg.NET_PORT_CFG.inst p) 2 && x.flag (Reg.NET_PORT_STAT.inst p) 1

/-- A class of a port is express. -/
def Side.express (x : Side) (p c : Nat) : Bool := !x.preempts p || (x.field (Reg.NET_PORT_CFG.inst p) 10 3).testBit c

/-- Tenths of a nanosecond of the least fragment of a port (R578). -/
def Side.fragTime (x : Side) (p : Nat) : Nat := x.wireTime p (64 * (1 + x.field (Reg.NET_PORT_CFG.inst p) 12 11))

/-- A preemptable frame in transmission after a move of its port's gate list: cut between two fragments while its gate is
closed or HOLD is 1, resumed once a fragment of what is left of it can finish (R588, R589); `runs`: no express frame holds
it up. DEDUCED, note 104. -/
def Side.cutFrame (x : Side) (p : Nat) (runs : Bool) (t : NetTx) : NetTx :=
  let left := if runs && !t.paused then t.left - 10 * (x.mt - t.at_) else t.left
  let g := x.gateOf p t.item.cls
  let shut := !g.1 || x.flag (Reg.NET_PORT_STAT.inst p) 10
    || (t.paused && (g.2.map fun c => decide (10 * c < min left (x.fragTime p))).getD false)
  if x.express p t.item.cls || left = 0 then t else { t with left := left, at_ := x.mt, paused := shut }

/-- The gate list of a port has moved: its states show, and what it transmits follows them. -/
def Side.gatesMoved (x : Side) (p : Nat) : Side :=
  let x := x.showGates p
  x.modPort p fun q => { q with tx := match q.tx with
    | [] => []
    | t :: rest => x.cutFrame p true t :: rest.map (x.cutFrame p false) }

/-- A gate launch (R102): every list restarts at entry 0, from the image in force at its first launch. -/
def Side.gateLaunch (x : Side) : Side :=
  if !x.netLoaded then x else
  let x := x.modNet fun n => { n with
    gates := some n.img
    pos := ((List.range 8) ++ (List.range 64).map (64 + ·)).map fun k => (k, 0, x.mt) }
  (List.range 8).foldl Side.gatesMoved x

/-! ## Results on the wire (R590 to R596) -/

/-- Bits of a result header that safe state changes (R396): SAFE set, VALID cleared, CHECK recomputed. DEDUCED, note 105. -/
def safeMarked (l : List Byte) : List Byte :=
  let w0 := setBit (setBit (word (bytesNat (l.take 4))) 26 true) 16 false
  let body := wordBytes w0 ++ (l.drop 4).take 56
  body ++ wordBytes (crc32c (body ++ l.drop 64)) ++ l.drop 64

/-- The frame of a result under its context (R591). DEDUCED, note 105. -/
def Side.resultFrame (x : Side) (ctx : Nat) (bytes : List Byte) : EthFrame :=
  let o := imgCtx ctx
  let m := x.me.net.img
  { dst := imgMac m o 1, src := x.rd64 (Reg.NET_MAC.inst 9) % 2 ^ 48
    tag := some (imgField m o 0 14 3, imgField m o 0 17 15)
    rtag := if imgField m o 0 1 1 = 1 then some 0 else none
    etype := imgField m o 3 15 0, body := bytes, acf := none, ptp := none }

/-- A committed result enters port 8 at its class (R590), unless safe state discards it (R594) or its context refuses it
(R593). While nothing is forwarded (R583) it has no context. DEDUCED, note 105. -/
def Side.publishFrame (x : Side) (tag : ResTag) (cls : Nat) (bytes : List Byte) (safe : Bool) : Side :=
  let o := imgCtx tag.ctx
  let f := x.resultFrame tag.ctx bytes
  let mask := imgField x.me.net.img o 0 25 18
  if safe then x
  else if !x.netLoaded || imgField x.me.net.img o 0 0 0 = 0 || !x.me.net.ok o
      || (maskPorts mask).any (fun p => decide (x.maxFrame p < (if f.rtag.isSome then 92 else 86) + (bytes.length - 64))) then
    (x.count Ct.NET_PUB_TOO_LONG 9).raise Ev.NET_PUB_DROP 9
  else x.enqueue 8 { frame := f, cls := cls, mask := mask, res := some { tag with counter := imgField x.me.net.img o 0 2 2 == 1 },
                     in_ := none, held := false }

/-- A result leaves port 8: it takes its sequence number (R592) and is counted. -/
def Side.stampResult (x : Side) (i : NetFrame) : NetFrame × Side :=
  match i.res with
  | none => (i, x)
  | some r =>
    let seq := if r.counter then Tbl.get 0 x.me.net.ctxSeq r.ctx else r.pair % 65536
    let x := x.modNet fun n => { n with ctxSeq := n.ctxSeq.put r.ctx ((Tbl.get 0 n.ctxSeq r.ctx + 1) % 65536) }
    ({ i with frame := { i.frame with rtag := i.frame.rtag.map fun _ => seq } }, x.count Ct.NET_PUB_SENT 9)

/-- A queued result that channel safe state overtakes: its header is marked (R396). -/
def markResult (i : NetFrame) : NetFrame :=
  if i.res.isSome then { i with frame := { i.frame with body := safeMarked i.frame.body } } else i

/-- Channel safe state overtakes the results that no port has started: their headers are marked (R396), and the Age Visor
entries that took one of them hold VALID 0 (R751). -/
def Side.markResults (x : Side) : Side :=
  let tags := (List.range 9).flatMap fun p => (x.port p).queue.filterMap fun i => i.res.map (·.ctx)
  let x := (List.range 9).foldl (fun x p => x.modPort p fun s => { s with queue := s.queue.map markResult }) x
  let watched := fun (k : Nat) => x.flag ((Reg.AV_CFG : Reg).el 0x10 k) 0 && tags.contains (x.field ((Reg.AV_CFG : Reg).el 0x10 k) 8 1)
  let av := x.me.safe.av.map fun (e : Nat × AvSt) => if watched e.1 then (e.1, { e.2 with seen := e.2.seen.map fun r => (false, r.2) }) else e
  { x with me := { x.me with safe := { x.me.safe with av := av } } }

/-- Channel safe state at the switch (R396, R594): queued results are marked and discarded, results in transmission are
stomped. DEDUCED, note 105. -/
def Side.netSafe (x : Side) : Side :=
  let x := x.markResults
  (List.range 9).foldl (fun x p =>
    let q := x.port p
    let x := x.modPort p fun s => { s with
      queue := s.queue.filter fun i => i.res.isNone
      tx := s.tx.map fun t => { t with stomp := t.stomp || t.item.res.isSome } }
    x.countN Ct.NET_STOMPED p (q.tx.filter fun t => t.item.res.isSome && !t.stomp).length) x

/-- A reset of the die cuts short what is in transmission (R594). -/
def Side.netCut (x : Side) : Side :=
  (List.range 9).foldl (fun x p => (x.port p).tx.foldl (fun x t => x.emit (.ethCut p t.item.frame)) x) x

/-! ## The channel receive queue (R669 to R672) -/

/-- A frame or CAN message delivered as LOCAL. PRESUMED, note 106. -/
def Side.rxq (x : Side) (kind port handle : Nat) (bytes : List Byte) (st : Stamp) : Side :=
  let cfg := x.hrd (x.iov Reg.RXQ_CFG 0)
  if x.hub.down || !bit cfg 0 then x else
  let n := fld cfg 13 1
  let t := x.hrdN (x.iov Reg.RXQ_TAIL 0)
  if (t + 2 ^ 32 - x.hrdN (x.iov Reg.RXQ_HEAD 0)) % 2 ^ 32 = n then
    let x := x.hcount Ct.IOV_RXQ_DROPPED (x.fnIx 0) 0
    if bit (x.hrd (headReg T.HUB_IOV (x.fnIx 0) Reg.EVT_RAW)) Ev.HUB_IOV_RXQ_DROP.bit then x
    else x.hraise Ev.HUB_IOV_RXQ_DROP (x.fnIx 0) 0
  else
    let a := x.winBase 0 + x.hrd64 (x.iov Reg.RXQ_BASE 0) + t % max 1 n * 10240
    let head := wordsBytes ([pack [(0, kind), (1, port), (8, handle)], word bytes.length] ++ st.words ++ List.replicate 26 0)
    ((x.passBridle 17 ⟨true, a, head.length + bytes.length, some bytes⟩).loftWrite a (head ++ bytes) |>.hwrN (x.iov Reg.RXQ_TAIL 0) ((t + 1) % 2 ^ 32)).msix 0 (fld cfg 19 14)

/-- The bytes of a number, highest first. -/
def natBE (n v : Nat) : List Byte := (natBytes n v).reverse

/-- A CAN frame as the receive queue and an ACF message hold it: identifier word, then the data. PRESUMED, note 106. -/
def canBytes (f : CanFrame) : List Byte :=
  let k := match f.fmt with | .classical => 0 | .fd => 1 | .xl => 2
  wordBytes (pack [(0, f.id), (29, k), (31, nat1 f.ide)]) ++ f.data

/-- The bytes of an ACF payload (IEEE 1722). -/
def acfBytes (a : AcfPdu) : List Byte :=
  let body := a.msgs.flatMap fun m =>
    natBE 2 (((if m.stamp.isSome then 1 else 2) * 512 + acfMsgSize m / 4) % 65536)
      ++ natBE 2 (nat1 m.frame.rtr * 0x2000 + nat1 m.frame.ide * 0x1000 + nat1 m.frame.brs * 0x800 + m.bus % 32)
      ++ (match m.stamp with | some t => natBE 8 t | none => []) ++ natBE 4 m.frame.id
      ++ m.frame.data ++ List.replicate ((m.frame.data.length + 3) / 4 * 4 - m.frame.data.length) 0
  (if a.tscf then [0x05, 0x80, 0, 0] ++ natBE 8 a.stream ++ natBE 4 a.time ++ natBE 4 0 ++ natBE 2 body.length ++ natBE 2 0
   else natBE 4 (0x82800000 + body.length % 2048 * 256 + a.seq % 256) ++ natBE 8 a.stream) ++ body

/-- The bytes of a frame without its FCS. -/
def frameBytes (f : EthFrame) : List Byte :=
  natBytes 6 f.dst ++ natBytes 6 f.src
    ++ (match f.tag with | some (v, p) => natBE 2 0x8100 ++ natBE 2 (p * 8192 + v) | none => [])
    ++ (match f.rtag with | some s => natBE 2 0xF1C1 ++ natBE 2 0 ++ natBE 2 s | none => [])
    ++ natBE 2 f.etype ++ (match f.acf with | some a => acfBytes a | none => f.body)

/-! ## CAN routing (R600 to R603) -/

/-- The place of a frame in arbitration: ascending identifier, a base identifier before the extended ones it begins. -/
def canKey (f : CanFrame) : Nat := if f.ide then 2 * f.id + 1 else 2 * (f.id * 2 ^ 18)

/-- The gateway queue of a controller. -/
def Side.canQueue (x : Side) (c : Nat) : List CanFrame := Tbl.get [] x.me.net.canq c

/-- A controller takes part in frames of a type in its CANG_CFG.MODE (R595). DEDUCED, note 107. -/
def Side.canTakes (x : Side) (c : Nat) (f : CanFrame) : Bool :=
  match f.fmt with
  | .classical => true
  | .fd => decide (2 ≤ x.field (Reg.CANG_CFG.inst c) 1 0)
  | .xl => x.field (Reg.CANG_CFG.inst c) 1 0 == 3

/-- CANG_STAT's state of a controller. -/
def Side.canState (x : Side) (c : Nat) : Nat := x.field (Reg.CANG_STAT.inst c) 1 0

/-- A controller is on the bus: error-active or error-passive. -/
def Side.canOn (x : Side) (c : Nat) : Bool := x.pageOn (Reg.CANG_STAT.inst c) && decide (x.canState c < 2)

/-- A routed frame enters a controller's queue, or is dropped and counted (R597). -/
def Side.canEnqueue (x : Side) (c : Nat) (f : CanFrame) : Side :=
  if 64 ≤ (x.canQueue c).length || x.canState c == 2 then x.count Ct.CANG_GW_TX_DROPPED c
  else x.modNet fun n => { n with canq := n.canq.put c (x.canQueue c ++ [f]) }

/-- The conversion to a destination type (R602): 0 same, 1 classical, 2 FD; none when it is not performed. -/
def Side.convert (x : Side) (f : CanFrame) (dst typ : Nat) : Option CanFrame :=
  match typ, f.fmt with
  | 0, _ => some f
  | _, .xl => none
  | 1, .classical => some f
  | 1, .fd => if f.data.length ≤ 8 then some { f with fmt := .classical, brs := false } else none
  | 2, .fd => some f
  | 2, .classical => if f.rtr then none else some { f with fmt := .fd, brs := x.flag (Reg.CANG_CFG.inst dst) 2 }
  | _, _ => none

/-- Send what a talker has gathered (R598), with the talker's sequence_num. DEDUCED, note 108. -/
def Side.acfSend (x : Side) (t : Nat) : Side :=
  match x.me.net.acf.find? fun e => e.1 == t with
  | none => x
  | some (_, a) =>
    let m := x.me.net.img
    let o := imgTalker t
    let tscf := imgField m o 0 1 1 == 1
    let pdu : AcfPdu := { tscf := tscf, stream := bytesNat (m.read (o + 12) 8), seq := Tbl.get 0 x.me.net.acfSeq t
                          time := if tscf then a.first % 2 ^ 32 else 0,
                          msgs := a.msgs, overrun := false }
    let f : EthFrame := { dst := imgMac m o 1, src := x.rd64 (Reg.NET_MAC.inst 9) % 2 ^ 48
                          tag := some (imgField m o 0 22 11, imgField m o 0 25 23), rtag := none, etype := 0x22F0, body := []
                          acf := some pdu, ptp := none }
    let x := x.modNet fun n => { n with acf := n.acf.drop t, acfSeq := n.acfSeq.put t ((Tbl.get 0 n.acfSeq t + 1) % 256) }
    (x.count Ct.CANG_ACF_TX 16).enqueue 8
      { frame := f, cls := imgField m o 0 25 23, mask := imgField m o 0 10 3, res := none, in_ := none, held := false }

/-- A message fits a talker's frame beside those it holds, on every port of its mask. -/
def Side.acfFits (x : Side) (t : Nat) (ms : List AcfMsg) : Bool :=
  let m := x.me.net.img
  let n := 22 + (if imgField m (imgTalker t) 0 1 1 = 1 then 24 else 12) + (ms.map acfMsgSize).sum
  (maskPorts (imgField m (imgTalker t) 0 10 3)).all fun p => decide (n ≤ x.maxFrame p)

/-- A message joins a talker's frame (R598): a frame that it would not fit is sent first; a frame that holds MAX_MSGS
messages, or has no wait, is sent at once. DEDUCED, note 108. -/
def Side.acfAdd (x : Side) (t bus : Nat) (f : CanFrame) (st : Stamp) : Side :=
  let m := x.me.net.img
  let o := imgTalker t
  if imgField m o 0 0 0 = 0 || !x.me.net.ok o then x else
  let msg : AcfMsg := { bus := bus, frame := f, stamp := if imgField m o 0 2 2 = 1 then none else some st.vt }
  let cur := fun x : Side => (x.me.net.acf.find? fun e => e.1 == t).map (·.2)
  let x := match cur x with
    | some a => if x.acfFits t (a.msgs ++ [msg]) then x else x.acfSend t
    | none => x
  let a := (cur x).getD { msgs := [], at_ := x.mt, first := st.vt }
  let x := x.modNet fun n => { n with acf := n.acf.put t { a with msgs := a.msgs ++ [msg] } }
  if imgField m o 0 31 26 ≤ a.msgs.length + 1 then x.acfSend t else x

/-- One action of a routing entry (R600, R602). -/
def Side.canAction (x : Side) (k a : Nat) (f : CanFrame) (src : Nat) (st : Stamp) : Side :=
  let m := x.me.net.img
  let g := imgField m (imgRoute k) (4 + a)
  let f := if g 18 18 = 1 then { f with id := imgField m (imgRoute k) 3 28 0, ide := imgField m (imgRoute k) 3 29 29 == 1 } else f
  match g 2 0 with
  | 1 => match x.convert f (g 6 3) (g 20 19) with
    | some f => x.canEnqueue (g 6 3) f
    | none => x.count Ct.CANG_CONVERT_FAIL 16
  | 2 => match (if f.fmt = .xl then none else x.convert f (g 6 3) (g 20 19)) with
    | some f => x.acfAdd (g 12 7) (g 17 13) f st
    | none => x.count Ct.CANG_CONVERT_FAIL 16
  | 3 => x.rxq 1 src 0 (canBytes f) st
  | _ => x

/-- A routing entry matches (R600): `src` is the controller of KIND CAN, or listener and bus_id of KIND ACF. -/
def Side.routeHits (x : Side) (k : Nat) (acf : Option (Nat × Nat)) (src : Nat) (f : CanFrame) : Bool :=
  let m := x.me.net.img
  let g := imgField m (imgRoute k)
  let ide := f.ide && f.fmt != .xl
  let mask := g 2 28 0
  g 0 0 0 == 1 && x.me.net.ok (imgRoute k)
    && (match acf with
        | none => g 0 2 1 == 0 && g 0 6 3 == src
        | some (l, b) => g 0 2 1 == 1 && g 0 12 7 == l && g 0 17 13 == b)
    && (g 0 19 18 == 0 || (g 0 19 18 == 1 && f.fmt == .classical) || (g 0 19 18 == 2 && f.fmt == .fd) || (g 0 19 18 == 3 && f.fmt == .xl))
    && (g 0 21 21 == 1 || (g 0 20 20 == 1) == ide)
    && ((f.id ^^^ g 1 28 0) &&& mask) == 0

/-- Route a CAN frame or an extracted message (R601): the lowest-numbered entry that matches performs its actions. -/
def Side.route (x : Side) (acf : Option (Nat × Nat)) (src : Nat) (f : CanFrame) (st : Stamp) : Side :=
  if !x.flag (Reg.CANG_GW_CTRL.inst 16) 0 then x
  else match (if x.netLoaded then (List.range 4096).find? fun k => x.routeHits k acf src f else none) with
  | some k => (List.range 4).foldl (fun x a => x.canAction k a f src st) (x.count Ct.CANG_ROUTED 16)
  | none =>
    let x := x.count Ct.CANG_NO_ROUTE 16
    let x := if bit (x.rd (headReg T.CANG 16 Reg.EVT_RAW)) Ev.CANG_NO_ROUTE.bit then x else x.raise Ev.CANG_NO_ROUTE 16
    if x.flag (Reg.CANG_GW_CTRL.inst 16) 1 then x.rxq 1 src 0 (canBytes f) st else x

end Sys2Proof.Machine
end

