-- ==== Sys2Proof/Machine/SafeEntry.lean ====
section
/-!
DEFINITION. Entering channel safe state (R731 to R737), the fault message (R767, R768), and how a command of a channel
runs: the time passes, the command acts on a die that is powered and out of reset, and every safe-state trigger it
fired is entered.
-/

namespace Sys2Proof.Machine

/-- The channel safety states (R729). -/
def Side.safeState (x : Side) : Nat := x.field Reg.SAFE_STAT 2 0

/-- A class that SAFE can be released from (R741). -/
def recoverable (cls : Nat) : Bool := cls == 1 || cls == 2

/-- Change what the SAFE block holds. -/
def Side.modSafe (x : Side) (f : SafeSt → SafeSt) : Side := { x with me := { x.me with safe := f x.me.safe } }

/-- The fault record (R768). -/
def Side.faultRecord (x : Side) (kind : Nat) (t : Trigger) : List Word :=
  let st := x.stamp
  let l := [pack [(0, 1), (8, x.d.die), (9, kind), (12, t.cls)], pack [(0, t.block), (16, t.inst), (24, t.ev)]]
    ++ st.words ++ [st.word, x.rd Reg.CAD_FRAME, word (x.me.safe.msgSeq % 2 ^ 16), word t.stream, 0, 0, 0, 0, 0]
  l ++ [crc32c (wordsBytes l)]

/-- Queue a fault message for the exits that are enabled, and record it (R767, R848). -/
def Side.faultMessage (x : Side) (kind : Nat) (t : Trigger) : Side :=
  let r := x.faultRecord kind t
  (x.modSafe fun s => { s with
    msgSeq := s.msgSeq + 1
    msgs := s.msgs ++ [{ kind := kind, cls := t.cls, words := r, eth := x.flag Reg.SAFE_MSG_CFG 8,
                         can := x.flag Reg.SAFE_MSG_CFG 13, mbx := !x.hub.down, mt := x.mt, late := false }] }).record
    0x08 0 r

/-- A stall is HALTED by the entry (R733): a fixed stall that is RUNNING takes HALT_CAUSE 2, one that is DRAINING launches
nothing more, the batch sequencer of a served stall that serves, holds or is QUIESCED enters HALTED (R336). -/
def Side.haltStall (x : Side) (i : Nat) : Side :=
  let x := if x.field (Reg.PSQ_STAT.inst i) 2 0 = 2 && !x.flag (Reg.PSQ_STAT.inst i) 3 then
      ((x.setField (Reg.PSQ_STAT.inst i) 2 0 4).setField (Reg.PSQ_STAT.inst i) 18 16 2).raise Ev.PSQ_HALT i
    else if x.field (Reg.PSQ_STAT.inst i) 2 0 = 3 && !x.flag (Reg.PSQ_STAT.inst i) 3 then
      x.modStl i fun s => { s with drained := true } else x
  if 1 ≤ x.field (Reg.BSQ_STAT.inst i) 2 0 && x.field (Reg.BSQ_STAT.inst i) 2 0 ≤ 3 then
    (x.dropStep i).setField (Reg.BSQ_STAT.inst i) 2 0 4 else x

/-- Disarm an Age Visor entry (R753). -/
def Side.disarmAv (x : Side) (s : Nat) : Side := x.setFlag ((Reg.AV_STAT : Reg).el 0x10 s) 8 false

/-- The snapshot of the newest REC_EXPORT_BYTES of records (R850). A second entry while a copy runs starts none (R851), nor does
an entry while the recorder is off. DEDUCED, note 159. -/
def Side.snapshot (x : Side) : Side :=
  let n := x.rdN Reg.REC_EXPORT_BYTES
  if n = 0 || !x.flag Reg.REC_CTRL 0 || x.me.recorder.export_.isSome then x
  else { x with me := { x.me with recorder := { x.me.recorder with
    export_ := some (n, none) } } }

/-- RECOVERABLE: every cause in force is of class 0x01 or 0x02. -/
def Side.updRecoverable (x : Side) : Side :=
  x.setFlag Reg.SAFE_STAT 16 (x.me.safe.causes.all fun c => recoverable c.1.cls)

/-- The replay leaves the recorder (R852). -/
def Side.dropReplay (x : Side) : Side :=
  ({ x with me := { x.me with recorder := { x.me.recorder with replay := none } } }).setFlag Reg.REC_CTRL 1 false

/-- A replay ends: its command completes DONE with a RESULT, the frames replayed, the differences and the first of them
(R853, R857). -/
def Side.endReplay (x : Side) (result : Nat) : Side :=
  match x.me.recorder.replay with
  | none => x
  | some r =>
    let x := x.dropReplay
    match (x.fn 0).accepted.find? fun k => k.ring == r.ring && k.id == r.id with
    | some c => x.complete 0 c 0 result ([word r.frames, word r.diffs] ++ words64 r.firstDiff)
    | none => x

/-- An entry to SAFE cuts a replay short (R853): a frame that a boundary in the same cycle counted is not counted (R857). -/
def Side.cutReplay (x : Side) : Side :=
  match x.me.recorder.replay with
  | none => x
  | some r =>
    let x := if 0 < r.frames && r.edge == x.mt then
        ({ x with me := { x.me with recorder := { x.me.recorder with replay := some { r with frames := r.frames - 1 } } } }).wrN
          (Ct.REC_REPLAY_FRAMES.reg) (x.rdN Ct.REC_REPLAY_FRAMES.reg - 1)
      else x
    x.endReplay 1

/-- A trigger acts (R731): it enters SAFE from INIT or NORMAL, adds its cause when the channel is already in SAFE
(R747, R876), and changes nothing in FENCED, which ends only with a cold reset (R746). DEDUCED, note 27. -/
def Side.enterSafe (x : Side) (t : Trigger) : Side :=
  if x.safeState = 3 then x
  else if x.safeState = 2 then
    (x.modSafe fun s => { s with
      causes := s.causes ++ [(t, false)], resetDue := s.resetDue || !recoverable t.cls }).updRecoverable
  else
    let x := (x.setField Reg.SAFE_STAT 2 0 2).setField Reg.SAFE_STAT 10 3 t.cls
    let x := (x.wr64 Reg.SAFE_ENTER_VT x.vt).count Ct.SAFE_ENTRIES
    let x := x.modSafe fun s => { s with
      causes := [(t, false)], enterMt := x.mt, enterSent := false, resetDue := !recoverable t.cls,
      release := false, faultLow := true, tainted := true }
    let x := (List.range 8).foldl Side.haltStall x.updRecoverable
    let x := ((List.range 16).foldl Side.disarmAv x).netSafe
    (((x.faultMessage 0 t).snapshot).cutReplay).raise Ev.SAFE_ENTER

/-- Enter every trigger that has fired, in order. A trigger fired by the entry itself (EVT_SAFE_ENTER through the pin
route) adds its class to the causes in force; that fires nothing more, and no trigger is left waiting. DEDUCED, note 27. -/
def Side.settle (x : Side) : Side :=
  match x.me.fired with
  | [] => x
  | l =>
    let x := l.foldl Side.enterSafe { x with me := { x.me with fired := [] } }
    let x := x.me.fired.foldl Side.enterSafe { x with me := { x.me with fired := [] } }
    { x with me := { x.me with fired := [] } }

/-! ## How a command runs -/

/-- A command of one channel: the time passes; on a die that is powered and out of reset it acts on that channel's view,
and the triggers it fired are entered; on any other die nothing more happens (R861, R864). DEDUCED, note 8. -/
def onLive (n : Now) (d : Ch) (f : Side → Side) (s : State) : Host.Outcome State Fault Refusal :=
  let s := s.elapse n
  .next (s.onSide d fun x => if x.live then (f x).settle else x)

/-- The same for what also happens on a die in reset or unpowered: pins, supplies and the hub's own work. -/
def onAny (n : Now) (d : Ch) (f : Side → Side) (s : State) : Host.Outcome State Fault Refusal :=
  let s := s.elapse n
  .next (s.onSide d fun x => (f x).settle)

/-- A command that concerns both channels or the hub alone: `f` acts on each channel's view in turn, A before B.
DESIGN CHOICE, note 122. -/
def onBoth (n : Now) (f : Side → Side) (s : State) : Host.Outcome State Fault Refusal :=
  let s := s.elapse n
  .next ((s.onSide .a fun x => (f x).settle).onSide .b fun x => (f x).settle)

/-- An event of a hub page that serves both channels (R880): raised once, delivered to each channel. -/
def State.raiseBoth (s : State) (e : Ev) : State :=
  let s1 := s.onSide .a fun x => (x.hraise e 0 0).settle
  s1.onSide .b fun x =>
    let raw := headReg e.t 0 Reg.EVT_RAW
    let old := Tbl.get (resetOf 2 raw) s.hub.regs raw
    let new := x.hrd raw
    (((x.hwr raw old).hraise e 0 0).hwr raw new).settle

/-- Count on a hub page that serves both channels. -/
def State.hubCount (s : State) (c : Ct) (i : Nat) : State :=
  let x := s.side .a
  let s1 := s.putSide .a (x.hbump c i)
  if x.hatMax c i then s1.raiseBoth ⟨c.t, cntSatBit c.t⟩ else s1

/-- A refused write of a hub page is counted (R873): of a physical function on its HUB_IOV page (R640), of another
initiator on the hub's EVA page, whose event goes to both channels. -/
def State.hubDenied (s : State) (d : Ch) (w : Init) : State :=
  match w with
  | .pf _ => s.onSide d fun x => (x.denied w).settle
  | _ => (s.hubCount Ct.EVA_OWNER_DENIED 0).raiseBoth Ev.EVA_OWNER_DENIED

/-- A write of a register of the hub by an initiator of channel d: nothing when the page does not answer, counted when
WORLD or LOCK refuses it (R871, R873), else performed by `f` on the channel's view. -/
def onHubReg (n : Now) (d : Ch) (w : Init) (a : Reg) (f : Side → Side) (s : State) : Host.Outcome State Fault Refusal :=
  let s := s.elapse n
  let x := s.side d
  if !x.reachesHub w || !x.hubPageOn a then .next s
  else if !x.hpermits w a then .next (s.hubDenied d w)
  else .next (s.onSide d fun x => (f x).settle)

/-- An operation on the head of a hub page, toward each channel that the page serves (R880): HUB_IOV and HUB_SHED
instances serve one; for a page that serves both, the second channel sees the event registers as they were. -/
def State.onServed (s : State) (t i : Nat) (f : Side → Side) : State :=
  if t = T.HUB_IOV || t = T.HUB_SHED then
    s.onSide (if (t == T.HUB_IOV && i / 17 == 1) || (t == T.HUB_SHED && i == 1) then .b else .a) fun x => (f x).settle
  else
    let old := fun r => Tbl.get (resetOf 2 (headReg t i r)) s.hub.regs (headReg t i r)
    (s.onSide .a fun x => (f x).settle).onSide .b fun x =>
      (f ((x.hwr (headReg t i Reg.EVT_RAW) (old Reg.EVT_RAW)).hwr (headReg t i Reg.EVT_EN) (old Reg.EVT_EN))).settle

end Sys2Proof.Machine
end

