-- ==== Sys2Proof/Machine/Recorder.lean ====
section
/-!
DEFINITION. The recorder: its ring in the loft, records in commit order, drops, the export of a snapshot (R844 to R851).
-/

namespace Sys2Proof.Machine

/-- Two ranges of 2 MiB units share none. -/
def unitsApart (b n b' n' : Nat) : Bool := n == 0 || n' == 0 || decide (b + n ≤ b') || decide (b' + n' ≤ b)

/-- The loft window of stall s: first unit and units, none while it is EMPTY. -/
def Side.stallUnits (x : Side) (s : Nat) : Nat × Nat :=
  if x.field (Reg.PSQ_STAT.inst s) 2 0 = 0 then (0, 0)
  else (x.field (Reg.PSQ_LOFT_RGN.inst s) 15 0, x.field (Reg.PSQ_LOFT_RGN.inst s) 31 16)

/-- Sealed region n: first unit and units (R420). -/
def Side.sealUnits (x : Side) (n : Nat) : Nat × Nat :=
  (x.field ((Reg.LOFT_SEAL : Reg).el 4 n) 15 0, x.field ((Reg.LOFT_SEAL : Reg).el 4 n) 31 16)

/-- A range of units lies in no stall's window and in no sealed region. -/
def Side.unitsFree (x : Side) (b n : Nat) : Bool :=
  ((List.range 8).all fun s => unitsApart b n (x.stallUnits s).1 (x.stallUnits s).2)
    && ((List.range 8).all fun k => unitsApart b n (x.sealUnits k).1 (x.sealUnits k).2)

/-- The ring region is valid (R844): 2–512 units, inside the physical function's window, outside every stall's window
and every sealed region. -/
def Side.recRegionOk (x : Side) : Bool :=
  let b := x.field Reg.REC_RGN 15 0
  let n := x.field Reg.REC_RGN 31 16
  decide (2 ≤ n) && decide (n ≤ 512)
    && decide (x.hfield (x.iov Reg.IOV_WIN 0) 15 0 ≤ b)
    && decide (b + n ≤ x.hfield (x.iov Reg.IOV_WIN 0) 15 0 + x.hfield (x.iov Reg.IOV_WIN 0) 31 16)
    && x.unitsFree b n

/-- Change what the recorder holds. -/
def Side.modRec (x : Side) (f : RecSt → RecSt) : Side := { x with me := { x.me with recorder := f x.me.recorder } }

/-- REC_CTRL is written over a valid region. -/
def Side.recCtrl (v : Word) (x : Side) : Side :=
  let first := bit v 0 && !x.flag Reg.REC_CTRL 0 && x.rdN Reg.REC_SEQ == 0 && x.me.recorder.queue.isEmpty
  let x := x.store Reg.REC_CTRL v
  if first then x.record 0x0B 0 [0, x.rd Reg.RST_CAUSE, 0, 0, 0, 0, 0, 0] else x

/-- REC_ENABLE (R844): EN is set only over a valid region. The first enable after a reset starts the record with a MARK
START that carries RST_CAUSE (R849). A write of 0 stops the recorder. -/
def execRecEnable (n : Now) (d : Ch) (w : Init) (v : Word) (s : State) : Host.Outcome State Fault Refusal :=
  onLive n d (fun x => x.access w Reg.REC_CTRL fun x =>
    if bit v 0 && !x.recRegionOk then x.raise Ev.REC_CFG_ERR
    else x.recCtrl v) s

/-- The bytes of a record (R847). -/
def Rec.bytes (r : Rec) (d : Ch) (seq : Nat) : List Byte :=
  let head := [pack [(0, r.typ), (8, r.body.length / 8), (10, r.stall), (13, d.die)], word seq]
    ++ r.at_.words ++ [r.at_.word]
  let body := wordsBytes r.body
  wordsBytes head ++ wordBytes (crc32c (wordsBytes head ++ body)) ++ body

/-- Write one record at the next place of the ring; one that would cross the end begins at the start (R846, R847). -/
def Side.putRec (x : Side) (r : Rec) : Side :=
  let ring := x.field Reg.REC_RGN 31 16 * 0x200000
  let l := r.bytes x.d (x.rdN Reg.REC_SEQ)
  let skip := if x.me.recorder.pos + l.length > ring then ring - x.me.recorder.pos else 0
  let pos := if x.me.recorder.pos + l.length > ring then 0 else x.me.recorder.pos
  let a := x.field Reg.REC_RGN 15 0 * 0x200000 + pos
  let x := (x.passBridle 12 ⟨true, a, l.length, some l⟩).loftWrite a l
  let x := x.wrN Reg.REC_TAIL ((x.rdN Reg.REC_TAIL + skip + l.length) % 2 ^ 32)
  let x := (x.wrN Reg.REC_SEQ ((x.rdN Reg.REC_SEQ + 1) % 2 ^ 32)).count Ct.REC_RECORDS
  x.modRec fun c => { c with
    pos := pos + l.length
    export_ := match c.export_ with
      | some (n, none) => if r.typ = 0x08 then some (n, some (pos + l.length)) else some (n, none)
      | e => e }

/-- The oldest record that waits is written, after a MARK for those dropped before it. DEDUCED, note 159. -/
def Side.writeRec (r : Rec) (t : List Rec) (x : Side) : Side :=
  let lost := x.me.recorder.dropped
  let x := x.modRec fun c => { c with queue := t, dropped := 0 }
  let x := if lost = 0 then x
    else x.putRec { typ := 0x0B, stall := 0, body := [1, word lost, 0, 0, 0, 0, 0, 0], at_ := x.stamp }
  x.putRec r

/-- 10 µs have passed since a record was committed (R845). -/
def Side.recLate (x : Side) (r : Rec) : Bool := decide (r.at_.mt + 10000 < x.mt)

/-- The general DMA bridle lets the recorder write: its RATE is not 0 (R453, R845). -/
def Side.recPasses (x : Side) : Bool := x.field (Reg.BRDL_LOFT_RATE.inst 12) 18 0 != 0

/-- The oldest record that waits is dropped and counted; the event is raised when it was cleared since the last drop (R845,
R858). A snapshot that waits for a FAULT record so lost ends where the ring stands. DEDUCED, note 159. -/
def Side.dropRec (r : Rec) (t : List Rec) (x : Side) : Side :=
  let x := (x.modRec fun c => { c with
    queue := t, dropped := c.dropped + 1
    export_ := match c.export_ with
      | some (n, none) => if r.typ = 0x08 then some (n, some c.pos) else some (n, none)
      | e => e }).count Ct.REC_DROPPED
  if bit (x.rd (headReg T.REC 0 Reg.EVT_RAW)) Ev.REC_DROP.bit then x else x.raise Ev.REC_DROP

/-- RECORD_WRITE (R845, R846): within 10 µs of its commit the oldest record that waits is written, after a MARK DROPPED when
records were dropped since the last one. -/
def execRecordWrite (n : Now) (d : Ch) (s : State) : Host.Outcome State Fault Refusal :=
  onLive n d (fun x => match x.me.recorder.queue with
    | [] => x
    | r :: t => if x.recLate r || !x.recPasses then x else x.writeRec r t) s

/-- RECORD_DROP_TIMEOUT (R845): the oldest record has waited for more than 10 µs. -/
def execRecordDropTimeout (n : Now) (d : Ch) (s : State) : Host.Outcome State Fault Refusal :=
  onLive n d (fun x => match x.me.recorder.queue with
    | [] => x
    | r :: t => if x.recLate r then x.dropRec r t else x) s

/-- The n bytes of a ring of `size` bytes at `base` that end at `fin`. -/
def ringTail (m : Mem) (base size fin n : Nat) : List Byte :=
  if n ≤ fin then m.read (base + fin - n) n
  else m.read (base + size - (n - fin)) (n - fin) ++ m.read base fin

/-- The newest bytes of the ring that a snapshot of at most `len` bytes holds, the ring ending at `fin`. -/
def Side.ringNewest (x : Side) (len fin : Nat) : List Byte :=
  let size := x.field Reg.REC_RGN 31 16 * 0x200000
  ringTail x.me.mem.loft (x.field Reg.REC_RGN 15 0 * 0x200000) size fin (min len size)

/-- n bytes of the shed area from offset o on lie outside every stall's shed window (R850). -/
def Side.outsideSheds (x : Side) (o n : Nat) : Bool :=
  (List.range 8).all fun st =>
    let b := x.rd64 (Reg.PSQ_SHED_BASE.inst st)
    let k := x.rd64 (Reg.PSQ_SHED_SIZE.inst st)
    x.field (Reg.PSQ_STAT.inst st) 2 0 == 0 || k == 0 || decide (o + n ≤ b) || decide (b + k ≤ o)

/-- The snapshot fits the shed area outside every stall's window, and the link is up. -/
def Side.exportFits (x : Side) (l : List Byte) : Bool :=
  let o := x.rd64 Reg.REC_EXPORT_OFS
  x.linkUp && decide (o + l.length ≤ x.hrd64 (Reg.SHED_SIZE.inst x.d.die)) && x.outsideSheds o l.length

/-- The host address that a snapshot goes to. -/
def Side.exportAddr (x : Side) : Nat := x.hrd64 (Reg.SHED_BASE.inst x.d.die) + x.rd64 Reg.REC_EXPORT_OFS

/-- The die's reset cuts a copy short (R851): the bytes already copied stand, and how many they are is a free value. -/
def Side.cutExport (x : Side) : Side :=
  match x.me.recorder.export_ with
  | none => x
  | some (len, fin) =>
    let l := (fin.map (x.ringNewest len)).getD []
    let (v, x) := x.draw
    let x := if x.exportFits l then
        { x with hub := { x.hub with host := x.hub.host.write x.exportAddr (l.take (v.toNat % (l.length + 1))) } }
      else x
    x.modRec fun c => { c with export_ := none }

/-- A snapshot stands in the shed area; a MARK EXPORT follows. -/
def Side.exported (l : List Byte) (x : Side) : Side :=
  let x := { x with hub := { x.hub with host := x.hub.host.write x.exportAddr l } }
  let x := (x.modRec fun c => { c with export_ := none }).record 0x0B 0 [2, 0, 0, 0, 0, 0, 0, 0]
  (x.count Ct.REC_EXPORTS).raise Ev.REC_EXPORT_DONE

/-- EXPORT_DONE (R850). -/
def execExportDone (n : Now) (d : Ch) (s : State) : Host.Outcome State Fault Refusal :=
  onLive n d (fun x => match x.me.recorder.export_ with
    | some (len, some fin) => if x.exportFits (x.ringNewest len fin) then x.exported (x.ringNewest len fin) else x
    | _ => x) s

end Sys2Proof.Machine
end

