-- ==== Sys2Proof/Machine/Ingress.lean ====
section
/-!
DEFINITION. Sensor ingress: the configuration bank (R478 to R485), the sample store (R499 to R501), drift and alignment
(R506 to R509), lateness (R511), and the commands of the CSI-2 ports, the stamp units and Ethernet ingress.
-/

namespace Sys2Proof.Machine

/-- Change what SNS and FUS hold. -/
def Side.modFus (x : Side) (f : FusSt → FusSt) : Side := { x with me := { x.me with fus := f x.me.fus } }

/-- What fusion holds of sensor s. -/
def Side.sen (x : Side) (s : Nat) : SenSt := Tbl.get SenSt.zero x.me.fus.sen s

/-- Change it. -/
def Side.modSen (x : Side) (s : Nat) (f : SenSt → SenSt) : Side := x.modFus fun u => { u with sen := u.sen.put s (f (x.sen s)) }

/-- FUS_CTRL.EN. -/
def Side.fusOn (x : Side) : Bool := x.flag Reg.FUS_CTRL 0

/-- Fusion starts afresh: every sensor UNALIGNED, counts and poses gone (R499, R502, R509). -/
def Side.fusFresh (x : Side) : Side :=
  let x := x.modFus fun u => { FusSt.zero with swap := u.swap }
  (x.wr Reg.FUS_STAT (x.rd Reg.FUS_STAT &&& 3)).wr Reg.FUS_ALIGNED 0

/-- The bound stall (R476). -/
def Side.fusStall (x : Side) : Nat := x.field Reg.FUS_STALL 2 0

/-- The address of the bank in force (R478), or of the other. -/
def Side.bankAddr (x : Side) (other : Bool) : Nat :=
  x.rd64 (if x.flag Reg.FUS_STAT 0 != other then Reg.FUS_BANK1 else Reg.FUS_BANK0)

/-- Word k of a bank. -/
def Side.bankWord (x : Side) (base k : Nat) : Word := word (bytesNat (x.spGet x.fusStall 0 (base + 4 * k) 4))

/-- Word k of sensor entry s of the bank in force (R481). -/
def Side.sw (x : Side) (s k : Nat) : Word := x.bankWord (x.bankAddr false) (32 + 32 * s + k)

/-- A field of it. -/
def Side.sf (x : Side) (s k hi lo : Nat) : Nat := fld (x.sw s k) hi lo

/-- A pair of its words as an address of 40 bits. -/
def Side.sAddr (x : Side) (s k : Nat) : Nat := ((x.sw s k).toNat + 2 ^ 32 * (x.sw s (k + 1)).toNat) % 2 ^ 40

/-- Word k of the projection and track configuration of the bank in force (R485). -/
def Side.pw (x : Side) (k : Nat) : Word := x.bankWord (x.bankAddr false) (1568 + k)

/-- A field of it, and a pair as an address. -/
def Side.pf (x : Side) (k hi lo : Nat) : Nat := fld (x.pw k) hi lo
def Side.pAddr (x : Side) (k : Nat) : Nat := ((x.pw k).toNat + 2 ^ 32 * (x.pw (k + 1)).toNat) % 2 ^ 40

/-- The extrinsic of sensor s (R483). -/
def Side.extrinsic (x : Side) (s : Nat) : Rig :=
  Rig.ofCodes ((List.range 16).map fun k => x.bankWord (x.bankAddr false) (1056 + 16 * s + k))

/-- KIND of a sensor: 1 CAMERA, 2 IMU, 3 ETH; and EXPECT. -/
def Side.kind (x : Side) (s : Nat) : Nat := x.sf s 0 1 0
def Side.expected (x : Side) (s : Nat) : Bool := bit (x.sw s 0) 2

/-- The EXPECT mask. -/
def Side.expectMask (x : Side) : Nat := ((List.range 32).map fun s => if x.kind s != 0 && x.expected s then 2 ^ s else 0).sum

/-! ## Access (R476) -/

/-- FUS may access n bytes at an address of its stall. -/
def Side.fusOk (x : Side) (a n : Nat) (write : Bool) : Bool :=
  (spaceOf a == 1 || spaceOf a == 2) && x.winOk x.fusStall a n write

/-- A window fault of FUS by a unit: 0 ingress, 1 projector, 2 track stage, 3 integrator. -/
def Side.fusFault (x : Side) (unit a : Nat) (write : Bool) : Side :=
  let x := x.wr64 Reg.FUS_WF_OFFSET (offOf a)
  let x := x.wr Reg.FUS_WF_INFO (pack [(0, if spaceOf a = 1 then 0 else 1), (1, nat1 write), (2, unit)])
  (x.count Ct.FUS_WINDOW_FAULTS).raise Ev.FUS_WINDOW

/-- A write of FUS, with whether it was performed. -/
def Side.fusPut (x : Side) (unit a : Nat) (l : List Byte) : Side × Bool :=
  if x.fusOk a l.length true then (x.spPutBy (if unit = 0 then 15 else 16) x.fusStall 0 a l, true) else (x.fusFault unit a true, false)

/-! ## Instants (R501, R510) -/

/-- The VT start of a slot of frame n, as an integer: frames other than the running one lie whole periods away. -/
def Side.slotVt (x : Side) (n slot : Nat) : Int :=
  (x.me.cad.fVt : Int) + ((n : Int) - (x.rd64 Reg.CAD_FRAME : Int)) * (x.me.cad.period : Int)
    + ((slot * x.me.cad.period / max 1 x.me.cad.slots : Nat) : Int)

/-- T_tgt(n) and CUT(n, s); for the pose source the cut-off is the projection launch. DEDUCED, note 92. -/
def Side.target (x : Side) (n : Nat) : Int := x.slotVt n (x.pf 0 9 0)
def Side.cut (x : Side) (n s : Nat) : Int := x.slotVt n (if x.kind s = 2 then x.pf 0 20 10 else x.sf s 0 26 17)

/-- The instant whose target time lies nearest a sample time; the earlier of two that lie equally near. DEDUCED, note 92. -/
def Side.instantOf (x : Side) (ts : Int) : Nat :=
  let n := x.rd64 Reg.CAD_FRAME
  let p := (max 1 x.me.cad.period : Nat)
  let g := ts - x.target n
  ((n : Int) + g / p + (if g % p * 2 ≤ p then 0 else 1)).toNat

/-! ## Pixel formats (R488, R489) -/

/-- The n-byte groups of a list. PRESUMED, note 90. -/
def groups {α : Type} (n : Nat) (l : List α) : List (List α) :=
  (List.range (ceilDiv l.length (max 1 n))).map fun k => (l.drop (n * k)).take n

/-- The pixel codes of a RAW line (CSI-2 packing), by data type. PRESUMED, note 90. -/
def rawPixels (dtype : Nat) (l : List Byte) : List Nat :=
  let b := fun (g : List Byte) k => (g.getD k 0).toNat
  match dtype with
  | 0x2B => (groups 5 l).flatMap fun g => (List.range 4).map fun k => 4 * b g k + b g 4 / 4 ^ k % 4
  | 0x2C => (groups 3 l).flatMap fun g => [16 * b g 0 + b g 2 % 16, 16 * b g 1 + b g 2 / 16]
  | 0x2D => (groups 7 l).flatMap fun g =>
      let low := b g 4 + 256 * b g 5 + 65536 * b g 6
      (List.range 4).map fun k => 64 * b g k + low / 64 ^ k % 64
  | _ => l.map (·.toNat)

/-- Unsigned 8-bit codes as INT8 codes: the sign bit is set over (R489). -/
def signed8 (l : List Nat) : List Byte := l.map fun c => BitVec.ofNat 8 (c ^^^ 0x80)

/-- Unsigned 4-bit codes as packed INT4 codes (R169). -/
def signed4 (l : List Nat) : List Byte := (groups 2 l).map fun g => BitVec.ofNat 8 ((g.getD 0 0 ^^^ 8) % 16 + 16 * ((g.getD 1 0 ^^^ 8) % 16))

/-- A plane of a landing buffer: format, width, channels, scale. -/
structure PlaneFmt where
  fmt : Nat
  w : Nat
  c : Nat
  s0 : Word

/-- The planes of a data type (R489), none when it is not supported. -/
def planesOf (dtype w : Nat) : List PlaneFmt :=
  match dtype with
  | 0x2A => [⟨0, w, 1, 0x3F800000⟩]
  | 0x2B => [⟨0, w, 1, 0x40800000⟩, ⟨1, w, 1, 0x3F800000⟩]
  | 0x2C => [⟨0, w, 1, 0x41800000⟩, ⟨1, w, 1, 0x3F800000⟩]
  | 0x2D => [⟨0, w, 1, 0x42800000⟩, ⟨0, w, 1, 0x3F800000⟩]
  | 0x1E => [⟨0, w, 1, 0x3F800000⟩, ⟨0, w / 2, 2, 0x3F800000⟩]
  | 0x24 => [⟨0, w, 3, 0x3F800000⟩]
  | _ => []

/-- The bytes of one line in each plane. -/
def planeLines (dtype : Nat) (l : List Byte) : List (List Byte) :=
  let px := rawPixels dtype l
  let b := fun (g : List Byte) k => (g.getD k 0).toNat
  match dtype with
  | 0x2B => [signed8 (px.map (· / 4)), signed4 (px.map (· % 4))]
  | 0x2C => [signed8 (px.map (· / 16)), signed4 (px.map (· % 16))]
  | 0x2D => [signed8 (px.map (· / 64)), signed8 (px.map (· % 64))]
  | 0x1E => [signed8 ((groups 4 l).flatMap fun g => [b g 1, b g 3]), signed8 ((groups 4 l).flatMap fun g => [b g 0, b g 2])]
  | 0x24 => [signed8 ((groups 3 l).flatMap fun g => [b g 2, b g 1, b g 0])]
  | _ => [signed8 px]

/-- Bytes of a row of a plane (R168, PACKED). -/
def PlaneFmt.row (p : PlaneFmt) : Nat := ceilDiv (ceilDiv (p.w * p.c) (if p.fmt = 1 then 2 else 1)) 128 * 128

/-- A tensor header with L = 1 (R375): format, layout, H, W, C, data bytes, scale, the limits of entry 0, instant. -/
def hdrWords (fmt layout h w c bytes : Nat) (s0 : Word) (z lo hi step : Nat) : List Word :=
  [pack [(0, 1), (8, fmt), (12, layout)], word h, word w, word c, 0, word bytes, 0, 0, 1, s0, word (z % 256), 0, word (lo % 256), 0,
   word (hi % 256), 0, 0, 0, 0, word step] ++ List.replicate 12 0

/-- The header of a plane of H rows for an instant (R490): its zero point is the most negative code. -/
def PlaneFmt.header (p : PlaneFmt) (h inst : Nat) : List Word :=
  if p.fmt = 1 then hdrWords 1 1 h p.w p.c (h * p.row) p.s0 0xF8 0xF8 7 inst
  else hdrWords 0 1 h p.w p.c (h * p.row) p.s0 0x80 0x80 0x7F inst

/-- The planes of camera s with the address of each header (R489). -/
def Side.landing (x : Side) (s : Nat) : List (Nat × PlaneFmt) :=
  let h := x.sf s 10 27 14
  match planesOf (x.sf s 11 5 0) (x.sf s 10 13 0) with
  | [p] => [(x.sAddr s 8, p)]
  | [p, q] => [(x.sAddr s 8, p), (x.sAddr s 8 + 128 + h * p.row, q)]
  | _ => []

/-! ## Committing a sample (R499 to R511) -/

/-- FLAGS and word 0 of a sample record. -/
def Sample.word0 (a : Sample) : Word :=
  pack [(0, a.s), (5, nat1 a.complete), (6, nat1 !a.complete), (7, nat1 a.late), (8, nat1 a.folded), (9, nat1 a.discarded),
    (10, nat1 a.selected), (11, nat1 a.superseded), (12, nat1 a.unaligned), (16, a.seq % 65536)]

/-- A sample record (R499). -/
def Sample.words (a : Sample) : List Word :=
  [a.word0, word a.instant] ++ words64 a.vt ++ words64 a.mt ++ [wordI a.ts, wordI (a.ts / 2 ^ 32)]
    ++ [word (min (a.tend - a.vt) 0xFFFFFFFF), satI32 a.delta, word a.bytes, a.crc] ++ (a.payload ++ [0, 0, 0, 0]).take 4

/-- Where the record of sample k of sensor s lies. -/
def Side.storeAt (x : Side) (s k : Nat) : Nat := x.pAddr 23 + (16 * s + k % 16) * 64

/-- Put a sample among those kept: the last 32 of its sensor, newest first. -/
def keepSample (l : List Sample) (a : Sample) : List Sample :=
  a :: (l.filter fun b => b.s != a.s || (a.k < b.k + 32 && b.k != a.k))

/-- Write a sample record (R499, R500). -/
def Side.putSample (x : Side) (a : Sample) : Side :=
  ((x.fusPut 0 (x.storeAt a.s a.k) (wordsBytes a.words)).1.record 0x01 x.fusStall a.words).modFus fun u => { u with
    samples := keepSample u.samples a }

/-- Change the flags of a kept sample: its record's word 0, if it still stands, and a SAMPLE_FLAGS record (R500). -/
def Side.reflag (x : Side) (s k : Nat) (f : Sample → Sample) : Side :=
  match x.me.fus.samples.find? fun a => a.s == s && a.k == k with
  | some a =>
    let b := f a
    let x := x.modFus fun u => { u with samples := u.samples.map fun c => if c.s = s ∧ c.k = k then b else c }
    if b.word0 = a.word0 then x else
    let x := if (x.sen s).k ≤ k + 16 then (x.fusPut 0 (x.storeAt s k) (wordBytes b.word0)).1 else x
    x.record 0x02 x.fusStall ([b.word0, word b.instant] ++ List.replicate 6 0)
  | none => x

/-- The ALIGNED mask as FUS_ALIGNED shows it. -/
def Side.showAligned (x : Side) : Side :=
  x.wrN Reg.FUS_ALIGNED ((List.range 32).map fun s => if (x.sen s).aligned then 2 ^ s else 0).sum

/-- DRIFT_LIM and RELOCK_LIM in force (R481). -/
def Side.driftLim (x : Side) (s : Nat) : Nat := if x.sw s 5 = 0 then x.me.cad.period else (x.sw s 5).toNat
def Side.relockLim (x : Side) (s : Nat) : Nat := if x.sw s 6 = 0 then x.me.cad.period / 4 else (x.sw s 6).toNat

/-- δ of a sample (R506). -/
def Side.drift (x : Side) (s : Nat) (q : Intake) : Int :=
  let p := max 1 x.me.cad.period
  let nom := ((x.sw s 2).toNat : Int)
  let c := x.sen s
  match x.kind s with
  | 1 =>
    match c.aligned, c.prev with
    | true, some f =>
      let g := (q.vt : Int) - f
      c.delta + g - max 1 ((2 * g + p) / (2 * p)) * p
    | _, _ =>
      let r := ((q.vt : Int) - x.me.cad.epoch - nom) % p
      if 2 * r ≤ p then r else r - p
  | 3 => q.own - ((q.vt : Int) - nom)
  | _ => 0

/-- Alignment after a committed sample (R507 to R509), with whether the sample is marked UNALIGNED. -/
def Side.align (x : Side) (s : Nat) (complete : Bool) (delta : Int) : Side × Bool :=
  let c := x.sen s
  if x.kind s = 2 then ((x.modSen s fun c => { c with aligned := true }).showAligned, false)
  else if c.aligned then
    if delta.natAbs > x.driftLim s then
      ((((x.modSen s fun c => { c with aligned := false, relock := 0 }).showAligned).count Ct.FUS_UNALIGNS).raise Ev.FUS_UNALIGNED, true)
    else (x, false)
  else if !complete then (x, true)
  else if delta.natAbs > x.relockLim s then (x.modSen s fun c => { c with relock := 0 }, true)
  else if c.relock + 1 < x.sf s 7 7 0 then (x.modSen s fun c => { c with relock := c.relock + 1 }, true)
  else
    ((((x.modSen s fun c => { c with aligned := true, relock := 0 }).showAligned).count Ct.FUS_RELOCKS).raise Ev.FUS_ALIGN, false)

/-- Commit the sample that a sensor has received (R499 to R511) on page `page` of SNS. -/
def Side.commitSample (x : Side) (page s : Nat) (q : Intake) (complete : Bool) (payload : List Word) : Side :=
  let ts : Int := (if x.kind s = 3 then q.own else (q.vt : Int)) + signed 32 (x.sw s 1).toNat
  let x := (x.count Ct.SNS_FRAMES page).count Ct.FUS_SAMPLES
  let x := if complete || x.kind s = 2 then x else (x.count Ct.SNS_DAMAGED page).raise Ev.SNS_DAMAGED page
  let delta := x.drift s q
  let r := x.align s complete delta
  let x := r.1
  let over_ := (q.last : Int) - x.cut q.inst s
  let late := decide (0 ≤ over_)
  let win := if x.rd Reg.FUS_LATE_WIN = 0 then x.me.cad.period / max 1 x.me.cad.slots
    else min x.me.cad.period (x.rdN Reg.FUS_LATE_WIN)
  let folded := late && decide (over_ ≤ win)
  let x := if folded then x.count Ct.FUS_FOLDED else x
  let x := if late && !folded then (x.count Ct.FUS_LATE_DISCARDED).raise Ev.FUS_LATE_DISCARD else x
  let k := (x.sen s).k
  let x := x.modSen s fun c => { c with k := k + 1, delta := delta, prev := some q.vt, intake := none }
  x.putSample {
    s := s, k := k, complete := complete, late := late, folded := folded, discarded := late && !folded,
    selected := false, superseded := false, unaligned := r.2, seq := q.seq, instant := q.inst, vt := q.vt, mt := q.mt, ts := ts,
    tend := q.last, delta := delta, bytes := q.bytes, crc := ~~~q.crc, payload := payload, gone := false, slot := (x.sen s).slot,
    fault := q.fault }

/-- A new sample of a sensor begins: its stamps, its own time, its number (R490, R497). -/
def Side.beginIntake (x : Side) (s : Nat) (st : Stamp) (seq : Nat) (own : Int) : Side :=
  let ts : Int := (if x.kind s = 3 then own else (st.vt : Int)) + signed 32 (x.sw s 1).toNat
  x.modSen s fun c => { c with intake := some {
    seq := seq % 65536, vt := st.vt, mt := st.mt, own := own, count := 0, bytes := 0,
    crc := 0xFFFFFFFF, bad := false, inst := x.instantOf ts, fault := false, last := st.vt } }

/-- The page's last stamp and number. DEDUCED, note 97. -/
def Side.showLast (x : Side) (page : Nat) (vt seq : Nat) : Side :=
  (x.wr64 (Reg.SNS_LAST_VT.inst page) vt).wrN (Reg.SNS_LAST_SEQ.inst page) (seq % 65536)

/-- Live sensors are heard: FUS is enabled and no replay runs (R854). -/
def Side.listening (x : Side) : Bool := x.fusOn && x.me.recorder.replay.isNone

/-- SNS is powered. DEDUCED, note 97. -/
def Side.snsOn (x : Side) : Bool := x.domOn 15

/-! ## CSI-2 ports -/

/-- The camera of a port and virtual channel. -/
def Side.cameraAt (x : Side) (port vc : Nat) : Option Nat :=
  if !x.listening then none
  else (List.range 32).find? fun s => x.kind s == 1 && x.sf s 0 4 3 == port && x.sf s 0 6 5 == vc

/-- A packet of an unsupported virtual channel or data type (R488). -/
def Side.unsupportedPacket (x : Side) (port : Nat) : Side :=
  let x := x.count Ct.SNS_UNSUPPORTED port
  if bit (x.rd (headReg T.SNS port Reg.EVT_RAW)) Ev.SNS_UNSUPPORTED.bit then x else x.raise Ev.SNS_UNSUPPORTED port

/-- The bytes that the landing buffer of camera s holds. -/
def Side.landed (x : Side) (s : Nat) : List Byte :=
  (x.landing s).flatMap fun p => x.spGet x.fusStall 0 (p.1 + 128) (x.sf s 10 27 14 * p.2.row)

/-- The light ISP takes a frame of one of its sources and writes it for the display pipes, scaled down, with its
frame-start stamp pair (R528); its tuning stands in no register, so the pixels are free values. DESIGN CHOICE, note 132. -/
def Side.ispTake (x : Side) (s : Nat) (q : Intake) : Side :=
  let c := x.rd (Reg.SNS_CFG.inst 7)
  if !(fld c 4 0 == s || (bit c 10 && fld c 9 5 == s)) then x
  else
    let fmt := fld c 11 11
    let w := x.sf s 10 13 0 / (fld c 13 12 + 1)
    let h := x.sf s 10 27 14 / (fld c 13 12 + 1)
    let l := x.landed s
    ((x.count Ct.SNS_FRAMES 7).showLast 7 q.vt q.seq).emit
      (.ispFrame s fmt w h q.vt q.mt ((List.range (w * h * (if fmt = 1 then 2 else 3))).map (Config.ispByte fmt (fld c 13 12 + 1) l)))

/-- The camera's sample commits: with its payload's address. -/
def Side.commitFrame (x : Side) (port s : Nat) (complete : Bool) : Side :=
  match (x.sen s).intake with
  | some q =>
    let x := x.commitSample port s q complete (words64 (x.sAddr s 8))
    let x := x.setFlag (Reg.SNS_STAT.inst port) 1 false
    if complete then x.ispTake s q else x
  | none => x

/-- A port's frame state of a virtual channel: RECEIVING and the channel's bit (R529). -/
def Side.portState (x : Side) (port vc : Nat) (rx open_ : Bool) : Side :=
  (x.setFlag (Reg.SNS_STAT.inst port) 1 rx).setFlag (Reg.SNS_STAT.inst port) (2 + vc) open_

/-- The header of a landing plane is written for the instant that the sample is assigned to (R490). -/
def Side.planeHeader (c : Nat) (y : Side) (p : Nat × PlaneFmt) : Side :=
  let inst := (y.sen c).intake.elim 0 (·.inst)
  let r := y.fusPut 0 p.1 (wordsBytes (p.2.header (y.sf c 10 27 14) inst))
  if r.2 then r.1 else r.1.modSen c fun t => { t with intake := t.intake.map fun q => { q with fault := true } }

/-- A frame of camera c begins (R490 to R493, R501): a frame that it cuts short is DAMAGED; both plane headers are
rewritten for the assigned instant. -/
def Side.cameraFrame (port c num : Nat) (x : Side) : Side :=
  let x := x.commitFrame port c false
  let x := (x.modSen c fun t => { t with frames := t.frames + 1 }).setFlag (Reg.SNS_STAT.inst port) 1 true
  let seq := if num = 0 then (x.sen c).frames else num
  let x := (x.showLast port x.vt seq).beginIntake c x.stamp seq 0
  (x.landing c).foldl (Side.planeHeader c) x

/-- CSI_FRAME_START (R490 to R493, R501). -/
def execCsiFrameStart (n : Now) (d : Ch) (port : Fin 4) (vc : Fin 16) (num : Nat) (s : State) : Host.Outcome State Fault Refusal :=
  onLive n d (fun x =>
    if !x.snsOn then x else if vc.val ≥ 4 then x.unsupportedPacket port else
    match x.cameraAt port vc with
    | none => (x.portState port vc true true).showLast port x.vt num
    | some c => (x.portState port vc true true).cameraFrame port c num) s

/-- The sample that a sensor receives is damaged. -/
def Side.spoil (x : Side) (cam : Option Nat) : Side :=
  match cam with
  | some c => x.modSen c fun t => { t with intake := t.intake.map fun q => { q with bad := true } }
  | none => x

/-- A payload error of a line (R492): counted, shown, and the frame damaged. -/
def Side.lineError (x : Side) (port : Nat) (cam : Option Nat) (c : Ct) (hit : Bool) : Side :=
  if hit then ((x.count c port).setFlag (Reg.SNS_STAT.inst port) 6 true).spoil cam else x

/-- A line of camera c lands in its planes (R488, R489, R492): `lost` when the receive buffer overflowed. -/
def Side.cameraLine (c dtype : Nat) (payload : List Byte) (lost : Bool) (q : Intake) (x : Side) : Side :=
  let row := q.count
  let fits := decide (row < x.sf c 10 27 14) && !lost
  let x := if fits && q.bytes == 0 then x.modFus fun u => { u with samples := u.samples.map fun a =>
      if a.s = c then { a with gone := true } else a } else x
  let ls := (x.landing c).zip (planeLines dtype payload)
  let r := if fits then ls.foldl (fun (y : Side × Nat × Bool) p =>
      let l := p.2.take p.1.2.row
      let z := y.1.fusPut 0 (p.1.1 + 128 + row * p.1.2.row) l
      (z.1, y.2.1 + (if z.2 then l.length else 0), y.2.2 && z.2)) (x, 0, true) else (x, 0, true)
  r.1.modSen c fun t => { t with intake := t.intake.map fun q => { q with
    count := q.count + 1, bytes := q.bytes + r.2.1, crc := payload.foldl crcByte q.crc, fault := q.fault || !r.2.2,
    last := if r.2.1 = 0 then q.last else x.vt } }

/-- A line for a camera whose data type it has and whose frame has begun. -/
def Side.lineFor (cam : Option Nat) (dtype : Nat) (payload : List Byte) (lost : Bool) (x : Side) : Side :=
  match cam with
  | none => x
  | some c =>
    if x.sf c 11 5 0 != dtype then x else
    match (x.sen c).intake with
    | none => x
    | some q => x.cameraLine c dtype payload lost q

/-- CSI_LINE (R488, R489, R492): line start and end codes are ignored. -/
def execCsiLine (n : Now) (d : Ch) (port : Fin 4) (vc : Fin 16) (dtype : Nat) (payload : List Byte) (err : CsiErr) (s : State) :
    Host.Outcome State Fault Refusal :=
  onLive n d (fun x =>
    if !x.snsOn || dtype = 2 || dtype = 3 then x else
    let cam := x.cameraAt port vc
    let x := if err.fixed then x.count Ct.SNS_HDR_ECC_FIXED port else x
    if err.header then (x.spoil cam).setFlag (Reg.SNS_STAT.inst port) 6 true
    else if vc.val ≥ 4 || (planesOf dtype 2).isEmpty then x.unsupportedPacket port
    else
      ((x.lineError port cam Ct.SNS_CRC_ERRORS err.crc).lineError port cam Ct.SNS_OVERFLOWS err.overflow).lineFor
        cam dtype payload err.overflow) s

/-- Every line of the frame has arrived sound (R492). -/
def Side.frameWhole (x : Side) (c : Nat) : Bool :=
  (x.sen c).intake.elim false fun q => !q.bad && q.count == x.sf c 10 27 14

/-- CSI_FRAME_END (R492): COMPLETE after exactly HEIGHT sound lines, else DAMAGED. -/
def execCsiFrameEnd (n : Now) (d : Ch) (port : Fin 4) (vc : Fin 16) (s : State) : Host.Outcome State Fault Refusal :=
  onLive n d (fun x =>
    if !x.snsOn then x else if vc.val ≥ 4 then x.unsupportedPacket port else
    match x.cameraAt port vc with
    | some c => (x.portState port vc false false).commitFrame port c (x.frameWhole c)
    | none => x.portState port vc false false) s

/-- CSI_FRAME_TIMEOUT (R492): no Frame End within P of the Frame Start. -/
def execCsiFrameTimeout (n : Now) (d : Ch) (port : Fin 4) (vc : Fin 4) (s : State) : Host.Outcome State Fault Refusal :=
  onLive n d (fun x =>
    if !x.snsOn then x else
    match x.cameraAt port vc with
    | some c => match (x.sen c).intake with
      | some q => if q.mt + x.me.cad.period ≤ x.mt then
          (x.commitFrame port c false).setFlag (Reg.SNS_STAT.inst port) (2 + vc.val) false else x
      | none => x
    | none => x) s

/-- CSI_LINK_CHANGE (R529): LINK of a port changes. -/
def execCsiLinkChange (n : Now) (d : Ch) (port : Fin 4) (up : Bool) (s : State) : Host.Outcome State Fault Refusal :=
  onLive n d (fun x =>
    if !x.snsOn || x.flag (Reg.SNS_STAT.inst port) 0 == up then x
    else (x.setFlag (Reg.SNS_STAT.inst port) 0 up).raise Ev.SNS_LINK port) s

/-! ## Stamp units -/

/-- IMU_DRDY (R494, R495): the edge is stamped; one during a burst is ignored and counted. -/
def execImuDrdy (n : Now) (d : Ch) (u : Fin 2) (s : State) : Host.Outcome State Fault Refusal :=
  onLive n d (fun x =>
    if !x.snsOn || x.me.recorder.replay.isSome then x
    else if x.flag (Reg.SNS_STAT.inst (4 + u)) 1 then x.count Ct.SNS_OVERFLOWS (4 + u)
    else
      let st := x.stamp
      let x := (x.setFlag (Reg.SNS_STAT.inst (4 + u)) 1 true).wr64 (Reg.SNS_LAST_VT.inst (4 + u)) st.vt
      x.modFus fun f => { f with edges := f.edges.put u st }) s

/-- The 16-bit value at offset o of a burst. -/
def burst16 (l : List Byte) (big : Bool) (o : Nat) : Nat :=
  let a := (l.getD o 0).toNat
  let b := (l.getD (o + 1) 0).toNat
  if big then 256 * a + b else a + 256 * b

/-- The aid (R430, R503): taken at a sample when it is newer than the last and not after the sample; a record that fails its
parity is not applied. -/
def Side.takeAid (x : Side) (r : PoseRec) : Side × PoseRec :=
  let at_ := x.pAddr 25
  if !x.fusOk at_ 32 false then (x.fusFault 3 at_ false, r) else
  let m := x.meetBy 16 x.fusStall 0 at_ 32
  let x := m.1
  if m.2 then (x, r) else
  let w := bytesWords (x.spGet x.fusStall 0 at_ 32)
  let t : Nat := (w.getD 2 0).toNat + 2 ^ 32 * (w.getD 3 0).toNat
  if bit (w.getD 0 0) 0 && decide ((t : Int) ≤ r.t) && x.me.fus.aid.all (fun a => decide (a.1 < t)) then
    (x.modFus fun u => { u with aid := some (t, r.t) },
     { r with v := (((Quat.of r.q).rig .zero).rot (V3.of (w.drop 4))).codes })
  else (x, r)

/-- AID_STALE (R503). DEDUCED, note 96. -/
def Side.checkAid (x : Side) (t : Int) : Side :=
  let lim := max 1000000 (min 1000000000 (x.rdN Reg.FUS_AID_MAX))
  let stale := x.me.fus.aid.all fun a => decide (a.2 + (lim : Int) < t)
  let x' := x.setFlag Reg.FUS_STAT 5 stale
  if stale && !x.flag Reg.FUS_STAT 5 then (x'.count Ct.FUS_AID_STALE_EVENTS).raise Ev.FUS_AID_STALE else x'

/-- The integrator takes a burst of the pose source (R502, R503). -/
def Side.integrateBurst (x : Side) (c : Nat) (t : Int) (burst : List Byte) : Side :=
  let big := bit (x.sw c 17) 16
  let raw := fun k => Fv.ofInt (signed 16 (burst16 burst big (x.sf c 17 7 0 + 2 * k)))
  let ax := fun (base k : Nat) => ((fp32Of (x.sw c (18 + base / 3))).mul (raw (base + k))).sub (fp32Of (x.sw c (20 + base + k)))
  let e := x.extrinsic c
  let w := e.rot ⟨ax 0 0, ax 0 1, ax 0 2⟩
  let a := e.rot ⟨ax 3 0, ax 3 1, ax 3 2⟩
  let r := x.takeAid (integrate x.me.fus.pose x.me.fus.tracks t w a)
  (r.1.checkAid t).modFus fun u => { u with pose := (r.2 :: u.pose).take 1024, tracks := max u.tracks r.2.track }

/-- The burst of a stamped edge becomes a sample of sensor c (R495, R502): `seq` is its own counter. -/
def Side.burstSample (page c seq : Nat) (st : Stamp) (b : List Byte) (x : Side) : Side :=
  let x := (x.beginIntake c st seq 0).wrN (Reg.SNS_LAST_SEQ.inst page) seq
  match (x.sen c).intake with
  | none => x
  | some q =>
    let x := x.commitSample page c { q with bytes := b.length, crc := b.foldl crcByte q.crc, last := x.vt } true
      (bytesWords (b ++ List.replicate (16 - b.length) 0))
    if x.expected c then x.integrateBurst c ((st.vt : Int) + signed 32 (x.sw c 1).toNat) b else x

/-- The counter of a burst is checked for a gap and kept (R495). -/
def Side.burstCount (page u off cnt : Nat) (x : Side) : Side :=
  if off = 0xFF then x else
  let was := Tbl.get 65536 x.me.fus.imuCnt u
  let x := if was != 65536 && decide (1 < (cnt + 65536 - was) % 65536) then x.count Ct.SNS_IMU_GAPS page else x
  x.modFus fun f => { f with imuCnt := f.imuCnt.put u cnt }

/-- A burst ends: the unit is ready and its edge is taken. -/
def Side.burstEnd (x : Side) (u : Nat) : Side :=
  (x.setFlag (Reg.SNS_STAT.inst (4 + u)) 1 false).modFus fun f => { f with edges := f.edges.drop u }

/-- The IMU of a stamp unit. -/
def Side.imuAt (x : Side) (u : Nat) : Option Nat := (List.range 32).find? fun c => x.kind c == 2 && x.sf c 0 4 3 % 2 == u

/-- The bytes of a burst that SNS_CFG sets, 2 to 16 (R494). -/
def Side.burstLen (x : Side) (page : Nat) : Nat := max 2 (min 16 (x.field (Reg.SNS_CFG.inst page) 9 5))

/-- IMU_BURST_DONE (R494, R495, R502, R503): the burst of the stamped edge becomes a sample of the unit's sensor. -/
def execImuBurstDone (n : Now) (d : Ch) (u : Fin 2) (burst : List Byte) (s : State) : Host.Outcome State Fault Refusal :=
  onLive n d (fun x =>
    let page := 4 + u.val
    if !x.snsOn || !x.flag (Reg.SNS_STAT.inst page) 1 then x else
    let st := Tbl.get x.stamp x.me.fus.edges u
    if !x.listening then x.burstEnd u else
    match x.imuAt u with
    | none => x.burstEnd u
    | some c =>
      let b := burst.take (x.burstLen page)
      let off := x.sf c 17 15 8
      let cnt := if off = 0xFF then 0 else burst16 b (bit (x.sw c 17) 16) off
      ((x.burstEnd u).burstCount page u off cnt).burstSample page c cnt st b) s

/-! ## Ethernet ingress -/

/-- The sensor's own time in the first frame of a sample (R497), in VT: a WT value is converted with the VT and WT snapshot
of the ingress stamp. PRESUMED, note 91. -/
def Side.ownTime (x : Side) (s : Nat) (st : Stamp) (wt : Nat) (l : List Byte) : Int :=
  let o := x.sf s 12 31 16
  let t := if bit (x.sw s 13) 16 then beNat ((l.drop o).take 6) * 1000000000 + beNat ((l.drop (o + 6)).take 4)
    else beNat ((l.drop o).take 8)
  if bit (x.sw s 13) 17 then (t : Int) + (st.vt : Int) - (wt : Int) else (t : Int)

/-- The sensor's sample ring slot holds a sample selected for an instant whose projection has not committed (R498). -/
def Side.slotHeld (x : Side) (s slot : Nat) : Bool :=
  x.me.fus.samples.any fun a => a.s == s && a.slot == slot
    && (x.me.fus.chosen.any (fun c => c.1 == s && c.2 == a.k)
      || x.me.fus.proj.any fun p => p.contrib.any fun c => c.1 == s && c.2 == a.k)

/-- The Ethernet sensor's sample commits. -/
def Side.commitEth (x : Side) (s : Nat) (complete : Bool) : Side :=
  match (x.sen s).intake with
  | some q =>
    let x := x.commitSample 6 s q complete (words64 (x.sAddr s 8 + (x.sen s).slot * x.sf s 10 23 0))
    (x.showLast 6 q.vt q.seq).modSen s fun c => { c with slot := (c.slot + 1) % max 1 (x.sf s 11 4 0) }
  | none => x

/-- A frame joins the sample being received (R496). -/
def Side.appendEth (x : Side) (s : Nat) (l : List Byte) : Side :=
  match (x.sen s).intake with
  | some q =>
    let p := l.drop (x.sf s 13 15 0)
    let at_ := x.sAddr s 8 + (x.sen s).slot * x.sf s 10 23 0 + q.bytes
    let fits := decide (q.bytes + p.length ≤ x.sf s 10 23 0)
    let x := if fits then x else x.count Ct.SNS_OVERFLOWS 6
    let r := if fits then x.fusPut 0 at_ p else (x, true)
    let x := r.1.modSen s fun c => { c with intake := some { q with
      count := q.count + 1, bytes := q.bytes + (if fits && r.2 then p.length else 0), crc := p.foldl crcByte q.crc,
      bad := q.bad || !fits, fault := q.fault || !r.2, last := if fits && r.2 then x.vt else q.last } }
    match (x.sen s).intake with
    | some q => if q.count = x.sf s 11 17 5 then x.commitEth s !q.bad else x
    | none => x
  | none => x

/-- The Ethernet sensor of a stream handle. -/
def Side.ethAt (x : Side) (h : Nat) : Option Nat := (List.range 32).find? fun c => x.kind c == 3 && x.sf c 0 16 11 == h

/-- The sample number in a frame of sensor c (R497). -/
def Side.frameSeq (x : Side) (c : Nat) (f : EthFrame) : Nat := beNat ((f.body.drop (x.sf c 12 15 0)).take 2)

/-- A sound frame of sensor c (R496 to R498). A sample number other than the one being received ends that sample DAMAGED; a
new sample whose slot is held is dropped. -/
def Side.ethFrame (c : Nat) (f : EthFrame) (st : Stamp) (wt : Nat) (x : Side) : Side :=
  let seq := x.frameSeq c f
  if (x.sen c).intake.any fun q => q.seq == seq then x.appendEth c f.body else
  let x := x.commitEth c false
  if (x.sen c).drop = some seq then x
  else if x.slotHeld c (x.sen c).slot then
    (x.count Ct.FUS_ETH_DROPPED).modSen c fun t => { t with drop := some seq }
  else
    ((x.modSen c fun t => { t with drop := none }).beginIntake c st seq (x.ownTime c st wt f.body)).appendEth c f.body

/-- ETH_SENSOR_FRAME (R496 to R498): the oldest frame that the switch holds for sensor ingress is taken. -/
def execEthSensorFrame (n : Now) (d : Ch) (fcsOk : Bool) (s : State) : Host.Outcome State Fault Refusal :=
  onLive n d (fun x =>
    match x.me.net.sensorIn with
    | [] => x
    | (h, f, st, wt) :: t =>
      let y : Side := { x with me := { x.me with net := { x.me.net with sensorIn := t } } }
      if !x.snsOn || !x.listening then y else
      match x.ethAt h with
      | none => y
      | some c => if !fcsOk then (y.count Ct.SNS_CRC_ERRORS 6).spoil (some c) else y.ethFrame c f st wt) s

end Sys2Proof.Machine
end

