-- ==== Sys2Proof/Machine/Recordings.lean ====
section
/-!
DEFINITION. Recordings and what a running replay does with them (R847, R848, R852 to R857): the records of a recording,
the samples of a frame, the ladder decisions, the comparison of results.
-/

namespace Sys2Proof.Machine

/-! ## Reading a recording -/

/-- A record of a recording as its words: 8 of the head, then the body. -/
abbrev RecWords := List Word

/-- TYPE, the body, and the VT of the commit. -/
def rwType (r : RecWords) : Nat := fld (r.getD 0 0) 7 0
def rwBody (r : RecWords) (k : Nat) : Word := r.getD (8 + k) 0
def rwBody64 (r : RecWords) (k : Nat) : Nat := (rwBody r k).toNat + 2 ^ 32 * (rwBody r (k + 1)).toNat
def rwVt (r : RecWords) : Nat := (r.getD 2 0).toNat + 2 ^ 32 * (r.getD 3 0).toNat

/-- The check code of a record holds: CRC-32C of head bytes 0–27 and the body. -/
def rwSound (l : List Byte) : Bool := crc32c (l.take 28 ++ l.drop 32) == word (bytesNat ((l.drop 28).take 4))

/-- The records at the front of a recording, up to its blob area, which begins with no record: TYPE 0x00 is reserved.
None when a record fails its check code. DEDUCED, note 113. -/
def parseRecs : Nat → List Byte → Option (List RecWords)
  | 0, _ => some []
  | k + 1, l =>
    let w0 := word (bytesNat (l.take 4))
    let n := 32 + 32 * fld w0 9 8
    if l.length < n || fld w0 7 0 = 0 || 0x0C < fld w0 7 0 then some []
    else if !rwSound (l.take n) then none
    else (parseRecs k (l.drop n)).map (bytesWords (l.take n) :: ·)

/-- The bytes of the recording that a replay reads, and its records. -/
def Side.recordingBytes (x : Side) (r : Replay) (o n : Nat) : List Byte := x.loftGet (x.winBase 0 + r.base + o) n
/-- Its records. DEDUCED, note 113. -/
def Side.recording (x : Side) (r : Replay) : List RecWords := ((parseRecs (r.len / 32) (x.recordingBytes r 0 r.len)).getD [])

/-! ## Frames (R854) -/

/-- The recorded frame that the live frame stands for. -/
def Replay.frame (r : Replay) : Nat := r.first + r.frames

/-- VT of the start of a recorded frame: frames lie on the grid. -/
def Side.recordedStart (x : Side) (f : Nat) : Nat := x.me.cad.epoch + f * x.me.cad.period

/-- A record was committed in recorded frame f. -/
def Side.inFrame (x : Side) (f : Nat) (r : RecWords) : Bool :=
  decide (x.recordedStart f ≤ rwVt r) && decide (rwVt r < x.recordedStart (f + 1))

/-- What every recorded stamp is shifted by, in VT and MT. -/
def Side.replayShift (x : Side) (f : Nat) : Int := (x.me.cad.fVt : Int) - (x.recordedStart f : Int)

/-- A shifted stamp. -/
def shiftBy (n : Nat) (k : Int) : Nat := ((n : Int) + k).toNat

/-- The sample of a SAMPLE record (R499), its stamps shifted and its instant mapped; selection starts anew. -/
def Side.sampleOf (x : Side) (f : Nat) (r : RecWords) : Sample :=
  let w := rwBody r
  let k := x.replayShift f
  let n := x.rd64 Reg.CAD_FRAME
  let vt := shiftBy (rwBody64 r 2) k
  { s := fld (w 0) 4 0, k := (x.sen (fld (w 0) 4 0)).k, complete := bit (w 0) 5, late := bit (w 0) 7, folded := bit (w 0) 8
    discarded := bit (w 0) 9, selected := false, superseded := false, unaligned := bit (w 0) 12, seq := fld (w 0) 31 16
    instant := ((n : Int) + (signed 32 ((w 1).toNat + 2 ^ 32 - f % 2 ^ 32))).toNat, vt := vt, mt := shiftBy (rwBody64 r 4) k
    ts := signed 64 (rwBody64 r 6) + k, tend := vt + (w 8).toNat, delta := signed 32 (w 9).toNat, bytes := (w 10).toNat, crc := w 11
    payload := (List.range 4).map fun j => w (12 + j), gone := false, slot := 0, fault := false }

/-- The payload of a camera or Ethernet sample goes where the sensor's own frames go. -/
def Side.replayPayload (x : Side) (rp : Replay) (r : RecWords) (a : Sample) : Side :=
  let blob := x.recordingBytes rp (rwBody64 r 12) a.bytes
  if x.kind a.s = 1 then
    let h := x.sf a.s 10 27 14
    ((x.landing a.s).foldl (fun (o : Side × List Byte) p =>
      let y := (o.1.fusPut 0 p.1 (wordsBytes (p.2.header h a.instant))).1
      ((y.fusPut 0 (p.1 + 128) (o.2.take (h * p.2.row))).1, o.2.drop (h * p.2.row))) (x, blob)).1
  else if x.kind a.s = 3 then
    let at_ := x.sAddr a.s 8 + (x.sen a.s).slot * x.sf a.s 10 23 0
    ((x.fusPut 0 at_ blob).1).modSen a.s fun c => { c with slot := (c.slot + 1) % max 1 (x.sf a.s 11 4 0) }
  else x

/-- One recorded sample reaches fusion. DEDUCED, note 114. -/
def Side.feedSample (x : Side) (rp : Replay) (r : RecWords) : Side :=
  let a := x.sampleOf rp.frame r
  let a := { a with slot := (x.sen a.s).slot }
  let x := (x.replayPayload rp r a).modSen a.s fun c => { c with k := c.k + 1, aligned := !a.unaligned }
  let x := x.showAligned.putSample a
  if x.kind a.s = 2 && x.expected a.s then x.integrateBurst a.s a.ts (wordsBytes a.payload) else x

/-- The samples of the recorded frame that begins now. DEDUCED, note 114. -/
def Side.feedFrame (x : Side) (rp : Replay) : Side :=
  ((x.recording rp).filter fun r => rwType r == 1 && x.inFrame rp.frame r).foldl (fun y r => y.feedSample rp r) x

/-! ## Differences (R854, R855) -/

/-- The replay that runs on a stall. -/
def Side.replaying (x : Side) (st : Nat) : Option Replay := x.me.recorder.replay.filter fun r => r.begun && r.stall == st

/-- One difference: a REPLAY_DIFF record, counted and raised. Kinds: 0 STATUS, 1 hash, 2 tolerance, 3 ladder. -/
def Side.replayDiff (x : Side) (rp : Replay) (stream kind n : Nat) : Side :=
  let x := x.record 0x0C rp.stall (words64 rp.frame ++ [pack [(0, stream), (8, kind)], word n, 0, 0, 0, 0])
  let x := x.modRec fun c => { c with replay := c.replay.map fun r => { r with
    diffs := r.diffs + 1, firstDiff := if r.diffs = 0 then rp.frame else r.firstDiff } }
  (x.count Ct.REC_REPLAY_DIFFS).raise Ev.REC_REPLAY_DIFF

/-- The NEXT that a recorded decision gives the tensor at an address in this frame, in place of the device's own. -/
def Side.replayNext (x : Side) (st a own : Nat) : Side × Nat :=
  match x.replaying st with
  | none => (x, own)
  | some rp =>
    match (x.recording rp).find? fun r => rwType r == 7 && rwBody64 r 0 == a && x.inFrame rp.frame r with
    | none => (x, own)
    | some r =>
      let n := fld (rwBody r 2) 5 3
      (if n = own then x else x.replayDiff rp 0 3 1, n)

/-- The tolerance-table entry of a stream: FORMAT, ABS, REL (R856). -/
def Side.tolerance (x : Side) (rp : Replay) (stream : Nat) : Option (Nat × Fv × Fv) :=
  if rp.tol = 0 then none
  else
    let e := (List.range 256).map fun k => bytesWords (x.loftGet (x.winBase 0 + rp.tol + 16 * k) 16)
    let e := e.takeWhile fun w => fld (w.getD 0 0) 7 0 != 0xFF
    (e.find? fun w => fld (w.getD 0 0) 7 0 == stream).map fun w => (fld (w.getD 0 0) 11 8, fp32Of (w.getD 1 0), fp32Of (w.getD 2 0))

/-- The elements of a payload as FP32 values, by format (R358). -/
def payloadValues (fmt : Nat) (l : List Byte) : List Fv :=
  let cut := fun n => (List.range (l.length / n)).map fun k => bytesNat ((l.drop (n * k)).take n)
  let half := l.flatMap fun b => [b.toNat % 16, b.toNat / 16]
  match fmt with
  | 0 => l.map fun b => Fv.num (signed 8 b.toNat) 0
  | 1 => half.map fun c => Fv.num (signed 4 c) 0
  | 2 => half.map (decodeFmt 2)
  | 8 => (cut 4).map fun n => (Fv.num (signed 32 n) 0).fp32
  | 3 | 4 => l.map fun b => decodeFmt fmt b.toNat
  | 5 | 6 => (cut 2).map (decodeFmt fmt)
  | _ => (cut 4).map (decodeFmt 7)

/-- Elements out of tolerance: |x − r| ≤ ABS + REL × |r| fails. -/
def outOf (abs_ rel : Fv) (xs rs : List Fv) : Nat :=
  ((xs.zip rs).filter fun p => !((p.1.add p.2.neg).abs.le (abs_.add (rel.mul p.2.abs)))).length

/-- A replayed result is compared with the recorded one of its stream (R855). -/
def Side.replayResult (x : Side) (rp : Replay) (stream status : Nat) (valid : Bool) (pay : List Byte) : Side :=
  match (x.recording rp).find? fun r => rwType r == 0x0A && fld (rwBody r 0) 7 0 == stream && rwBody64 r 1 == rp.frame with
  | none => x
  | some r =>
    if fld (rwBody r 0) 15 8 != status || bit (rwBody r 0) 16 != valid then x.replayDiff rp stream 0 0
    else match x.tolerance rp stream with
      | none => if crc32c pay = rwBody r 3 then x else x.replayDiff rp stream 1 0
      | some (fmt, a, rel) =>
        let n := outOf a rel (payloadValues fmt pay) (payloadValues fmt (x.recordingBytes rp (rwBody64 r 4) pay.length))
        if n = 0 then x else x.replayDiff rp stream 2 n

end Sys2Proof.Machine
end

