-- ==== Sys2Proof/Machine/DescCheck.lean ====
section
/-!
DEFINITION. The decode checks of a descriptor (R362, R363), with the shapes they rest on (R121, R138, R168, R173 to R190,
R366 to R369, R375, R378, R918, R919).
-/

namespace Sys2Proof.Machine

/-! ## Formats and shapes -/

/-- Half bytes of an element (R358). -/
def halves (fmt : Nat) : Nat :=
  match fmt with
  | 0 | 3 | 4 => 2
  | 1 | 2 => 1
  | 5 | 6 => 4
  | _ => 8

/-- Lines of a position of c channels in LINE layout (R168). -/
def linesPer (fmt c : Nat) : Nat := ceilDiv (c * halves fmt) 256

/-- DATA_BYTES of a tensor (R375). -/
def dataBytes (layout fmt h w c : Nat) : Nat :=
  if layout = 0 then h * w * linesPer fmt c * 128 else h * (ceilDiv (w * c * halves fmt) 256 * 128)

/-- An integer format with a ladder (R208), and any integer format. -/
def intFmt (fmt : Nat) : Bool := fmt == 0 || fmt == 1
def intIn (fmt : Nat) : Bool := intFmt fmt || fmt == 8

/-- K_t, N_t and W_t of a pair by its activation and weight formats (R121). -/
def tileK (fa fb : Nat) : Nat := if fa = 5 || fa = 6 then 64 else if fa = 2 || (fa = 1 && fb = 1) then 256 else 128
def tileN (fa : Nat) : Nat := if fa = 5 || fa = 6 then 64 else 128
def loadW (fa fb : Nat) : Nat := if fa = 5 || fa = 6 || (fa = 0 && fb = 1) then 64 else 128

/-- The window block (R366). -/
structure Win where
  k : Nat
  s : Nat
  d : Nat
  lo : Nat
  hi : Nat
deriving DecidableEq, Repr

/-- The row and column axes. -/
def Desc.winY (d : Desc) : Win := ⟨d.n 32 1, d.n 34 2, d.n 38 2, d.n 42 2, d.n 44 2⟩
def Desc.winX (d : Desc) : Win := ⟨d.n 33 1, d.n 36 2, d.n 40 2, d.n 46 2, d.n 48 2⟩

/-- A window field lies in its range (R173); the output size exists and is at most 65,535 (R174, R175). -/
def Win.fieldsOk (w : Win) : Bool := w.k != 0 && w.s != 0 && w.d != 0
def Win.fits (w : Win) (i : Nat) : Bool := decide (w.d * (w.k - 1) + 1 ≤ i + w.lo + w.hi)
def Win.out (w : Win) (i : Nat) : Nat := (i + w.lo + w.hi - (w.d * (w.k - 1) + 1)) / w.s + 1

/-- Regroup factors and direction (R367). -/
def Desc.fy (d : Desc) : Nat := d.f 32 3 0 + 1
def Desc.fx (d : Desc) : Nat := d.f 32 7 4 + 1
def Desc.c2s (d : Desc) : Bool := d.f 33 0 0 == 1

/-- Vector block (R369). -/
def Desc.count (d : Desc) : Nat := d.n 34 4
def Desc.rows (d : Desc) : Nat := d.n 38 2
def Desc.imm0 (d : Desc) : Word := word (d.n 40 4)
def Desc.imm1 (d : Desc) : Word := word (d.n 44 4)
def Desc.sortP (d : Desc) : Nat := d.n 48 1
def Desc.topK (d : Desc) : Nat := d.n 49 2

/-- AUX_LINE, and the bytes of the table or index array there: a word for each rotated pair, or for each element.
DESIGN CHOICE, note 58. -/
def Desc.auxLine (d : Desc) : Nat := d.n 51 2
def Desc.auxBytes (d : Desc) (rope : Word) : Nat :=
  if d.vop = 0x18 then 4 * (fld rope 8 0 / 2) else if d.vop = 0x19 || d.vop = 0x1A then 4 * d.count * d.rows else 0

/-- Attention block (R368). -/
def Desc.slideW (d : Desc) : Nat := d.n 36 3 % 2 ^ 18
def Desc.layer (d : Desc) : Nat := d.n 39 1
def Desc.ringLines (d : Desc) : Nat := d.n 44 2
def Desc.pdma (d : Desc) : Nat := d.f 46 1 0
def Desc.srcStatic (d : Desc) : Bool := d.f 46 2 2 == 1
def Desc.kvHead (d : Desc) : Nat := d.f 47 3 0
def Desc.mask (d : Desc) : Nat := d.f 47 6 4
def Desc.nCtx (d : Desc) : Nat := d.n 53 3 % 2 ^ 18

/-- C padded to whole lines (R177): elements. -/
def padC (fmt c : Nat) : Nat := linesPer fmt c * 256 / halves fmt

/-- Rows of the activation matrix, reduction length and columns of a MATMUL or CONV. -/
def Desc.dimM (d : Desc) (o : Hdr) : Nat := if d.op = 2 then hH o * hW o else hW o
def Desc.dimK (d : Desc) (a : Hdr) : Nat := if d.op = 2 then d.n 32 1 * d.n 33 1 * padC (hFmt a) (hC a) else hC a
def Desc.dimN (o : Hdr) : Nat := hC o

/-- N tiles, K_pad, rounds and the cycles of a unit (R123, R182, R916). -/
def Desc.tilesJ (d : Desc) (a o : Hdr) : Nat :=
  ceilDiv (if d.depthwise then padC (hFmt a) (hC a) else hC o) (tileN d.fa)
/-- K_pad of a unit (R123, R182). DEDUCED, note 53. -/
def Desc.kPad (d : Desc) (a : Hdr) : Nat :=
  if d.depthwise then d.n 32 1 * d.n 33 1 * tileK d.fa d.fb else ceilDiv (d.dimK a) (tileK d.fa d.fb) * tileK d.fa d.fb
def Desc.unitCount (d : Desc) (a o : Hdr) : Nat := ceilDiv (d.dimM o) d.mu * d.tilesJ a o
def Desc.unitCycles (d : Desc) (a : Hdr) : Nat :=
  (if d.depthwise then d.n 32 1 * d.n 33 1 else ceilDiv (d.dimK a) (tileK d.fa d.fb)) * max d.mu (loadW d.fa d.fb)

/-- Bytes of the parts of the checksum vector (R138), each a whole number of lines, and where part i begins. -/
def up128 (n : Nat) : Nat := ceilDiv n 128 * 128
def Desc.chkParts (d : Desc) (a o : Hdr) : List Nat :=
  let j := d.tilesJ a o
  if intFmt d.fa then [up128 (j * d.kPad a * 2), up128 (j * 32)]
  else [up128 (j * d.kPad a * 4), up128 (j * d.kPad a * 4), up128 (j * 8)]

/-- Bytes of the parts of the requantisation block (R378). -/
def Desc.rqParts (d : Desc) (a o : Hdr) : List Nat :=
  let n := hC o
  if intIn d.fa then [up128 (4 * n), up128 n] ++ (if d.op = 4 then [] else [up128 (4 * n * hL a)])
  else [up128 (4 * n), up128 (4 * n)]

/-- Where part i of a block at `base` begins. -/
def partAt (base : Nat) (l : List Nat) (i : Nat) : Nat := base + (l.take i).sum

/-! ## The checks -/

/-- The inputs of the checks: the descriptor, its stall, the headers it names. -/
structure Ctx where
  d : Desc
  st : Nat
  served : Bool
  duplex : Bool
  a : Hdr
  b : Hdr
  o : Hdr
  hasB : Bool
  layers : Nat
  heads : Nat
  page : Nat
  units : Nat
  rope : Word
  /-- The stall's windows hold the line of A's header, and of OUT's (R298). -/
  aOk : Bool
  oOk : Bool

/-- The first operand code of a list of (fails, operand). -/
def firstFail (l : List (Bool × Nat)) : Option Nat := (l.find? (·.1)).map (·.2)

/-- A's header can be read at decode: one that the window check refuses is a window fault of the access (R298, R391, R920). -/
def Ctx.readsA (c : Ctx) : Bool := c.d.takesA && c.aOk

/-- OUT names a header. Where a MOVE's OUT lies outside the stall's windows, or its line is blank, none stands there: the
move brings its header with it. -/
def Ctx.readsO (c : Ctx) : Bool := c.d.hasOut && (c.d.op != 9 || (c.oOk && c.o.any (· != 0)))

/-- The operand headers that a descriptor names, with their operand codes: 1 A, 2 B, 3 OUT. DEDUCED, note 52. -/
def Ctx.hdrs (c : Ctx) : List (Hdr × Nat) :=
  (if c.readsA then [(c.a, 1)] else []) ++ (if c.hasB && c.d.op != 10 then [(c.b, 2)] else [])
    ++ (if c.readsO then [(c.o, 3)] else [])

/-- Check 0x03, header part: reserved words and bits, ladder entries at or above L. -/
def hdrReserved (h : Hdr) : Bool :=
  fld (hw h 0) 15 14 != 0 || fld (hw h 0) 31 21 != 0 || fld (hw h 1) 31 16 != 0 || fld (hw h 2) 31 18 != 0
    || fld (hw h 3) 31 18 != 0 || fld (hw h 4) 31 18 != 0 || fld (hw h 7) 31 28 != 0 || fld (hw h 18) 31 16 != 0
    || (List.range 12).any (fun k => hw h (20 + k) != 0)
    || (List.range 8).any fun e => decide (hL h ≤ e) && (hByte h 10 e != 0 || hByte h 12 e != 0 || hByte h 14 e != 0)

/-- Bytes lo to hi of the op block are zero. -/
def Desc.blank (d : Desc) (lo n : Nat) : Bool := d.n lo n == 0

/-- Reserved bits of the op block (R366 to R370). -/
def Ctx.blockReserved (c : Ctx) : Bool :=
  let d := c.d
  match d.op with
  | 2 | 3 | 4 => !d.blank 50 6
  | 5 => d.f 33 7 1 != 0 || !d.blank 34 22
  | 6 | 7 =>
    d.f 38 7 2 != 0 || d.f 46 7 3 != 0 || d.f 47 7 7 != 0
      || (if d.srcStatic then d.f 55 7 2 != 0 else d.f 51 7 5 != 0 || !d.blank 52 4)
  | 8 =>
    let v := d.vop
    let aux := v == 0x18 || v == 0x19 || v == 0x1A
    let imm := (decide (v ≤ 6) && !c.hasB) || v == 0x16 || v == 0x17 || v == 0x1D
    !d.blank 33 1 || !d.blank 53 3 || (!aux && !d.blank 51 2) || (v != 2 && !d.blank 44 4) || (!imm && !d.blank 40 4)
      || (v != 0x1B && v != 0x1D && !d.blank 48 1) || (v != 0x1C && !d.blank 49 2)
  | 10 => d.f 33 7 4 != 0 || (d.f 33 3 3 == 1) != c.duplex || !d.blank 34 22
  | _ => !d.blank 32 24

/-- Check 0x03. -/
def Ctx.reserved (c : Ctx) : Option Nat :=
  let d := c.d
  let bFmt := d.op == 1 || d.op == 2 || (d.op == 8 && c.hasB)
  firstFail ([
    (d.f 3 7 6 != 0, 0), (d.depthwise && d.op != 2, 0), (d.includePad && d.op != 4, 0),
    (d.last && !(d.hasOut && intFmt d.fo), 0), (!bFmt && d.fb != 0, 0), (!d.hasOut && d.fo != 0, 0),
    (!d.takesA && (d.aA != 0 || d.fa != 0), 1), (!d.mayB && d.aB != 0, 2), (!d.hasOut && d.aO != 0, 3),
    (!(d.op == 1 || d.op == 2) && d.chk != 0, 4),
    (!(d.op == 1 || d.op == 2 || (d.op == 4 && intIn d.fa)) && d.rq != 0, 5), (c.blockReserved, 0)]
    ++ c.hdrs.map fun h => (hdrReserved h.1, h.2))

/-- FMT_OUT is permitted (R918). -/
def Ctx.outFmtOk (c : Ctx) : Bool :=
  let d := c.d
  match d.op with
  | 1 | 2 | 4 | 6 | 7 => if intIn d.fa then d.fo == 0 || d.fo == 1 || d.fo == 8 else d.fo != 8
  | 3 | 5 | 9 => d.fo == d.fa
  | _ => true

/-- Check 0x04. -/
def Ctx.format (c : Ctx) : Option Nat :=
  let d := c.d
  firstFail ([(decide (8 < d.fa), 1), (decide (8 < d.fb), 2), (decide (8 < d.fo), 3), (!c.outFmtOk, 3)]
    ++ c.hdrs.map fun h => (decide (8 < hFmt h.1), h.2))

/-- Check 0x05: the operand pair (R116, R181); of an attention descriptor, with its stall's page format (R222). -/
def Ctx.pairOk (c : Ctx) : Bool :=
  let fa := c.d.fa
  let fb := c.d.fb
  match c.d.op with
  | 1 | 2 =>
    if (fa == 1 && fb == 1) || (fa == 2 && fb == 2) then !c.d.depthwise
    else (fa == 0 && (fb == 0 || fb == 1)) || ((fa == 3 || fa == 4) && (fb == 3 || fb == 4)) || (fa == 5 && fb == 5) || (fa == 6 && fb == 6)
  | 6 | 7 => match c.page with
    | 0 => fa == 0
    | 1 => fa == 3 || fa == 4
    | _ => fa == 5
  | _ => true

/-- Check 0x06. -/
def Ctx.mismatch (c : Ctx) : Option Nat :=
  let d := c.d
  firstFail [(c.readsA && d.fa != hFmt c.a, 1), (c.hasB && d.op != 10 && d.fb != hFmt c.b, 2),
    (c.readsO && d.fo != hFmt c.o, 3)]

/-- A TILE extent passes the last byte (R362). -/
def tileOver (a n : Nat) : Bool := spaceOf a == 0 && decide (bankBytes < offOf a + n)

/-- Check 0x07: spaces and extents (R357, R360). DEDUCED, note 52. -/
def Ctx.space (c : Ctx) : Option Nat :=
  let d := c.d
  let toTile := spaceOf d.aO == 0
  let aOk := match d.op with
    | 9 => if toTile then decide (spaceOf d.aA ≤ 3) else spaceOf d.aA == 0
    | 10 => spaceOf d.aA == 1 || spaceOf d.aA == 2
    | _ => spaceOf d.aA == 0
  let oOk := if d.op = 9 then decide (spaceOf d.aO ≤ 3) else spaceOf d.aO == 0
  let bOk := if d.op = 10 then decide (1 ≤ spaceOf d.aB) && decide (spaceOf d.aB ≤ 3) else spaceOf d.aB == 0
  let quad := d.op == 1 || d.op == 2
  let attn := d.op == 6 || d.op == 7
  firstFail [
    (d.takesA && (!aOk || tileOver d.aA (128 + hBytes c.a)), 1),
    (c.hasB && (!bOk || (d.op != 10 && tileOver d.aB (128 + hBytes c.b))), 2),
    (d.hasOut && (!oOk || tileOver d.aO (128 + hBytes (if d.op = 9 then c.a else c.o))), 3),
    (quad && decide (bankBytes < d.chk + (d.chkParts c.a c.o).sum), 4),
    ((quad || (d.op == 4 && intIn d.fa)) && decide (bankBytes < d.rq + (d.rqParts c.a c.o).sum), 5),
    (attn && decide (bankBytes < 128 * d.n 40 2 + 4 * hW c.a), 0), (attn && decide (bankBytes < 128 * (d.n 42 2 + d.ringLines)), 0),
    (attn && !d.srcStatic && decide (bankBytes < 128 * d.n 48 2 + 1024), 0),
    (d.op == 8 && decide (bankBytes < 128 * d.auxLine + d.auxBytes c.rope), 0),
    ((d.op == 6 || d.op == 7) && d.srcStatic && (let s := spaceOf (d.n 48 5); s != 1 && s != 2), 0)]

/-- The tensor of an operand has no scale array (R375): its format is not MXFP4, and it is no weight tensor, which is the
second operand of a MATMUL or CONV. A MOVE's tensor may be any. -/
def Desc.scaleUnused (d : Desc) (h : Hdr) (k : Nat) : Bool :=
  hFmt h != 2 && d.op != 9 && d.op != 10 && !((d.op == 1 || d.op == 2) && k == 2)

/-- Check 0x08. -/
def Ctx.align (c : Ctx) : Option Nat :=
  let d := c.d
  firstFail ([(d.takesA && d.aA % 128 != 0, 1), (c.hasB && d.aB % 128 != 0, 2), (d.hasOut && d.aO % 128 != 0, 3),
    ((d.op == 6 || d.op == 7) && d.srcStatic && d.n 48 5 % 128 != 0, 0)]
    ++ c.hdrs.map fun h => (hScale h.1 % 128 != 0 || (hScale h.1 != 0 && d.scaleUnused h.1 h.2), h.2))

/-- An FP32 code is positive and finite. -/
def posFinite (w : Word) : Bool :=
  match fp32Of w with
  | .num m _ => decide (0 < m)
  | _ => false

/-- Limits of a format (R201). -/
def fmtMin (fmt : Nat) : Int := if fmt = 1 then -8 else -128
def fmtMax (fmt : Nat) : Int := if fmt = 1 then 7 else 127

/-- Entry e of a signed 8-bit array of a header. -/
def hSigned (h : Hdr) (k e : Nat) : Int := signed 8 (hByte h k e)

/-- Check 0x09, one header. -/
def hdrBad (h : Hdr) : Bool :=
  let f := hFmt h
  fld (hw h 0) 7 0 != 1 || (!intFmt f && hL h != 1) || decide (hL h ≤ fld (hw h 7) 5 3) || decide (hL h ≤ hEntry h)
    || decide (hL h ≤ hNext h) || fld (hw h 8) 15 0 == 0 || decide (fld (hw h 8) 15 0 ≤ fld (hw h 8) 31 16)
    || !posFinite (hw h 9)
    || (intFmt f && (List.range (hL h)).any fun e => decide (hSigned h 10 e < fmtMin f) || decide (fmtMax f < hSigned h 10 e))

/-- Check 0x0A, one header. -/
def hdrShapeBad (h : Hdr) : Bool :=
  decide (1 < hLayout h) || hH h == 0 || hW h == 0 || decide (131072 < hW h) || hC h == 0 || decide (131072 < hC h)
    || decide (hW h < hAct h) || hBytes h != dataBytes (hLayout h) (hFmt h) (hH h) (hW h) (hC h)

/-- The window fields of a CONV or pooling descriptor lie in range, the input sizes among them (R173). -/
def Ctx.winOkay (c : Ctx) : Bool :=
  c.d.winY.fieldsOk && c.d.winX.fieldsOk && decide (hW c.a ≤ 65535) && c.d.winY.fits (hH c.a) && c.d.winX.fits (hW c.a)

/-- The window fields of the descriptor lie in range (R173), so that its taps can be compared with B's W. -/
def Ctx.taps (c : Ctx) : Bool := c.d.winY.fieldsOk && c.d.winX.fieldsOk

/-- Check 0x0A. -/
def Ctx.shape (c : Ctx) : Option Nat :=
  let d := c.d
  let quad := d.op == 1 || d.op == 2
  let line := quad || d.op == 3 || d.op == 4 || d.op == 6 || d.op == 7
  let win := d.op == 2 || d.op == 3 || d.op == 4
  firstFail (c.hdrs.map (fun h => (hdrShapeBad h.1, h.2)) ++ [
    (line && d.takesA && hLayout c.a != 0, 1), (quad && hLayout c.b != 0, 2), (line && hLayout c.o != 0, 3),
    (d.op == 1 && (hH c.a != 1), 1), (d.op == 1 && (hH c.b != 1 || hW c.b != hC c.a), 2),
    (d.op == 1 && (hH c.o != 1 || hW c.o != hW c.a || hC c.o != hC c.b), 3),
    (win && c.winOkay && (hH c.o != d.winY.out (hH c.a) || hW c.o != d.winX.out (hW c.a)), 3),
    (d.op == 2 && !d.depthwise && c.taps && hW c.b != d.dimK c.a, 2), (d.op == 2 && !d.depthwise && hC c.o != hC c.b, 3),
    (d.depthwise && (hH c.b != 1 || (c.taps && hW c.b != d.n 32 1 * d.n 33 1) || hC c.b != hC c.a), 2), (d.depthwise && hC c.o != hC c.a, 3),
    ((d.op == 3 || d.op == 4) && hC c.o != hC c.a, 3),
    (d.op == 5 && !d.c2s && (hH c.o != ceilDiv (hH c.a) d.fy || hW c.o != ceilDiv (hW c.a) d.fx || hC c.o != hC c.a * d.fy * d.fx), 3),
    (d.op == 5 && d.c2s && hC c.a % (d.fy * d.fx) == 0 && hC c.o * d.fy * d.fx != hC c.a, 3),
    (quad && intFmt d.fa && decide (131072 < d.dimK c.a), 1)])

/-- Check 0x0B (R122). -/
def Ctx.muBad (c : Ctx) : Bool :=
  let d := c.d
  if d.op = 1 || d.op = 2 then decide (ceilDiv (d.dimM c.o) 16 * 16 < d.mu)
  else if d.op = 6 || d.op = 7 then decide (ceilDiv (hW c.a) 16 * 16 < d.mu)
  else d.f 3 5 0 != 0

/-- Check 0x0C. -/
def Ctx.windowBad (c : Ctx) : Bool :=
  let d := c.d
  (d.op == 2 || d.op == 3 || d.op == 4) &&
    (!c.winOkay || decide (65535 < d.winY.out (hH c.a)) || decide (65535 < d.winX.out (hW c.a)))

/-- Check 0x0D (R186). -/
def Ctx.regroupBad (c : Ctx) : Bool :=
  let d := c.d
  d.op == 5 && (if d.c2s then decide (65535 < hC c.a) || hC c.a % (d.fy * d.fx) != 0 || decide (hH c.a * d.fy < hH c.o) || decide (hW c.a * d.fx < hW c.o)
    else decide (65535 < hC c.a * d.fy * d.fx))

/-- Check 0x0E (R203). DEDUCED, note 64. -/
def hdrClampBad (h : Hdr) : Bool :=
  intFmt (hFmt h) && (List.range (hL h)).any fun e =>
    decide (hSigned h 12 e < fmtMin (hFmt h)) || decide (fmtMax (hFmt h) < hSigned h 14 e) || decide (hSigned h 14 e < hSigned h 12 e)

/-- Check 0x0F. -/
def Ctx.attnBad (c : Ctx) : Bool :=
  let d := c.d
  (d.op == 6 || d.op == 7) &&
    (!posFinite (word (d.n 32 4)) || d.slideW == 0 || decide (131072 < d.slideW) || decide (c.layers ≤ d.layer)
      || decide (d.ringLines < 64) || decide (16384 < d.ringLines) || !bit (word c.units) d.pdma || d.srcStatic == c.served
      || decide (c.heads ≤ d.kvHead) || (!d.srcStatic && d.mask != 0) || (d.srcStatic && (decide (2 < d.mask) || decide (131072 < d.nCtx)))
      || (d.template && d.n 50 2 != 0))

/-- Check 0x10. -/
def Ctx.vectorBad (c : Ctx) : Bool :=
  let d := c.d
  let v := d.vop
  d.op == 8 &&
    (decide (0x1F < v) || d.count == 0 || decide (8388608 < d.count) || d.rows == 0
      || ((decide (v ≤ 6) && !c.hasB) && !(fp32Of d.imm0).finite) || (v == 2 && !(fp32Of d.imm1).finite)
      || ((v == 0x16 || v == 0x17) && !posFinite d.imm0)
      || (v == 0x1D && (!posFinite d.imm0 || !(fp32Of d.imm0).le (.num 1 0)))
      || (v == 0x1B && (d.sortP == 0 || decide (16 < d.sortP) || decide (2 ^ d.sortP < d.count)))
      || (v == 0x1D && (d.sortP == 0 || decide (12 < d.sortP) || decide (2 ^ d.sortP < d.count)))
      || (v == 0x1C && (d.topK == 0 || decide (256 < d.topK) || decide (d.count < d.topK))))

/-- An operand code when a condition holds. -/
def opIf (b : Bool) (k : Nat) : Option Nat := if b then some k else none

/-- The first check that fails, in ascending cause code, with its operand (R363). DEDUCED, note 52. -/
def Ctx.check (c : Ctx) : Option (Nat × Nat) :=
  let d := c.d
  [(1, opIf (crc32c (d.take 60) != word (d.n 60 4)) 0),
   (2, opIf (decide (10 < d.op) || (c.served && d.op == 10) || (d.template && !(c.served && (d.op == 6 || d.op == 7)))) 0),
   (3, c.reserved), (4, c.format), (5, opIf (!c.pairOk) 2), (6, c.mismatch), (7, c.space), (8, c.align),
   (9, firstFail (c.hdrs.map fun h => (hdrBad h.1, h.2))), (10, c.shape), (11, opIf c.muBad 0), (12, opIf c.windowBad 0),
   (13, opIf c.regroupBad 0), (14, firstFail (c.hdrs.map fun h => (hdrClampBad h.1, h.2))), (15, opIf c.attnBad 0),
   (16, opIf c.vectorBad 0), (17, opIf (d.waitGrp == d.sigGrp && d.waitMask &&& d.sigMask != 0) 0),
   (18, opIf (d.wcet == 0 || (c.served && decide (24000 < d.wcet))) 0)].findSome? fun e => e.2.map fun k => (e.1, k)

/-- An OUT header keeps R375 in its own fields (R364, R376). DEDUCED, note 64. -/
def hdrSound (h : Hdr) : Bool := !(hdrReserved h || decide (8 < hFmt h) || hScale h % 128 != 0 || hdrBad h || hdrShapeBad h || hdrClampBad h)

/-- The page DMA units of a stall, as a mask. -/
def Side.pdmaMask (x : Side) (st : Nat) : Nat :=
  ((List.range 4).map fun u => if x.flag (Reg.PDMA_STAT.inst u) 7 && x.field (Reg.PDMA_STAT.inst u) 6 4 == st then 2 ^ u else 0).sum

/-- The inputs of the checks for a descriptor on an engine. -/
def Side.ctx (x : Side) (e : Nat) (r : Run) (d : Desc) : Ctx :=
  { d := d, st := r.stall, served := r.served, duplex := x.flag (Reg.PSQ_CFG.inst r.stall) 1, a := x.hdrIn r.stall e d.aA,
    b := x.hdrIn r.stall e d.aB, o := x.hdrIn r.stall e d.aO, hasB := d.hasB, layers := x.pgLayers r.stall, heads := x.pgHeads r.stall,
    page := x.pgFmt r.stall, units := x.pdmaMask r.stall, rope := x.rd (Reg.BSQ_ROPE_CFG.inst r.stall)
    aOk := spaceOf d.aA == 0 || x.winOk r.stall d.aA 128 false, oOk := spaceOf d.aO == 0 || x.winOk r.stall d.aO 128 false }

end Sys2Proof.Machine
end

