-- ==== Sys2Proof/Machine/Bridge.lean ====
section
/-!
DEFINITION. The companion-bus bridge's shared operations (R612 to R632): windows, byte lanes, acceptance, buffers,
semaphores, far errors.
-/

namespace Sys2Proof.Machine

/-- Change what the bridge holds; CBB_STAT shows it. -/
def Side.modCbb (x : Side) (f : CbbSt → CbbSt) : Side :=
  let c := f x.me.cbb
  let posted := c.queue.filter fun r => r.kind == .posted
  let lock := match c.queue with
    | r :: _ => r.cblock && (c.cycle.isSome || r.second)
    | [] => false
  let x := { x with me := { x.me with cbb := c } }
  x.wr Reg.CBB_STAT (pack [(0, nat1 c.cycle.isSome), (1, ((c.bufs.map fun e => 2 ^ e.1).sum) % 256), (9, posted.length),
    (14, nat1 lock)])

/-- Field [hi:lo] of a register of window w. -/
def Side.cbbWin (x : Side) (r : Reg) (w hi lo : Nat) : Nat := x.field (r.el 0x10 w) hi lo

/-- Window w is enabled: EN is set and its SIZE is not 0. -/
def Side.winOn (x : Side) (w : Nat) : Bool := x.cbbWin Reg.CBB_WIN_CFG w 0 0 == 1 && x.cbbWin Reg.CBB_WIN_NEAR w 24 12 != 0

/-- The bridge takes near requests: CBB_CTRL.EN is set and the page is neither disabled nor quiesced. DEDUCED, note 111. -/
def Side.cbbOn (x : Side) : Bool :=
  x.pageOn Reg.CBB_CTRL && x.flag Reg.CBB_CTRL 0 && x.flag (headReg T.CBB 0 Reg.BLK_CTRL) 0
    && !x.flag (headReg T.CBB 0 Reg.BLK_CTRL) 1

/-- The enabled window that covers [off, off+len) of the aperture (R613). -/
def Side.winAt (x : Side) (off len : Nat) : Option Nat :=
  (List.range 16).find? fun w =>
    let b := x.cbbWin Reg.CBB_WIN_NEAR w 11 0 * 0x10000
    x.winOn w && decide (b ≤ off) && decide (off + len ≤ b + x.cbbWin Reg.CBB_WIN_NEAR w 24 12 * 0x10000)

/-- An access is refused (R614, R616, R618) through window w: the initiator, the direction, the length, the alignment
that DATA_INVARIANT asks for, a reserved lane rule. DEDUCED, note 111. -/
def Side.winRefuses (x : Side) (w i off len : Nat) (write : Bool) : Bool :=
  let cfg := x.rd ((Reg.CBB_WIN_CFG : Reg).el 0x10 w)
  !bit cfg (8 + i) || (write && !bit cfg 7) || (!write && !bit cfg 6) || len == 0 || decide (64 < len)
    || fld cfg 2 1 == 3
    || (fld cfg 2 1 == 2 && !((len == 1 || len == 2 || len == 4) && off % len == 0))

/-- The request of an access through window w. -/
def Side.cbbReq (x : Side) (kind : CbbKind) (w i off len : Nat) (data : List Byte) : CbbReq :=
  { kind := kind, init := i, win := w, cs := x.cbbWin Reg.CBB_WIN_FAR w 29 28, off := off
    far := x.cbbWin Reg.CBB_WIN_FAR w 27 16 * 0x10000 + off - x.cbbWin Reg.CBB_WIN_NEAR w 11 0 * 0x10000
    len := len, lanes := x.cbbWin Reg.CBB_WIN_CFG w 2 1, data := data, pos := 0, got := [], err := false, buf := none
    cblock := false, sem := false, second := false }

/-- A refused access (R614): an error response, no far cycle. -/
def Side.noWindow (x : Side) (i : Nat) : Side :=
  ((x.count Ct.CBB_NO_WINDOW).raise Ev.CBB_NO_WINDOW).emit (.nearError i)

/-- A request is answered with a retry. -/
def Side.cbbRetry (x : Side) (i : Nat) : Side := (x.count Ct.CBB_RETRIES).emit (.nearRetry i)

/-- The semaphore of chip select c is held by another initiator (R626). -/
def Side.semBlocks (x : Side) (c i : Nat) : Bool :=
  x.me.cbb.sem.any fun e => e.1 == c && e.2.1 != i

/-- The holder of the semaphore of chip select c. -/
def CbbSt.holder (b : CbbSt) (c : Nat) : Option Nat := (b.sem.find? fun e => e.1 == c).map fun e => e.2.1

/-- Posted writes in the queue. -/
def CbbSt.posted (b : CbbSt) : Nat := (b.queue.filter fun r => r.kind == .posted).length

/-- The lowest free read buffer. -/
def CbbSt.freeBuf (b : CbbSt) : Option Nat := (List.range 8).find? fun k => !b.bufs.any fun e => e.1 == k

/-- Bytes of a request in its next word cycle: as many as the word and the request hold. -/
def CbbReq.step (r : CbbReq) : Nat := min (r.len - r.pos) (4 - (r.off + r.pos) % 4)

/-- The lane that near byte j of a word cycle takes, for bytes at offset k of their word, w of them (R617). -/
def laneOf (rule k w j : Nat) : Nat :=
  if rule = 1 then 3 - (k + j) else if rule = 2 then 4 - k - w + j else k + j

/-- The lanes of the next word cycle, in near byte order. -/
def CbbReq.cycleLanes (r : CbbReq) : List Nat :=
  (List.range r.step).map fun j => laneOf r.lanes ((r.off + r.pos) % 4) r.step j

/-- A CBD word with bytes placed in lanes. -/
def toLanes : List Nat → List Byte → Word
  | l :: ls, b :: bs => toLanes ls bs ||| (b.zeroExtend 32 <<< (8 * l))
  | _, _ => 0

/-- The bytes that lanes carry. -/
def fromLanes (w : Word) (ls : List Nat) : List Byte := ls.map fun l => (w >>> (8 * l)).truncate 8

/-- The value an atomic writes, if it writes one (R624). -/
def atomicResult (op : AtomicOp) (old : Word) : Option Word :=
  match op with
  | .swap v => some v
  | .cas c v => if old = c then some v else none
  | .add v => some (old + v)

/-- The request's cycle is a write. -/
def CbbReq.writes (r : CbbReq) : Bool :=
  match r.kind with
  | .posted => true
  | .open_ => true
  | .read => false
  | .atomic _ => r.second

/-- Writes held at the fabric port enter the posted queue while it has room (R620). -/
def CbbSt.unhold (b : CbbSt) : List CbbReq → CbbSt
  | [] => { b with held := [] }
  | r :: t => if b.posted < 16 then CbbSt.unhold { b with queue := b.queue ++ [r] } t else { b with held := r :: t }

/-- The responses to the held writes that enter. -/
def CbbSt.entering (b : CbbSt) : List CbbReq := b.held.take (16 - b.posted)

/-- A request leaves the queue: a posted entry's place is taken by a held write, which completes at the near side. -/
def Side.cbbPop (x : Side) : Side :=
  let x := x.modCbb fun b => { b with queue := b.queue.tail }
  let l := x.me.cbb.entering
  l.foldl (fun x r => x.emit (.nearDone r.init [])) (x.modCbb fun b => b.unhold b.held)

/-- A far error (R629, R630): counted; the first since EVT_CBB_FAR_ERR was cleared is recorded. Cause 1 TIMEOUT,
2 FAR_ERR. DEDUCED, note 112. -/
def Side.farError (x : Side) (r : CbbReq) (cause : Nat) : Side :=
  let x := x.count (if cause = 1 then Ct.CBB_TIMEOUTS else Ct.CBB_FAR_ERRORS)
  let x := if x.flag (headReg T.CBB 0 Reg.EVT_RAW) Ev.CBB_FAR_ERR.bit then x
    else (x.wrN Reg.CBB_ERR_ADDR ((r.far + r.pos) / 4 * 4)).wr Reg.CBB_ERR_INFO
      (pack [(0, r.win), (4, r.cs), (6, r.init), (9, nat1 r.writes), (10, cause)])
  x.raise Ev.CBB_FAR_ERR

/-- An initiator restarts (R631): its read buffers are freed and its semaphores released; its reads and atomics that
have made no far cycle are dropped, and its writes that the bridge still held; its posted writes stay. -/
def Side.cbbRestart (x : Side) (i : Nat) : Side :=
  x.modCbb fun b => { b with
    queue := match b.queue with
      | [] => []
      | h :: t =>
        let mine := fun r : CbbReq => r.init == i && r.buf.isSome
        (if mine h && b.cycle.isNone && h.pos == 0 && !h.second then [] else [if h.init = i then { h with buf := none } else h])
          ++ t.filter fun r => !mine r
    bufs := b.bufs.filter fun e => e.2.init != i
    sem := b.sem.filter fun e => e.2.1 != i
    held := b.held.filter fun r => r.init != i }

/-- The initiator number of a glove pair (R612): pairs are 0 FP-HOST, 1 FP-PLAN, 2 FP-SAFE, 3 FP-GFX. -/
def pairInit (p : Nat) : Nat := if p = 0 then 2 else if p = 1 then 3 else if p = 2 then 1 else 4

end Sys2Proof.Machine
end

