-- ==== Sys2Proof/Machine/SafeBlock.lean ====
section
/-!
DEFINITION. The SAFE block and the glove pairs: readiness, kicks, release, crashes and restarts, lockstep mismatches,
online self-test, coverage, fault messages (R723 to R770).
-/

namespace Sys2Proof.Machine

/-! ## Glove pairs (R723 to R727, R743 to R749) -/

/-- What the model holds of pair p. -/
def Side.pair (x : Side) (p : Nat) : GlvSt := Tbl.get GlvSt.zero x.me.glv p

/-- Change it. -/
def Side.modPair (x : Side) (p : Nat) (f : GlvSt → GlvSt) : Side :=
  { x with me := { x.me with glv := x.me.glv.put p (f (x.pair p)) } }

/-- RM_STATE.MODE (R685). -/
def Side.mode (x : Side) : Nat := x.hfield (x.rm Reg.RM_STATE) 3 0

/-- Set RM_STATE.MODE. -/
def Side.setMode (x : Side) (m : Nat) : Side := x.hsetField (x.rm Reg.RM_STATE) 3 0 m

/-- Set RM_CAUSE (R686). -/
def Side.setCause (x : Side) (c : Nat) : Side := x.hsetField (x.rm Reg.RM_CAUSE) 7 0 c

/-- Rhordo runs (R685). -/
def Side.rhordoRuns (x : Side) : Bool := x.mode == 5 || x.mode == 6 || x.mode == 7

/-- A pair crashes (R723, R724): its memory is wiped (R423), the crash is recorded, the restart raised and counted; the fourth crash within 10 s of
MT is not restarted and enters SAFE with class GLV_LIMIT (R727). DEDUCED, note 35. -/
def Side.crashPair (x : Side) (p cause : Nat) : Side :=
  let recent := x.mt :: (x.pair p).crashes.filter fun t => decide (x.mt < t + 10 ^ 10)
  let x := x.modPair p fun g => { g with crashes := recent, cause := cause, down := true }
  let x := { x with me := { x.me with srams := x.me.srams.drop p } }
  let x := x.hwr (x.rm Reg.RM_RESTART_INFO) (pack [(0, p), (2, cause)])
  let x := x.hwr64 (x.rm Reg.RM_RESTART_VT) x.vt
  if recent.length ≥ 4 then
    ((x.setField (Reg.GLV_STAT.inst p) 1 0 1).raise Ev.GLV_RESTART_LIMIT p).fireEv 3 Ev.GLV_RESTART_LIMIT p
  else
    let x := (((x.setField (Reg.GLV_STAT.inst p) 1 0 3).raise Ev.GLV_RESTART p)).countRm Ct.RM_RESTARTS p
    let x := x.cbbRestart (pairInit p)
    let x := if p = 0 && (x.mode = 5 || x.mode = 6) then x.setMode 7 else x
    if p = 1 then
      (List.range 8).foldl (fun x i => if x.field (Reg.BSQ_STAT.inst i) 2 0 = 1 then x.setField (Reg.BSQ_STAT.inst i) 2 0 2 else x) x
    else x

/-- A pair runs: CTRL is powered and its STATE is RUN. -/
def Side.pairUp (x : Side) (p : Nat) : Bool := x.domOn 20 && x.field (Reg.GLV_STAT.inst p) 1 0 == 0

/-- GLOVE_PAIR_CRASH (R723): an exception or a parity error. -/
def execGlovePairCrash (n : Now) (d : Ch) (p : Fin 4) (c : CrashCause) (s : State) : Host.Outcome State Fault Refusal :=
  onLive n d (fun x => if x.pairUp p then x.crashPair p (match c with | .exception => 1 | .parity => 5) else x) s

/-- GLV_WATCHDOG_EXPIRY (R723): not within 1 ms of the pair's return, which services its watchdog. DEDUCED, note 35. -/
def execGlvWatchdogExpiry (n : Now) (d : Ch) (p : Fin 4) (s : State) : Host.Outcome State Fault Refusal :=
  onLive n d (fun x => if x.pairUp p && decide ((x.pair p).wdMt + 1000000 ≤ x.mt) then x.crashPair p 2 else x) s

/-- GLV_LOCKUP (R723). -/
def execGlvLockup (n : Now) (d : Ch) (p : Fin 4) (s : State) : Host.Outcome State Fault Refusal :=
  onLive n d (fun x => if x.pairUp p then x.crashPair p 3 else x) s

/-- Opcodes that are executed again after a restart of FP-HOST (R708, R725). -/
def idempotent (op : Nat) : Bool := [0x00, 0x05, 0x07, 0x08, 0x09, 0x0B].contains op

/-- Opcodes that FP-PLAN carries out (R310, R450). -/
def planOp (op : Nat) : Bool := [0x01, 0x02, 0x03].contains op

/-- Complete RESTARTED the commands of a function that `f` selects (R725). -/
def Side.restartCmds (x : Side) (sel : Cmd → Bool) (f : Nat) : Side :=
  ((x.fn f).accepted.filter sel).foldl (fun x c => (x.complete f c 0x08).countRm Ct.RM_COMMANDS_RESTARTED) x

/-- The causes of a class that a condition clears (R736). -/
def Side.clearCauses (x : Side) (cls : Nat) (sel : Trigger → Bool) : Side :=
  x.modSafe fun s => { s with causes := s.causes.map fun c => if c.1.cls = cls && sel c.1 then (c.1, true) else c }

/-- A removal that FP-PLAN's restart interrupts is not made: the stall is again what it was, or HALTED where safe state or a
fenced engine halts it meanwhile (R310). DEDUCED, note 150. -/
def Side.undoRemove (x : Side) (st : Nat) : Side :=
  if x.psq st != 3 || (x.stl st).remover.isNone then x
  else
    let was := (x.stl st).drainFrom
    let x := (x.modStl st fun s => { s with remover := none, drained := false }).setField (Reg.PSQ_STAT.inst st) 2 0 was
    if !x.served st && (x.engines st).any fun e => x.flag (Reg.TE_FENCE.inst e) 0 then
      (x.setField (Reg.PSQ_STAT.inst st) 2 0 4).setField (Reg.PSQ_STAT.inst st) 18 16 1
    else if x.field Reg.SAFE_STAT 2 0 = 2 then x.haltStall st else x

/-- What the return of a pair settles (R310, R725, R726, R744). DEDUCED, note 35. -/
def Side.pairReturns (x : Side) (p : Nat) : Side :=
  let x := (x.setField (Reg.GLV_STAT.inst p) 1 0 0).modPair p fun g => { g with down := false, wdMt := x.mt }
  let x := x.clearCauses 1 fun t => t.inst == p
  match p with
  | 0 =>
    let x := if x.mode = 7 then x.setMode (if (x.fn 0).rcb.isSome then 6 else 5) else x
    (List.range 17).foldl (Side.restartCmds · fun c => !c.handed && !idempotent c.op) x
  | 1 =>
    let x := (List.range 8).foldl (fun x i =>
      if x.field (Reg.BSQ_STAT.inst i) 2 0 = 2 then x.setField (Reg.BSQ_STAT.inst i) 2 0 1 else x) x
    let x := (List.range 8).foldl Side.undoRemove x
    (List.range 17).foldl (Side.restartCmds · fun c => c.handed && planOp c.op && (!c.fixed || c.op == 0x02)) x
  | 2 => x.clearCauses 2 fun _ => true
  | _ => (List.range 17).foldl (Side.restartCmds · fun c => c.handed && c.op == 0x06 && !c.fixed) x

/-- A pair has disagreed at a port. -/
def Side.pairMismatch (p : Fin 4) (port : Fin 6) (x : Side) : Side :=
  let x := (x.setField (Reg.GLV_STAT.inst p) 1 0 2).modPair p fun g => { g with down := true }
  let x := (x.wr64 (Reg.GLV_MISMATCH_VT.inst p) x.vt).wrN (Reg.GLV_MISMATCH_PORT.inst p) port.val
  ((x.count Ct.GLV_MISMATCHES p).raise Ev.GLV_MISMATCH p).fireEv 1 Ev.GLV_MISMATCH p

/-- GLV_MISMATCH (R743, R744): the pair halts and tests itself; SAFE is entered with class GLV_MISMATCH. -/
def execGlvMismatch (n : Now) (d : Ch) (p : Fin 4) (port : Fin 6) (s : State) : Host.Outcome State Fault Refusal :=
  onLive n d (fun x =>
    if !x.pairUp p then x else x.pairMismatch p port) s

/-- A pair is marked DEGRADED, with the core that failed (R744, R745). DEDUCED, note 36. -/
def Side.degrade (x : Side) (p : Nat) (checker : Bool) : Side :=
  let x := ((x.setField (Reg.GLV_STAT.inst p) 1 0 1).setFlag (Reg.GLV_STAT.inst p) 2 true).setFlag (Reg.GLV_STAT.inst p) 3 checker
  ((x.setFlag Reg.SAFE_STAT (12 + p) true).modPair p fun g => { g with down := true }).raise Ev.GLV_DEGRADED p

/-- A pair has tested itself. -/
def Side.pairTested (p : Fin 4) (mainPass checkerPass : Bool) (x : Side) : Side :=
  let x := (x.wr (Reg.GLV_ST_RESULT.inst p) (pack [(0, nat1 mainPass), (1, nat1 checkerPass), (2, 1)])).count Ct.GLV_SELFTESTS p
  if mainPass && checkerPass then (x.count Ct.GLV_TRANSIENTS p).crashPair p 4
  else (x.degrade p mainPass).modSafe fun s => { s with resetDue := true }

/-- GLV_SELFTEST_DONE (R744): both cores pass, and the pair restarts with cause MISMATCH; or it is DEGRADED and a fault
reset is due. -/
def execGlvSelftestDone (n : Now) (d : Ch) (p : Fin 4) (mainPass checkerPass : Bool) (s : State) :
    Host.Outcome State Fault Refusal :=
  onLive n d (fun x =>
    if x.field (Reg.GLV_STAT.inst p) 1 0 != 2 then x else x.pairTested p mainPass checkerPass) s

/-- Debug of the glove pairs is open (R796, R801). -/
def Side.debugOpen (x : Side) : Bool :=
  let lc := x.field Reg.HBX_STAT 2 0
  lc == 0 || lc == 1 || (lc == 3 && x.flag Reg.HBX_STAT 5)

/-- DEBUG_ACCESS (R748, R749, R801): an attempt on a closed unit is counted; each action on the main core is replayed
into the checker, so that both stay equal. -/
def execDebugAccess (n : Now) (d : Ch) (p : Fin 4) (act : DebugAct) (s : State) : Host.Outcome State Fault Refusal :=
  onLive n d (fun x => match act with
    | .hatbox => if x.field Reg.HBX_STAT 2 0 = 0 then x else x.count Ct.HBX_DEBUG_DENIED
    | .attach => if x.debugOpen then x.setFlag (Reg.GLV_STAT.inst p) 4 true else x.count Ct.HBX_DEBUG_DENIED
    | .halt => if x.debugOpen then x.modPair p fun g => { g with dbgHalt := true } else x.count Ct.HBX_DEBUG_DENIED
    | .resume => if x.debugOpen then x.modPair p fun g => { g with dbgHalt := false } else x.count Ct.HBX_DEBUG_DENIED
    | .other => if x.debugOpen then x else x.count Ct.HBX_DEBUG_DENIED) s

/-! ## SAFE page (R730 to R740) -/

/-- SAFE_READY (R730): ends INIT; ignored in any other state. -/
def execSafeReady (n : Now) (d : Ch) (w : Init) (v : Word) (s : State) : Host.Outcome State Fault Refusal :=
  onLive n d (fun x => x.access w Reg.SAFE_READY fun x =>
    if bit v 0 && x.safeState == 0 then
      (x.setField Reg.SAFE_STAT 2 0 1).modSafe fun s => { s with faultLow := false }
    else x) s

/-- SAFE_ENTER (R731): class 0x00 or a reserved class enters with class POLICY. -/
def execSafeEnter (n : Now) (d : Ch) (w : Init) (v : Word) (s : State) : Host.Outcome State Fault Refusal :=
  onLive n d (fun x => x.access w Reg.SAFE_ENTER fun x =>
    let c := fld v 7 0
    x.fire { cls := if c = 0 || c > 0x0F then 0x0F else c, block := 0, inst := 0, ev := 0, stream := 0 }) s

/-- Every cause in force is recoverable and has cleared (R736). DEDUCED, note 29. -/
def Side.canRelease (x : Side) : Bool :=
  x.me.safe.causes.all (fun c => recoverable c.1.cls && c.2) && !x.me.safe.resetDue

/-- SAFE_RELEASE (R736): requests the release at the next frame boundary, or is ignored with its event. -/
def execSafeRelease (n : Now) (d : Ch) (w : Init) (v : Word) (s : State) : Host.Outcome State Fault Refusal :=
  onLive n d (fun x => x.access w Reg.SAFE_RELEASE fun x =>
    if !bit v 0 || x.safeState != 2 then x
    else if x.canRelease then x.modSafe fun s => { s with release := true }
    else x.raise Ev.SAFE_CFG_ERR) s

/-- A stall HALTED by safe state returns (R736). -/
def Side.resumeStall (x : Side) (i : Nat) : Side :=
  let x := if x.field (Reg.PSQ_STAT.inst i) 2 0 = 4 && x.field (Reg.PSQ_STAT.inst i) 18 16 = 2 then
      (x.setField (Reg.PSQ_STAT.inst i) 2 0 2).setField (Reg.PSQ_STAT.inst i) 18 16 0 else x
  if x.field (Reg.BSQ_STAT.inst i) 2 0 = 4 then x.setField (Reg.BSQ_STAT.inst i) 2 0 (x.serveState i) else x

/-- The release at a frame boundary (R736); a trigger that came since the request wins (R737). DEDUCED, note 26. -/
def Side.releaseSafe (x : Side) : Side :=
  if x.safeState = 2 && x.me.safe.release && x.canRelease then
    let cls := x.field Reg.SAFE_STAT 10 3
    let x := (List.range 8).foldl Side.resumeStall (x.setField Reg.SAFE_STAT 2 0 1)
    let x := (x.modSafe fun s => { s with release := false, causes := [], faultLow := false }).count Ct.SAFE_RELEASES
    (x.faultMessage 1 { cls := cls, block := 0, inst := 0, ev := 0, stream := 0 }).raise Ev.SAFE_RELEASE
  else x.modSafe fun s => { s with release := false }

/-- SAFE_KICK (R740): a kick; a SAFE_ABSENT cause clears, since FP-SAFE is back. -/
def execSafeKick (n : Now) (d : Ch) (w : Init) (v : Word) (s : State) : Host.Outcome State Fault Refusal :=
  onLive n d (fun x => x.access w Reg.SAFE_KICK fun x =>
    if bit v 0 then
      (x.modSafe fun s => { s with slotsNoKick := 0, kickMt := x.mt }).clearCauses 2 fun _ => true
    else x) s

/-- The kick rule is in force: Rhordo runs, and no debugger holds FP-SAFE halted under KICK_DEBUG (R740). -/
def Side.kickRule (x : Side) : Bool :=
  x.rhordoRuns && !(x.flag Reg.SAFE_CFG 9 && (x.pair 2).dbgHalt)

/-- The limit has passed: two slots without a kick, or SAFE_KICK_MAX of MT while the cadence is STOPPED (R740). -/
def Side.kickLate (x : Side) : Bool :=
  if x.field Reg.CAD_STAT 1 0 = 0 then
    decide (clampN 100000 10000000 (x.rdN Reg.SAFE_KICK_MAX) ≤ x.mt - x.me.safe.kickMt)
  else decide (2 ≤ x.me.safe.slotsNoKick)

/-- FP-SAFE has not kicked in time: counted, raised, SAFE is entered with class SAFE_ABSENT (R740). DEDUCED, note 29. -/
def Side.kickMissed (x : Side) : Side :=
  let x := x.modSafe fun s => { s with slotsNoKick := 0, kickMt := x.mt }
  ((x.count Ct.SAFE_KICK_MISSES).raise Ev.SAFE_KICK).fireEv 2 Ev.SAFE_KICK 0

/-- SAFE_KICK_TIMEOUT (R740). -/
def execSafeKickTimeout (n : Now) (d : Ch) (s : State) : Host.Outcome State Fault Refusal :=
  onLive n d (fun x =>
    if x.kickRule && x.kickLate then x.kickMissed else x) s

/-- SAFE_RELEASE_MAX_EXPIRY (R738). -/
def execSafeReleaseMaxExpiry (n : Now) (d : Ch) (s : State) : Host.Outcome State Fault Refusal :=
  onLive n d (fun x =>
    if x.safeState = 2 && decide (clampN 1 1000 (x.field Reg.SAFE_CFG 23 10) * 1000000 ≤ x.mt - x.me.safe.enterMt) then
      x.modSafe fun s => { s with resetDue := true }
    else x) s

/-! ## The fault message (R767 to R770) -/

/-- The 8 bytes of the CAN form (R768). DEDUCED, note 34. -/
def canMsg (d : Ch) (m : FaultMsg) : List Byte :=
  let w1 := m.words.getD 1 0
  let b := [BitVec.ofNat 8 (d.die + 2 * m.kind), BitVec.ofNat 8 m.cls] ++ natBytes 2 (fld w1 15 0)
    ++ [BitVec.ofNat 8 (fld w1 23 16), BitVec.ofNat 8 (m.words.getD 8 0).toNat]
  b ++ natBytes 2 ((crc32c b).toNat % 2 ^ 16)

/-- The peer traffic is cut: the hub is down, or the host link is lost (R16, R31, R637). -/
def Hub.peerCut (h : Hub) : Bool := h.down || h.linkLost

/-- The lane of the hub toward a channel. -/
def Hub.lane (h : Hub) : Ch → PeerLane
  | .a => h.toA
  | .b => h.toB

/-- Change a lane. -/
def Hub.modLane (h : Hub) (d : Ch) (f : PeerLane → PeerLane) : Hub :=
  match d with
  | .a => { h with toA := f h.toA }
  | .b => { h with toB := f h.toB }

/-- A lane already holds 16 messages (R677). DEDUCED, note 88. -/
def PeerLane.full (l : PeerLane) : Bool := decide (16 ≤ l.flight.length + l.queue.length)

/-- The mailbox message of a payload (R677): TYPE, LEN, sequence, the sender's VT, payload, check code. -/
def mailboxWords (typ seq vt : Nat) (payload : List Word) : List Word :=
  let l := [pack [(0, typ), (8, 48), (16, seq % 2 ^ 16)]] ++ words64 vt ++ (payload ++ List.replicate 12 0).take 12
  l ++ [crc32c (wordsBytes l)]

/-- The messages with the first one that waits for an exit no longer waiting; a message that waits for none is done. -/
def takeExit (ex : FaultMsg → Bool) (clr : FaultMsg → FaultMsg) : List FaultMsg → Option (FaultMsg × List FaultMsg)
  | [] => none
  | m :: t =>
    if ex m then some (clr m, clr m :: t)
    else (takeExit ex clr t).map fun r => (r.1, m :: r.2)

/-- A message leaves an exit: late ones are counted once (R770); one that has left every exit is sent. DEDUCED, note 34. -/
def Side.messageLeft (x : Side) (m : FaultMsg) (l : List FaultMsg) : Side :=
  let slot := x.me.cad.period / max 1 x.me.cad.slots
  let late := !m.late && decide (m.mt + slot < x.mt)
  let x := if late then x.count Ct.SAFE_MSG_LATE else x
  let doneMsg := !(m.eth || m.can || m.mbx)
  let l := l.map fun k => if k.words = m.words then { k with late := k.late || late } else k
  let x := x.modSafe fun s => { s with
    msgs := if doneMsg then l.filter fun k => k.words != m.words else l
    enterSent := s.enterSent || (doneMsg && m.kind == 0) }
  if doneMsg then x.count Ct.SAFE_MSGS_SENT else x

/-- The publish context of the fault messages. -/
def Side.msgCtx (x : Side) : Nat := x.field Reg.SAFE_MSG_CFG 7 0

/-- The egress ports of that context. -/
def Side.msgPorts (x : Side) : Nat := imgField x.me.net.img (imgCtx x.msgCtx) 0 25 18

/-- The CAN controller of the fault messages. -/
def Side.msgCan (x : Side) : Nat := x.field Reg.SAFE_MSG_CFG 12 9

/-- An exit takes a message now (R767, R770): the context is valid and a port of its mask has its link; the controller is on
its bus; the mailbox has room. -/
def Side.exitOpen (x : Side) (e : MsgExit) : Bool :=
  match e with
  | .eth => x.netLoaded && imgField x.me.net.img (imgCtx x.msgCtx) 0 0 0 == 1 && x.me.net.ok (imgCtx x.msgCtx)
      && (maskPorts x.msgPorts).any x.portUp
  | .can => x.canOn x.msgCan && decide ((x.canQueue x.msgCan).length < 64)
  | .mailbox => !x.hub.peerCut && !(x.hub.lane x.d.peer).full

/-- A message goes out by an exit (R767): framed as R591 gives with the record in place of header and payload, at traffic
class 7; as a classical CAN frame; as mailbox TYPE 0x01. The sequence number of an R-TAG is a free value. DEDUCED,
note 34. -/
def Side.sendMessage (x : Side) (e : MsgExit) (m : FaultMsg) : Side :=
  match e with
  | .eth =>
    let (v, x) := x.draw
    let f := x.resultFrame x.msgCtx (wordsBytes m.words)
    (x.enqueue 8 { frame := { f with rtag := f.rtag.map fun _ => v.toNat % 65536 }, cls := 7, mask := x.msgPorts, res := none
                   in_ := none, held := false }).emit (.faultMsg x.msgCtx m.words)
  | .can => x.canEnqueue x.msgCan { fmt := .classical, ide := x.flag Reg.SAFE_MSG_CFG 14, id := x.field Reg.SAFE_CAN_ID 28 0
                                    rtr := false, brs := false, data := canMsg x.d m }
  | .mailbox =>
    let msg := mailboxWords 1 x.me.safe.msgSeq x.vt m.words
    { x with hub := x.hub.modLane x.d.peer fun q => { q with flight := q.flight ++ [(msg, x.stamp.valid)] } }

/-- The oldest message that waits for an exit, no longer waiting for it, with the list so changed. -/
def takeMessage : MsgExit → List FaultMsg → Option (FaultMsg × List FaultMsg)
  | .eth => takeExit (·.eth) fun m => { m with eth := false }
  | .can => takeExit (·.can) fun m => { m with can := false }
  | .mailbox => takeExit (·.mbx) fun m => { m with mbx := false }

/-- FAULT_MESSAGE_SEND (R767, R770): the oldest message that waits for an exit leaves by it, once the exit takes it. -/
def execFaultMessageSend (n : Now) (d : Ch) (e : MsgExit) (s : State) : Host.Outcome State Fault Refusal :=
  onLive n d (fun x => match takeMessage e x.me.safe.msgs with
    | some (m, l) => if x.exitOpen e then (x.sendMessage e m).messageLeft m l else x
    | none => x) s

/-! ## Online self-test (R756 to R766) -/

/-- A unit's number: engines 0–7, yard banks 8–39, page DMA units 40–43, fusion block 44. -/
def unitIx : TestUnit → Nat
  | .te i => i.val
  | .bank i => 8 + i.val
  | .pdma i => 40 + i.val
  | .fus => 44

/-- The stall that uses a unit, if any. -/
def Side.unitStall (x : Side) : TestUnit → Option Nat
  | .te i => (List.range 8).find? fun s => x.field (Reg.PSQ_STAT.inst s) 2 0 != 0 && x.flag (Reg.PSQ_ENGINES.inst s) i
  | .bank i => (List.range 8).find? fun s => x.field (Reg.PSQ_STAT.inst s) 2 0 != 0 && x.flag (Reg.PSQ_YARD_BANKS.inst s) i
  | .pdma i => if x.flag (Reg.PDMA_STAT.inst i) 7 then some (x.field (Reg.PDMA_STAT.inst i) 6 4) else none
  | .fus => if x.flag Reg.FUS_CTRL 0 then some (x.field Reg.FUS_STALL 2 0) else none

/-- Whether a stall is fixed (R314: KIND 0). -/
def Side.stallFixed (x : Side) (s : Nat) : Bool := !x.flag (Reg.PSQ_STAT.inst s) 3

/-- The slices a unit needs in a coverage period (R757). -/
def unitSlices : TestUnit → Nat
  | .te _ => 24
  | .bank _ => 1
  | .pdma _ => 2
  | .fus => 4

/-- A unit is fenced (R742, R762). -/
def Side.unitFenced (x : Side) : TestUnit → Bool
  | .te i => x.flag (Reg.TE_FENCE.inst i) 0
  | .bank i => x.flag Reg.SAFE_BANK_FENCE i
  | .pdma i => x.flag Reg.SAFE_UNIT_FENCE i
  | .fus => x.flag Reg.SAFE_UNIT_FENCE 4

/-- Fence an engine with a cause (R151, R315): its fixed stall is HALTED with cause 1, or goes on to EMPTY where it is being
removed (R309); a fault message of class ENGINE_FENCE goes out (R741). DEDUCED, note 33. -/
def Side.fenceEngine (x : Side) (e cause : Nat) : Side :=
  let x := ((x.fenceStop e).wr (Reg.TE_FENCE.inst e) (pack [(0, 1), (1, cause)])).raise Ev.TE_FENCED e
  let st := (List.range 8).find? fun s => x.field (Reg.PSQ_STAT.inst s) 2 0 != 0 && x.flag (Reg.PSQ_ENGINES.inst s) e
  match st with
  | some s =>
    let x := x.faultMessage 3 { cls := 6, block := T.TE, inst := e, ev := Ev.TE_FENCED.bit, stream := s }
    if x.stallFixed s then
      let x := if x.field (Reg.PSQ_STAT.inst s) 2 0 = 3 then x.modStl s fun t => { t with drained := true }
        else x.setField (Reg.PSQ_STAT.inst s) 2 0 4
      (x.setField (Reg.PSQ_STAT.inst s) 18 16 1).raise Ev.PSQ_HALT s
    else x
  | none => x.faultMessage 3 { cls := 6, block := T.TE, inst := e, ev := Ev.TE_FENCED.bit, stream := 0 }

/-- Mark a unit other than an engine fenced (R742, R762); EN of a fenced fusion block is 0. -/
def Side.markUnit (x : Side) : TestUnit → Side
  | .te i => x.wr (Reg.TE_FENCE.inst i) (pack [(0, 1), (1, 3)])
  | .bank i => x.setFlag Reg.SAFE_BANK_FENCE i true
  | .pdma i => x.setFlag Reg.SAFE_UNIT_FENCE i true
  | .fus =>
    let x := if x.fusOn then x.fusFresh else x
    (x.setFlag Reg.SAFE_UNIT_FENCE 4 true).setFlag Reg.FUS_CTRL 0 false

/-- The quad that the next slice of a unit tests: the first that a mismatch of the engine has asked for, ahead of the
routine slices (R148, R756). DEDUCED, note 140. -/
def Side.targetQuad (x : Side) : TestUnit → Option Nat
  | .te e => (x.eng e).slices.head?
  | _ => none

/-- A slice starts on a unit; an engine is in SELFTEST while its slice runs (R114). DEDUCED, note 31. -/
def Side.startSlice (u : TestUnit) (x : Side) : Side :=
  let x := x.modSafe fun s => { s with slices := s.slices ++ [(u, x.mt, x.targetQuad u)] }
  match u with
  | .te e => x.setTe e 3
  | _ => x

/-- The reaction of class UNIT_FENCE (R741) for the stall `user` that uses the unit: a fixed stall that uses the unit takes the channel to SAFE and a fault
reset; a served stall is removed (its plan sequencer enters DRAINING). DEDUCED, note 32. -/
def Side.unitFenceReaction (x : Side) (user : Option Nat) : Side :=
  match user with
  | some s =>
    if x.stallFixed s then
      x.fire { cls := 7, block := T.SAFE, inst := 0, ev := Ev.SAFE_UNIT_FENCE.bit, stream := s }
    else
      x.setField (Reg.PSQ_STAT.inst s) 2 0 3
  | none => x

/-- A slice has ended on a unit. DEDUCED, note 31. -/
def Side.endSlice (u : TestUnit) (pass : Bool) (x : Side) : Side :=
  let quad := (x.me.safe.slices.find? fun e => e.1 == u).bind (·.2.2)
  let x := x.modSafe fun s => { s with
    slices := s.slices.filter fun e => e.1 != u
    sliceCount := s.sliceCount.put (unitIx u) (Tbl.get 0 s.sliceCount (unitIx u) + 1) }
  let x := x.count Ct.SAFE_SLICES_RUN
  let x := match u with
    | .te e => (if x.teState e = 3 then (x.setTe e 0).promote e else x).modEng e fun g => { g with slices := g.slices.filter fun q => quad != some q }
    | _ => x
  if pass then x
  else
    let x := x.count Ct.SAFE_SLICES_FAILED
    match u with
    | .te i => x.fenceEngine i 2
    | u => ((x.markUnit u).raise Ev.SAFE_UNIT_FENCE).unitFenceReaction (x.unitStall u)

/-- SELFTEST_SLICE_END (R762): a slice that passes counts toward coverage; one that fails fences its unit at once. -/
def execSelftestSliceEnd (n : Now) (d : Ch) (u : TestUnit) (pass : Bool) (s : State) : Host.Outcome State Fault Refusal :=
  onLive n d (fun x =>
    if !x.me.safe.slices.any (fun e => e.1 == u) then x else x.endSlice u pass) s

/-- Every unit that self-test covers. -/
def allUnits : List TestUnit :=
  (List.finRange 8).map .te ++ (List.finRange 32).map .bank ++ (List.finRange 4).map .pdma ++ [.fus]

/-- A unit that needs slices in this period (R757): an engine that a stall holds, the fusion block while it is enabled, a
yard bank whose domain is on, every page DMA unit; a fenced unit needs none. DEDUCED, note 30. -/
def Side.needsSlices (x : Side) (u : TestUnit) : Bool :=
  !x.unitFenced u && match u with
  | .bank b => x.domOn (8 + b / 8)
  | .pdma _ => true
  | u => (x.unitStall u).isSome

/-- A unit is in debt (R763). -/
def Side.inDebt (x : Side) (u : TestUnit) : Bool :=
  x.needsSlices u && decide (Tbl.get 0 x.me.safe.sliceCount (unitIx u) < unitSlices u)

/-- A coverage period ends: the frame in progress has a number that is a multiple of K and has ended none (R759).
DEDUCED, note 30. -/
def Side.periodOver (x : Side) : Bool :=
  let f := x.rd64 Reg.CAD_FRAME
  x.me.cad.begun && f % max 1 (100000000 / max 1 x.me.cad.period) == 0 && f != x.me.safe.covFrame

/-- A coverage period ends: the units in debt are shown, a unit's first period of debt is raised, a debt that lasts reacts.
DEDUCED, note 30. -/
def Side.endPeriod (x : Side) : Side :=
  let x := x.modSafe fun s => { s with covFrame := x.rd64 Reg.CAD_FRAME }
  let fresh := x.safeState != 1 || x.field Reg.CAD_STAT 1 0 == 0
  if x.me.safe.tainted then x.modSafe fun s => { s with sliceCount := [], tainted := fresh }
  else
    let l := allUnits.filter x.inDebt
    let first := l.any fun u => Tbl.get 0 x.me.safe.debtRun (unitIx u) == 0
    let mask := fun (sel : TestUnit → Option Nat) => (l.filterMap sel).foldl (fun m b => m ||| 2 ^ b) 0
    let x := x.wrN Reg.SAFE_DEBT_UNITS (mask fun | .te i => some i.val | .pdma i => some (8 + i.val) | .fus => some 12 | _ => none)
    let x := x.wrN Reg.SAFE_DEBT_BANKS (mask fun | .bank i => some i.val | _ => none)
    let x := x.setFlag Reg.SAFE_STAT 11 (l != [])
    let x := if l != [] then x.count Ct.SAFE_DEBT_PERIODS else x
    let x := if first then x.raise Ev.SAFE_DEBT else x
    let run := (allUnits.map fun u => (unitIx u, if l.contains u then Tbl.get 0 x.me.safe.debtRun (unitIx u) + 1 else 0))
    let stalls := (l.filterMap x.unitStall).foldl (fun m b => m ||| 2 ^ b) 0
    let limit := max 1 (x.field Reg.SAFE_CFG 8 1)
    let x := x.modSafe fun s => { s with debtRun := run, sliceCount := [], tainted := fresh, lapsedNext := stalls }
    let t : Trigger := { cls := 0x0C, block := T.SAFE, inst := 0, ev := Ev.SAFE_DEBT.bit, stream := 0 }
    if run.any fun e => e.2 == limit then
      (if x.flag Reg.SAFE_CFG 0 then x.fire t else x.faultMessage 3 t)
    else x

/-- COVERAGE_PERIOD_END (R759, R763 to R765). -/
def execCoveragePeriodEnd (n : Now) (d : Ch) (s : State) : Host.Outcome State Fault Refusal :=
  onLive n d (fun x =>
    if !x.periodOver then x else x.endPeriod) s

end Sys2Proof.Machine
end

