-- ==== Sys2Proof/Machine/Bridles.lean ====
section
/-!
DEFINITION. The bridles: regulation (R451 to R453), latency monitoring (R457 to R460), the guarantees in force and their
withdrawal (R462 to R473).
-/

namespace Sys2Proof.Machine

/-! ## Guarantees in force -/

/-- A bridle is configured: its credits start at BURST (R451). DEDUCED, note 82. -/
def Side.fillBridle (x : Side) (b : Nat) : Side :=
  x.modBridle b fun s => { s with at_ := x.mt, loft := 10000 * x.brBurst b, yard := 10000 * x.brYardBurst b }


/-- BRDL_STAT and BRDL_EFF_RATE of a bridle. -/
def Side.showBridle (x : Side) (b : Nat) : Side :=
  let st := Reg.BRDL_STAT.inst b
  let x := x.wr st (setBit (setBit (x.rd st) 0 (x.inForce b)) 1 (x.me.breached.contains b))
  x.wrN (Reg.BRDL_EFF_RATE.inst b) ((x.brSpeed b + 5) / 10)

/-- The sums of the summary page and what every bridle shows. -/
def Side.showBridles (x : Side) : Side :=
  let x := x.wrN Reg.BRDL_GUAR_SUM (x.rateSum x.guaranteed)
  let x := x.wrN Reg.BRDL_PROT_SUM (x.rateSum fun b => x.brClass b == 2)
  let x := (x.wrN Reg.BRDL_ACTIVE_SUM x.gSum).wr Reg.BRDL_HEADROOM (wordI x.headroom)
  ports.foldl Side.showBridle x

/-- GPRIO. -/
def Side.gprio (x : Side) (b : Nat) : Nat := x.field (Reg.BRDL_CFG.inst b) 5 2

/-- The ORDINARY bridle to withdraw next (R468): lowest GPRIO, then highest instance. -/
def Side.nextBreach (x : Side) : Option Nat :=
  (ports.filter fun b => x.brClass b == 1 && x.inForce b).foldl (fun o b => match o with
    | none => some b
    | some c => if x.gprio b ≤ x.gprio c then some b else some c) none

/-- One guarantee is withdrawn (R468). The event record goes to the ring of the instance that owns the master, whether or
not the event is routed to the host. DEDUCED, note 83. -/
def Side.withdraw (x : Side) (b : Nat) : Side :=
  let x := ({ x with me := { x.me with breached := x.me.breached ++ [b] } }.count Ct.BRDL_BREACHES b).count ⟨T.BRDL, 0, 0xFFFFFFFF⟩ 20
  let owner := x.rd (headReg T.BRDL b Reg.OWNER)
  let routed := x.flag (headReg T.BRDL b Reg.EVT_ROUTE) 6 && x.flag (headReg T.BRDL b Reg.EVT_EN) Ev.BRDL_BREACH.bit
    && !x.flag (headReg T.BRDL b Reg.EVT_RAW) Ev.BRDL_BREACH.bit
  let x := if routed then x else x.eventRecord (fld owner 12 8) x.d.die Ev.BRDL_BREACH b 0xE
  x.raiseStatus Ev.BRDL_BREACH b 0xE

/-- Withdraw until G ≤ D_now. -/
def Side.withdrawAll (x : Side) : Nat → Side
  | 0 => x
  | n + 1 =>
    if x.gSum ≤ x.dNow then x
    else match x.nextBreach with
      | some b => (x.withdraw b).withdrawAll n
      | none => x

/-- Restore in the reverse of the withdrawal order while G ≤ D_now holds (R471). -/
def Side.restoreAll (x : Side) : Nat → Side
  | 0 => x
  | n + 1 =>
    match x.me.breached.getLast? with
    | none => x
    | some b =>
      if x.dNow < x.gSum + x.brRate b then x
      else
        let x := ({ x with me := { x.me with breached := x.me.breached.dropLast } }.count ⟨T.BRDL, 1, 0xFFFFFFFF⟩ 20)
        (x.raise Ev.BRDL_RESTORE b).restoreAll n

/-- The bridles take D_now and the guarantees as they now are (R464 to R472): first every credit accrues at the old rate. -/
def Side.updBridles (x : Side) : Side :=
  let x := { x with me := { x.me with breached := x.me.breached.filter fun b => x.brClass b == 1 } }
  ((x.withdrawAll 20).restoreAll 20).showBridles

/-- Every credit accrues up to now. -/
def Side.accrueAll (x : Side) : Side := ports.foldl Side.accrue x

/-- The words of a bridle configuration. -/
def bridleWord (c : BridleCfg) : Word := pack [(0, c.cls % 4), (2, c.gprio % 16), (6, c.uprio % 4)]

/-- A bridle is written and locked (R450), and starts with full credit. -/
def Side.putBridle (x : Side) (c : BridleCfg) : Side :=
  let b := c.inst
  let x := (x.wr (Reg.BRDL_CFG.inst b) (bridleWord c)).wrN (Reg.BRDL_LOFT_RATE.inst b) (c.loftRate % 2 ^ 19)
  let x := (x.wrN (Reg.BRDL_LOFT_BURST.inst b) (c.loftBurst % 2 ^ 17)).wrN (Reg.BRDL_YARD_RATE.inst b) (c.yardRate % 2 ^ 19)
  let x := (x.wrN (Reg.BRDL_YARD_BURST.inst b) (c.yardBurst % 2 ^ 17)).wrN (Reg.BRDL_LAT_TARGET.inst b) (c.lat % 2 ^ 16)
  (x.setFlag (headReg T.BRDL b Reg.LOCK) 0 true).fillBridle b

/-- A bridle leaves G (R472): it is no longer guaranteed and holds its master. -/
def Side.clearBridle (x : Side) (b : Nat) : Side :=
  let x := (x.wr (Reg.BRDL_CFG.inst b) 0).wr (Reg.BRDL_LOFT_RATE.inst b) 0
  let x := (x.wrN (Reg.BRDL_LOFT_BURST.inst b) 512).wr (Reg.BRDL_YARD_RATE.inst b) 0
  let x := (x.wrN (Reg.BRDL_YARD_BURST.inst b) 512).wr (Reg.BRDL_LAT_TARGET.inst b) 0
  (x.setFlag (headReg T.BRDL b Reg.LOCK) 0 false).fillBridle b

/-! ## The admission equation (R447, R453, R454, R462, R463) -/

/-- A configuration in the order it would leave: class, loft rate and burst, yard rate, latency target of a bridle. -/
structure BrView where
  cls : Nat
  rate : Nat
  burst : Nat
  yard : Nat
  lat : Nat

/-- What a bridle is set to now, or what one of some configurations would set it to. -/
def Side.brView (x : Side) (l : List BridleCfg) (drop : List Nat) (b : Nat) : BrView :=
  match l.find? fun c => c.inst == b with
  | some c => { cls := c.cls, rate := c.loftRate, burst := c.loftBurst, yard := c.yardRate, lat := c.lat }
  | none =>
    if drop.contains b then { cls := 0, rate := 0, burst := 512, yard := 0, lat := 0 }
    else { cls := x.brClass b, rate := x.brRate b, burst := x.brBurst b, yard := x.brYardRate b,
           lat := x.field (Reg.BRDL_LAT_TARGET.inst b) 15 0 }

/-- The classes that R447 permits a bridle; `served` says whether the owning stall of an engine or page DMA unit is
served. -/
def classOk (b cls : Nat) (served : Bool) : Bool :=
  if b < 12 then (if served then cls == 0 || cls == 1 else cls == 2)
  else if b = 12 || b = 13 || b = 18 then cls == 0 || cls == 1
  else if b = 19 then cls == 2
  else cls == 1 || cls == 2

/-- A configuration keeps its ranges (R453, R454, R458) and its class (R447). -/
def bridleOk (c : BridleCfg) (served : Bool) : Bool :=
  let peak := if c.inst < 8 then 307200 else 153600
  let burst := fun n => n % 64 == 0 && decide (512 ≤ n) && decide (n ≤ 65536)
  decide (c.inst < 20) && classOk c.inst c.cls served && decide (c.gprio < 16) && decide (c.uprio < 4)
    && decide (c.loftRate ≤ peak) && decide (c.yardRate ≤ peak) && burst c.loftBurst && burst c.yardBurst
    && decide (c.lat < 65536) && (c.cls != 0 || c.lat == 0)

/-- The four inequalities of R462. `stalls` gives, for each stall, its number of banks and its masters' bridles. -/
def Side.bandwidthOk (x : Side) (l : List BridleCfg) (drop : List Nat) (stalls : List (Nat × List Nat)) : Bool :=
  let v := x.brView l drop
  let guar := ports.filter fun b => (v b).cls == 1 || (v b).cls == 2
  let d3 := deliverable x.inline 3
  let dAdmit := deliverable x.inline (x.field Reg.BRDL_ADMIT_BAND 1 0)
  decide (((guar.filter fun b => (v b).cls == 2).map fun b => (v b).rate).sum ≤ d3)
    && decide ((guar.map fun b => (v b).rate).sum ≤ dAdmit)
    && stalls.all (fun s => decide (((s.2.filter guar.contains).map fun b => (v b).yard).sum ≤ s.1 * 153300))
    && guar.all fun b => decide (1500 + ceilDiv (1000 * (guar.map fun j => (v j).burst).sum) d3 ≤ (v b).lat)

/-! ## The commands -/

/-- The stall whose banks the master of a bridle reaches (R295): that of its engine or page DMA unit, and of fusion the
stall that it is bound to (R477); the general DMA reaches the banks of the stall that it works for. -/
def Side.portOf (x : Side) (b st : Nat) : Bool :=
  if b < 8 then x.flag (Reg.PSQ_ENGINES.inst st) b
  else if b < 12 then x.field (Reg.PDMA_STAT.inst (b - 8)) 7 4 == st + 8
  else if b = 12 then true
  else b == 16 && x.field Reg.FUS_STALL 2 0 == st

/-- A read of yard bytes of the die by a stall meets its bad lines (R430): a mirror line is queued for its re-fetch. -/
def Side.meetYard (x : Side) (st a n : Nat) : Side :=
  let y := x.me.mem.yard
  (badLines (y.bad.filter fun b => y.valid.contains (b / 64) && a ≤ b && decide (b < a + n))).foldl (fun x l =>
    match x.mirrorOf l.1 with
    | some _ => (x.yardFound 1 st l.1 l.2 false).modMem fun m => { m with refetch := m.refetch.add l.1 }
    | none => (x.meetLine st l.1 l.2).1) x

/-- The port of a bank serves a request of the master of a bridle: only the masters of the stall that holds the bank reach
it (R295), nobody reaches a bank that no stall holds (R400), and only the mirror fill writes a mirror range (R406). The
master code of a window fault names engines and the general DMA alone. DESIGN CHOICE, note 152. -/
def Side.yardServe (x : Side) (b : Nat) (r : MemReq) : Side :=
  match x.bankOwner (r.addr / bankBytes) with
  | none => x
  | some st =>
    if !x.portOf b st then x
    else match r.write with
      | some l =>
        if x.inMirror r.addr r.len then x.windowFault st (if b < 8 then b else 8) (yardAddr ((x.yardOff st r.addr).getD 0)) true
        else x.physPut 1 0 r.addr (l.take r.len)
      | none => x.meetYard st r.addr r.len

/-- A request is issued (R452): the credit falls; a loft request is outstanding from now on, a yard request is served at
the port of its bank. DEDUCED, note 82. -/
def Side.issue (x : Side) (b : Nat) (r : MemReq) : Side :=
  let x := x.pay b r.loft 1 (x.charge r)
  if r.loft then x.modBridle b fun s => { s with out := s.out ++ [(r, x.mt)] } else x.yardServe b r

/-- Issue the held requests that can go, in order. -/
def Side.issueHeld (x : Side) (b : Nat) : Nat → Side
  | 0 => x
  | n + 1 =>
    match (x.bridle b).held with
    | [] => x
    | r :: t => if x.affords b r then ((x.modBridle b fun s => { s with held := t }).issue b r).issueHeld b n else x

/-- The step of the latency ramp (R457, R458). -/
def Side.ramp (x : Side) (b : Nat) : Nat :=
  match (x.bridle b).out with
  | [] => 0
  | (_, t) :: _ =>
    let a := x.mt - t
    let lat := x.field (Reg.BRDL_LAT_TARGET.inst b) 15 0
    if !x.guaranteed b || 16 * a < 8 * lat then 0 else min 7 ((16 * a - 8 * lat) / max 1 lat + 1)

/-- STEP and HELD of BRDL_STAT. -/
def Side.showPort (x : Side) (b : Nat) : Side :=
  (x.setField (Reg.BRDL_STAT.inst b) 4 2 (x.ramp b)).setFlag (Reg.BRDL_STAT.inst b) 5 (!(x.bridle b).held.isEmpty)

/-- The arbitration level of a bridle (R457, R458, R469). -/
def Side.level (x : Side) (b : Nat) : Nat :=
  if x.me.breached.contains b then 0
  else if x.guaranteed b then 4 + x.ramp b
  else x.field (Reg.BRDL_CFG.inst b) 7 6

/-- The place of a bridle in the arbiter's order: level, PROTECTED before ORDINARY, GPRIO, lower instance (R459). -/
def Side.rank (x : Side) (b : Nat) : Nat := ((x.level b * 4 + x.brClass b) * 16 + x.gprio b) * 32 + (31 - b)

/-- The loft arbiter takes the oldest request of the bridle that stands first, when it serves none (R459). DESIGN CHOICE,
note 131. -/
def Side.arbitrate (x : Side) : Side :=
  if ports.any fun b => (x.bridle b).busy then x
  else match (ports.filter fun b => !(x.bridle b).out.isEmpty).argmax x.rank with
    | some b => x.modBridle b fun s => { s with busy := true }
    | none => x

/-- A request of a master comes to its bridle and does `f` when it is let through (R447, R452); else it is held there.
DESIGN CHOICE, note 152. -/
def Side.through (x : Side) (b : Nat) (r : MemReq) (f : Side → Side) : Side :=
  let x := x.accrue b
  if (x.bridle b).held.isEmpty && x.affords b r then f (x.pay b r.loft 1 (x.charge r))
  else (x.modBridle b fun s => { s with held := s.held ++ [r] }).showPort b

/-- Credit accrues, a request joins the held ones, and those that can go are issued in order; the arbiter looks at them. -/
def Side.bridleIssue (b : Fin 20) (req : Option MemReq) (x : Side) : Side :=
  let x := x.accrue b
  let x := match req with
    | some r => x.modBridle b fun s => { s with held := s.held ++ [r] }
    | none => x
  ((x.issueHeld b (x.bridle b).held.length).arbitrate).showPort b

/-- BRIDLE_ISSUE (R451, R452): a master brings a request, or the held ones are looked at again. -/
def execBridleIssue (n : Now) (d : Ch) (b : Fin 20) (req : Option MemReq) (s : State) : Host.Outcome State Fault Refusal :=
  onLive n d (fun x => x.bridleIssue b req) s

/-- The latency of a completed loft request (R460): a miss of a guaranteed bridle is counted, its latency kept in MAXLAT,
the first miss since MAXLAT was cleared is raised. -/
def Side.latency (x : Side) (b lat : Nat) : Side :=
  if !x.guaranteed b || lat ≤ x.field (Reg.BRDL_LAT_TARGET.inst b) 15 0 then x
  else
    let x := x.count Ct.BRDL_TARGET_MISS b
    let x := if x.rdN (Reg.BRDL_MAXLAT.inst b) < lat then x.wrN (Reg.BRDL_MAXLAT.inst b) (min 0xFFFFFFFF lat) else x
    if (x.bridle b).missed then x else (x.modBridle b fun s => { s with missed := true }).raise Ev.BRDL_TARGET_MISS b

/-- BRIDLE_DERATE (R465 to R471): the bridles take the band now in force. -/
def execBridleDerate (n : Now) (d : Ch) (s : State) : Host.Outcome State Fault Refusal :=
  onLive n d (fun x => x.accrueAll.updBridles) s

/-- BRDL_MAXLAT_CLR (R460): writing 1 clears BRDL_MAXLAT. -/
def execBrdlMaxlatClr (n : Now) (d : Ch) (w : Init) (b : Fin 20) (v : Word) (s : State) : Host.Outcome State Fault Refusal :=
  onLive n d (fun x => x.access w (Reg.BRDL_MAXLAT_CLR.inst b) fun x =>
    if bit v 0 then (x.wr (Reg.BRDL_MAXLAT.inst b) 0).modBridle b fun s => { s with missed := false } else x) s

end Sys2Proof.Machine
end

