-- ==== Sys2Proof/Machine/TimeBases.lean ====
section
/-!
DEFINITION. The time bases: the gPTP servo, holdover and slew of VT and WT, the grandmaster role, HOLDREF, and the
commands of the TIME page (R34 to R78, R910 to R913).
-/

namespace Sys2Proof.Machine

/-! ## The two slaved bases -/

/-- VT (false) or WT (true). -/
def Side.base (x : Side) (wt : Bool) : TBase := if wt then x.me.time.wt else x.me.time.vt

/-- Change a base. -/
def Side.modBase (x : Side) (wt : Bool) (f : TBase → TBase) : Side :=
  { x with me := { x.me with time :=
      if wt then { x.me.time with wt := f x.me.time.wt } else { x.me.time with vt := f x.me.time.vt } } }

/-- The state code of a base (R54). -/
def Side.baseState (x : Side) (wt : Bool) : Nat :=
  if wt then x.field Reg.TIME_STATE 7 4 else x.field Reg.TIME_STATE 3 0

/-- A base takes a state: TIME_STATE reports it with the base's VALID bit. When VT first enters LOCKED or SLEW while an
MT-driven cadence has no valid grid, the frame in progress becomes the start frame (R94); a cadence that waits for VT
starts at the grid boundary after the reading of that moment (R93). -/
def Side.setBaseState (x : Side) (wt : Bool) (st : Nat) : Side :=
  if wt then (x.setField Reg.TIME_STATE 7 4 st).setFlag Reg.TIME_STATE 9 (st != 0 && x.flag Reg.TIME_CTRL 1)
  else
    let was := x.field Reg.TIME_STATE 3 0
    let x := (x.setField Reg.TIME_STATE 3 0 st).setFlag Reg.TIME_STATE 8 (st != 0)
    if (st = 2 || st = 4) && x.me.cad.waiting && was != 2 && was != 4 then
      { x with me := { x.me with cad := { x.me.cad with runVt := x.vt } } }
    else if (st = 2 || st = 4) && x.field Reg.CAD_STAT 1 0 = 1 && !x.flag Reg.CAD_STAT 2 && x.me.cad.startKind = 0 then
      { x with me := { x.me with cad := { x.me.cad with startKind := 1 } } }
    else x

/-- The limit of the frequency correction, in ppt: 100 ppm (R53). -/
def yMax : Int := 100000000

/-- Set the frequency correction in force; FREQ_ADJ shows that of VT. -/
def Side.setY (x : Side) (wt : Bool) (y : Int) : Side :=
  let y := clampI (-yMax) yMax y
  let x := x.modBase wt fun b => { b with y := y }
  if wt then x else x.wr Reg.FREQ_ADJ (wordI y)

/-- The channel is grandmaster of the base's domain (R43). -/
def Side.isGm (x : Side) (wt : Bool) : Bool := x.flag Reg.TIME_CTRL (if wt then 5 else 4)

/-- HOLDREF disciplines: it is configured and within tolerance (R67). -/
def Side.holdrefY (x : Side) : Option Int :=
  if x.field Reg.HOLDREF_CFG 1 0 = 1 || x.field Reg.HOLDREF_CFG 1 0 = 2 then x.me.time.holdref else none

/-- The frequency of a base in HOLDOVER or SLEW before any slew correction: HOLDREF's, or the frozen one (R66, R67).
DEDUCED, note 154. -/
def Side.holdY (x : Side) (wt : Bool) : Int := x.holdrefY.getD (x.base wt).hold

/-- The mean of the y values held, rounded to the nearest ppt; the frequency in force when there are none (R66).
DESIGN CHOICE, note 153. -/
def TBase.mean (b : TBase) : Int :=
  if b.hist = [] then b.y else rndAway (b.hist.foldl (· + ·) 0) b.hist.length

/-- A base enters HOLDOVER with a given holdover frequency and raises its event. DEDUCED, note 18. -/
def Side.toHoldoverAt (x : Side) (wt : Bool) (hold : Int) : Side :=
  let x := x.modBase wt fun b => { b with hold := hold, holdMt := x.mt, expired := false, jumpRun := 0, satRun := 0 }
  let x := x.setBaseState wt 3
  (x.setY wt (x.holdY wt)).raise Ev.TIME_HOLDOVER

/-- A base enters HOLDOVER by any road but that of R913 (R66). -/
def Side.toHoldover (x : Side) (wt : Bool) : Side := x.toHoldoverAt wt (x.base wt).mean

/-- A base enters ACQUIRE from HOLDOVER or SLEW: the integral is preset to −y_h in 2^-16 ppb (R910). DESIGN CHOICE, note 153. -/
def Side.toAcquire (x : Side) (wt : Bool) : Side :=
  let yh := x.holdY wt
  (x.modBase wt fun b => { b with
    i := -(rndAway (yh * 65536) 1000), hist := [], lockRun := 0, unlockRun := 0, jumpRun := 0, satRun := 0 }).setBaseState
    wt 1

/-! ## The servo (R51 to R56) -/

/-- LOCK_THRESH in its range. -/
def Side.lockThresh (x : Side) : Nat := clampN 10 10000 (x.rdN Reg.LOCK_THRESH)

/-- The integral and the correction after a sample of offset θ, in 2^-16 ppb (R52). -/
def Side.servoStep (x : Side) (wt : Bool) (th : Int) : Int × Int :=
  let lim : Int := 100000 * 65536
  let i := clampI (-lim) lim ((x.base wt).i + (x.rdN Reg.KI : Int) * th)
  (i, clampI (-lim) lim (-((x.rdN Reg.KP : Int) * th) - i))

/-- The state logic after a servo sample: ACQUIRE to LOCKED after 8 samples within LOCK_THRESH, LOCKED to ACQUIRE after
4 beyond four times it (R54, R56). -/
def Side.lockLogic (x : Side) (wt : Bool) (th : Int) : Side :=
  let b := x.base wt
  if x.baseState wt = 1 then
    let n := if th.natAbs ≤ x.lockThresh then b.lockRun + 1 else 0
    if n ≥ 8 then
      ((x.modBase wt fun b => { b with lockRun := 0, unlockRun := 0 }).setBaseState wt 2).raise Ev.TIME_LOCK
    else x.modBase wt fun b => { b with lockRun := n }
  else if x.baseState wt = 2 then
    let n := if th.natAbs > 4 * x.lockThresh then b.unlockRun + 1 else 0
    if n ≥ 4 then
      (x.modBase wt fun b => { b with hist := [], lockRun := 0, unlockRun := 0 }).setBaseState wt 1
    else x.modBase wt fun b => { b with unlockRun := n }
  else x

/-- One accepted sample through the servo (R52); 16 samples in a row at a clamp limit end in HOLDOVER (R53).
DEDUCED, note 135. -/
def Side.servo (x : Side) (wt : Bool) (th : Int) : Side :=
  let (i, u) := x.servoStep wt th
  let y := rndAway (u * 1000) 65536
  let sat := if y.natAbs = yMax.natAbs then (x.base wt).satRun + 1 else 0
  let x := x.modBase wt fun b => { b with i := i, hist := (y :: b.hist).take 16, satRun := sat, jumpRun := 0 }
  let x := x.setY wt y
  if sat ≥ 16 then (x.raise Ev.TIME_SERVO_SAT).toHoldover wt else x.lockLogic wt th

/-- The frequency of SLEW for the next sync interval (R64). DESIGN CHOICE, note 153. -/
def Side.slew (x : Side) (wt : Bool) (th : Int) (interval : Nat) : Side :=
  let yh := x.holdY wt
  let rate : Int := (clampN 1 100 (x.field Reg.SLEW_CTRL 15 8) : Nat) * 1000000
  let need : Int := (th.natAbs * 10 ^ 12 / interval : Nat)
  let sgn : Int := if 0 < th then -1 else 1
  let margin : Int := yMax - sgn * yh
  x.setY wt (yh + sgn * max 0 (min rate (min need margin)))

/-- The accepted grandmaster identity of a base's domain (R912). -/
def Side.accGm (x : Side) (wt : Bool) : Nat := x.rd64 (if wt then Reg.ACC_GM_WT else Reg.ACC_GM_VT)

/-- The base a domain serves on this channel, when its EN bit is set: domain 0 is VT's, WT_DOMAIN is WT's. DEDUCED, note 137. -/
def Side.baseOfDomain (x : Side) (domain : Nat) : Option Bool :=
  if domain = 0 then (if x.flag Reg.TIME_CTRL 0 then some false else none)
  else if domain = x.field Reg.WT_DOMAIN 6 0 && x.flag Reg.TIME_CTRL 1 then some true else none

/-- The role of a port for a base: 0 disabled, 1 passive, 2 slave, 3 master. -/
def Side.portRole (x : Side) (port : Nat) (wt : Bool) : Nat :=
  if wt then x.field ((Reg.PORT_ROLE : Reg).el 0x10 port) 3 2 else x.field ((Reg.PORT_ROLE : Reg).el 0x10 port) 1 0

/-- A grandmaster change (R59): counted, raised; ACQUIRE, LOCKED and SLEW go to HOLDOVER. -/
def Side.gmChange (x : Side) (wt : Bool) : Side :=
  let x := (x.count Ct.TIME_GM_REFUSED).raise Ev.TIME_GM_CHANGE
  let st := x.baseState wt
  if st = 1 || st = 2 || st = 4 then x.toHoldover wt else x

/-- The corrected stamps of a message that passes a port now, in ps (R44 to R46): the base's reading to 1 ns, referred to
the port's MDI. -/
def Side.ingStamp (x : Side) (port : Nat) (wt : Bool) : Int :=
  1000 * (x.base wt).ns - x.field ((Reg.PORT_ING_LAT_PS : Reg).el 0x10 port) 19 0
def Side.egrStamp (x : Side) (port : Nat) (wt : Bool) : Int :=
  1000 * (x.base wt).ns + x.field ((Reg.PORT_EGR_LAT_PS : Reg).el 0x10 port) 19 0

/-- delayAsymmetry of a port, in ps (R45). -/
def Side.asymPs (x : Side) (port : Nat) : Int :=
  clampI (-1000000) 1000000 (signed 32 (x.rdN ((Reg.PORT_ASYM_PS : Reg).el 0x10 port)))

/-- meanLinkDelay of a port, in ps. -/
def Side.linkDelay (x : Side) (port : Nat) : Int := Tbl.get 0 x.me.time.linkDelay port

/-- A port takes part in gPTP: the switch's page answers and the port has a MODE and a link (R41). -/
def Side.gptpPort (x : Side) (port : Nat) : Bool := x.portUp port

/-- The offset θ in ns of a Sync that arrives now (R51): every term in ps, rounded once, ties away from zero. -/
def Side.theta (x : Side) (port : Nat) (wt : Bool) (originPs : Int) : Int :=
  rndAway (x.ingStamp port wt - (originPs + x.linkDelay port + x.asymPs port)) 1000

/-- Change the time state. -/
def Side.modTime (x : Side) (f : TimeSt → TimeSt) : Side := { x with me := { x.me with time := f x.me.time } }

/-- The syncReceiptTimeout of a domain starts anew (R911). -/
def Side.armSync (x : Side) (wt : Bool) (interval : Nat) : Side :=
  x.modTime fun t => { t with syncAt := t.syncAt.put (nat1 wt) (x.mt, interval) }

/-- An accepted VT sample is counted. -/
def Side.syncTaken (x : Side) (wt : Bool) : Side := if wt then x else x.count Ct.TIME_SYNC_RX

/-- A sample beyond JUMP_THRESH is refused: counted and raised (R57, R63). DEDUCED, note 160. -/
def Side.jumpRefused (x : Side) : Side := (x.count Ct.TIME_JUMP_REFUSED).raise Ev.TIME_JUMP_REFUSED

/-- A sample of the accepted grandmaster, by the state of its base (R54, R57, R62 to R65). DEDUCED, notes 136, 158. -/
def Side.sample (x : Side) (wt : Bool) (gm : Nat) (th : Int) (interval : Nat) : Side :=
  let big := th.natAbs > clampN 100 10000000 (x.rdN Reg.JUMP_THRESH)
  let permit := x.flag Reg.SLEW_CTRL 0
  match x.baseState wt with
  | 0 =>
    let x := if x.accGm wt = 0 then x.wr64 (if wt then Reg.ACC_GM_WT else Reg.ACC_GM_VT) gm else x
    let x := x.modBase wt fun b => { b with
      ns := ((b.ns : Int) - th).toNat % 2 ^ 64, i := 0, hist := [], lockRun := 0, unlockRun := 0, jumpRun := 0, satRun := 0 }
    let x := if wt then x else x.modTime fun t => { t with pdelayLast := [] }
    (x.syncTaken wt).setBaseState wt 1
  | 1 | 2 =>
    if big then
      let x := x.jumpRefused
      let n := (x.base wt).jumpRun + 1
      if n ≥ max 1 (x.field Reg.JUMP_PERSIST 3 0) then x.toHoldover wt
      else x.modBase wt fun b => { b with jumpRun := n }
    else (x.syncTaken wt).servo wt th
  | 3 =>
    if !big then ((x.syncTaken wt).toAcquire wt).servo wt th
    else if permit then ((x.syncTaken wt).setBaseState wt 4).slew wt th interval
    else x.jumpRefused
  | _ =>
    if !permit then x.toHoldover wt
    else if !big then (((x.syncTaken wt).raise Ev.TIME_SLEW_DONE).toAcquire wt).servo wt th
    else (x.syncTaken wt).slew wt th interval

/-- A Sync of an enabled domain on its slave port (R51, R59, R911): the timeout starts anew whatever becomes of the sample;
a channel that is grandmaster of the domain takes none. -/
def Side.syncSample (x : Side) (wt : Bool) (port gm : Nat) (originPs : Int) (interval : Nat) : Side :=
  let x := x.armSync wt interval
  if x.isGm wt then x
  else if x.accGm wt != 0 && x.accGm wt != gm then x.gmChange wt
  else
    let th := x.theta port wt originPs
    let x := if wt then x else x.wr Reg.OFFSET_LAST (satI32 th)
    x.sample wt gm th interval

/-- A Sync of a domain arrives (R44, R51): stamped in the domain's base, and evaluated with its Follow_Up; `originPs` is
preciseOriginTimestamp plus correctionField. -/
def Side.sync (x : Side) (port domain gm : Nat) (originPs : Int) (interval : Nat) : Side :=
  match x.baseOfDomain domain with
  | none => x
  | some wt => if x.portRole port wt != 2 then x else x.syncSample wt port gm originPs interval

/-- A correctionField, in 2^-16 ns, to the nearest ps (R51). DESIGN CHOICE, note 153. -/
def corrPs (corr : BitVec 64) : Int := rndAway (corr.toInt * 1000) 65536

/-- SYNC_RECEIVED (R41, R44, R51, R59), one-step or with its Follow_Up: preciseOriginTimestamp in ps, correctionField and
sync interval. -/
def execSyncReceived (n : Now) (d : Ch) (port : Fin 8) (domain : Fin 128) (gm : Nat) (originPs : Int) (corr : BitVec 64)
    (logIv : Fin 6) (s : State) : Host.Outcome State Fault Refusal :=
  onLive n d (fun x =>
    if x.gptpPort port then x.sync port domain gm (originPs + corrPs corr) (31250000 * 2 ^ logIv.val) else x) s

/-- ANNOUNCE_RECEIVED (R41, R59): checked against the accepted identity; a match changes nothing. DEDUCED, note 155. -/
def execAnnounceReceived (n : Now) (d : Ch) (port : Fin 8) (domain : Fin 128) (gm : Nat) (s : State) :
    Host.Outcome State Fault Refusal :=
  onLive n d (fun x => match x.baseOfDomain domain with
    | none => x
    | some wt =>
      if !x.gptpPort port || x.portRole port wt != 2 || x.isGm wt then x
      else if x.accGm wt != 0 && x.accGm wt != gm then x.gmChange wt else x) s

/-- Another port than `port` is the slave of a base. -/
def Side.otherSlave (x : Side) (port : Nat) (wt : Bool) : Bool :=
  (List.range 8).any fun p => p != port && x.portRole p wt == 2

/-- The syncReceiptTimeout of a domain's slave port has run out (R911). -/
def Side.syncOver (x : Side) (wt : Bool) : Bool :=
  x.otherSlave 8 wt && (x.me.time.syncAt.any fun (e : Nat × Nat × Nat) =>
    e.1 == nat1 wt && decide (e.2.1 + clampN 2 10 x.me.time.gptp.timeout * e.2.2 ≤ x.mt))

/-- SYNC_RECEIPT_TIMEOUT (R911): the expiry is counted, and the timeout stands until the next Sync. -/
def execSyncReceiptTimeout (n : Now) (d : Ch) (wt : Bool) (s : State) : Host.Outcome State Fault Refusal :=
  onLive n d (fun x =>
    if !x.syncOver wt then x else
    let y := x.modTime fun t => { t with syncAt := t.syncAt.drop (nat1 wt) }
    let y := if wt then y else y.count Ct.TIME_SYNC_TIMEOUT
    if (x.baseState wt == 1 || x.baseState wt == 2 || x.baseState wt == 4) && !x.isGm wt then y.toHoldover wt else y) s

/-- The interval of a logarithmic setting, in ns. -/
def logNs (k : Int) : Nat := if 0 ≤ k then 10 ^ 9 * 2 ^ k.toNat else 10 ^ 9 / 2 ^ (-k).toNat

/-- What a port sent last under a key lies at least an interval back. -/
def sentBefore (t : Tbl Nat) (k interval mt : Nat) : Bool := t.all fun e => e.1 != k || decide (e.2 + interval ≤ mt)

/-- A port that is master of a domain of which the channel is grandmaster (R41, R43). -/
def Side.masters (x : Side) (port : Nat) (wt : Bool) : Bool := x.gptpPort port && x.isGm wt && x.portRole port wt == 3

/-- The next Sync of a port is due: the sync interval has passed since its last. -/
def Side.syncDue (x : Side) (port : Nat) (wt : Bool) : Bool :=
  x.masters port wt && sentBefore x.me.time.sentAt (2 * port + nat1 wt) (logNs x.me.time.gptp.logSync) x.mt

/-- SYNC_TRANSMIT (R41, R43): a two-step Sync, and its Follow_Up with the Sync's corrected egress stamp (R44).
DEDUCED, note 156. -/
def execSyncTransmit (n : Now) (d : Ch) (port : Fin 8) (wt : Bool) (s : State) : Host.Outcome State Fault Refusal :=
  onLive n d (fun x =>
    if x.syncDue port wt then
      ((x.modTime fun t => { t with sentAt := t.sentAt.put (2 * port + nat1 wt) x.mt }).emit (.gptp 0 port wt 0)).emit
        (.gptp 1 port wt (x.egrStamp port wt).toNat)
    else x) s

/-- ANNOUNCE_TRANSMIT (R41). -/
def execAnnounceTransmit (n : Now) (d : Ch) (port : Fin 8) (wt : Bool) (s : State) : Host.Outcome State Fault Refusal :=
  onLive n d (fun x => if x.masters port wt then x.emit (.gptp 2 port wt 0) else x) s

/-- The reading of a base n cycles of the time clock ago, at the present increment. -/
def TBase.ago (b : TBase) (n : Nat) : Int := ((b.ns * 2 ^ 32 + b.frac : Nat) - (n * b.inc : Nat) : Int) / 2 ^ 32

/-- The corrected egress stamp in VT of an event message that left a port n cycles ago, in ps (R44, R45). -/
def Side.egrStampAgo (x : Side) (port n : Nat) : Int :=
  1000 * x.me.time.vt.ago n + x.field ((Reg.PORT_EGR_LAT_PS : Reg).el 0x10 port) 19 0

/-- neighbourRateRatio of a port as its deviation from 1 in ppt: how the neighbour's stamps of two responses advance against
the port's own; kept while there is no response before (R41). -/
def Side.neighbourRatio (x : Side) (port : Nat) (t3 t4 : Int) : Int :=
  match x.me.time.pdelayLast.find? fun e => e.1 == port with
  | some (_, a, b, _) =>
    if b < t4 then rndAway ((t3 - a - (t4 - b)) * 10 ^ 12) (t4 - b).toNat else Tbl.get 0 x.me.time.rateRatio port
  | none => Tbl.get 0 x.me.time.rateRatio port

/-- A Pdelay_Resp arrives with its Follow_Up: neighbourRateRatio, and meanLinkDelay as half of the round trip, in the
neighbour's rate, less the neighbour's turn-round (R41, R44). DEDUCED, note 163. -/
def Side.pdelayDone (x : Side) (port : Nat) (r : PdelayResp) : Side :=
  let t1 := x.egrStampAgo port r.turn
  let t4 := x.ingStamp port false
  let ratio := x.neighbourRatio port r.t3 t4
  x.modTime fun t => { t with
    rateRatio := t.rateRatio.put port ratio
    linkDelay := t.linkDelay.put port (rndAway ((t4 - t1) * (10 ^ 12 + ratio) - (r.t3 - r.t2) * 10 ^ 12) (2 * 10 ^ 12))
    pdelayLast := t.pdelayLast.put port (r.t3, t4, if x.flag Reg.TIME_CTRL 1 then some (x.ingStamp port true) else none) }

/-- PDELAY_EXCHANGE (R41), at each logPdelayReqInterval: the mean link delay and the neighbour rate ratio of the port, or a
count when the neighbour does not respond. DEDUCED, note 163. -/
def execPdelayExchange (n : Now) (d : Ch) (port : Fin 8) (resp : Option PdelayResp) (s : State) :
    Host.Outcome State Fault Refusal :=
  onLive n d (fun x =>
    if !x.gptpPort port || !sentBefore x.me.time.pdelayAt port (logNs x.me.time.gptp.logPdelay) x.mt then x else
    let x := x.modTime fun t => { t with pdelayAt := t.pdelayAt.put port x.mt }
    match resp with
    | some r => x.pdelayDone port r
    | none => x.count Ct.TIME_PDELAY_FAIL) s

/-! ## The relay of Sync (R48) -/

/-- The rate ratio to the grandmaster, as its deviation from 1 in ppt: what a Follow_Up carries, times the neighbour's. -/
def rateThrough (up nrr : Int) : Int := rndAway ((10 ^ 12 + up) * (10 ^ 12 + nrr)) (10 ^ 12) - 10 ^ 12

/-- A correctionField with a time in ps added. -/
def addCorr (corr : BitVec 64) (ps : Int) : BitVec 64 := corr + BitVec.ofInt 64 (ps * 65536 / 1000)

/-- A Follow_Up as port p sends it on: the residence time of its Sync, scaled by the rate ratio to the grandmaster, and the
upstream link delay are added. -/
def Side.relayFollowUp (x : Side) (p : Nat) (wt : Bool) (m : PtpMsg) : PtpMsg :=
  match x.me.time.relay.find? fun e => e.1 == nat1 wt with
  | none => m
  | some (_, r) =>
    let rate := rateThrough m.rate (Tbl.get 0 x.me.time.rateRatio r.port)
    let res := Tbl.get r.ingress r.egress p - r.ingress
    { m with rate := rate, corr := addCorr m.corr (rndAway (res * (10 ^ 12 + rate)) (10 ^ 12) + x.linkDelay r.port) }

/-- A relayed Sync leaves port p now. -/
def Side.relaySent (x : Side) (p : Nat) (wt : Bool) : Side :=
  let stamped := fun (e : Nat × SyncRelay) =>
    if e.1 = nat1 wt then (e.1, { e.2 with egress := e.2.egress.put p (x.egrStamp p wt) }) else e
  x.modTime fun t => { t with relay := t.relay.map stamped }

/-- A Sync as the switch sends it: two-step (R41). DESIGN CHOICE, note 141. -/
def twoStepSync (m : PtpMsg) : PtpMsg := { m with twoStep := true, origin := 0, rate := 0, corr := 0 }

/-- A Sync to relay has arrived on the slave port p; one that came one-step leaves its Follow_Up to the switch.
DESIGN CHOICE, note 141. -/
def Side.relaySync (x : Side) (p : Nat) (wt : Bool) (m : PtpMsg) (f : EthFrame) : Side :=
  let own := if m.twoStep then none else some { f with ptp := some { m with kind := .followUp } }
  let r : SyncRelay := { seq := m.seq, port := p, ingress := x.ingStamp p wt, egress := [], own := own }
  x.modTime fun t => { t with relay := t.relay.put (nat1 wt) r }

/-- A Follow_Up belongs to the Sync that is being relayed. -/
def Side.followsSync (x : Side) (p : Nat) (wt : Bool) (m : PtpMsg) : Bool :=
  x.me.time.relay.any fun e => e.1 == nat1 wt && e.2.seq == m.seq && e.2.port == p

/-! ## HOLDREF (R67) and the grandmaster role -/

/-- Bases in HOLDOVER, and bases of which the channel is grandmaster, follow HOLDREF or fall back to their frozen rate;
a grandmaster base without HOLDREF runs at MT rate (R43). -/
def Side.rehold (x : Side) (wt : Bool) : Side :=
  if x.isGm wt then x.setY wt (x.holdrefY.getD 0)
  else if x.baseState wt = 3 then x.setY wt (x.holdY wt) else x

/-- HOLDREF within or out of tolerance. -/
def Side.setHoldref (x : Side) (h : Option Int) : Side :=
  let x := { x with me := { x.me with time := { x.me.time with holdref := h } } }
  ((x.setFlag Reg.TIME_STATE 11 h.isSome).rehold false).rehold true

/-- A write of HOLDREF_CFG (R43, R66, R67): a reference newly selected, or none, has given no edge yet. -/
def Side.writeHoldref (x : Side) (v : Word) : Side :=
  let same := fld v 1 0 == x.field Reg.HOLDREF_CFG 1 0
  let x := x.store Reg.HOLDREF_CFG v
  if same then x else x.setHoldref none

/-- The nominal period of HOLDREF in ps: 10 MHz or PPS; 0 when none is configured. -/
def Side.holdrefPs (x : Side) : Nat :=
  match x.field Reg.HOLDREF_CFG 1 0 with
  | 1 => 100000
  | 2 => 1000000000000
  | _ => 0

/-- HOLDREF_EDGE (R67): a period within 200 ppm of nominal disciplines the frequency, any other clears HOLDREF_OK. -/
def execHoldrefEdge (n : Now) (d : Ch) (periodPs : Nat) (s : State) : Host.Outcome State Fault Refusal :=
  onLive n d (fun x =>
    let nom := x.holdrefPs
    if nom = 0 then x
    else if ((periodPs : Int) - nom).natAbs * 1000000 ≤ 200 * nom then
      x.setHoldref (some (rndAway (((nom : Int) - periodPs) * 10 ^ 12) periodPs))
    else x.setHoldref none) s

/-- HOLDREF_REFERENCE_STOPPED (R67). -/
def execHoldrefReferenceStopped (n : Now) (d : Ch) (s : State) : Host.Outcome State Fault Refusal :=
  onLive n d (fun x => if x.holdrefPs = 0 then x else x.setHoldref none) s

/-- HOLDOVER_EXPIRED (R68): after HOLDOVER_MAX seconds in HOLDOVER, once an entry; the base stays in HOLDOVER and a
fault message of class HOLDOVER goes out (R741). -/
def execHoldoverExpired (n : Now) (d : Ch) (wt : Bool) (s : State) : Host.Outcome State Fault Refusal :=
  onLive n d (fun x =>
    let b := x.base wt
    if x.baseState wt = 3 && !b.expired && clampN 1 3600 (x.rdN Reg.HOLDOVER_MAX) * 10 ^ 9 ≤ x.mt - b.holdMt then
      ((x.modBase wt fun b => { b with expired := true }).raise Ev.TIME_HOLDOVER_EXPIRED).faultMessage 3
        { cls := 0x0D, block := T.TIME, inst := 0, ev := Ev.TIME_HOLDOVER_EXPIRED.bit, stream := 0 }
    else x) s

/-- The base enters the grandmaster role: it runs at MT rate or HOLDREF's and reads LOCKED (R43). -/
def Side.gmStart (x : Side) (wt : Bool) : Side :=
  let was := x.baseState wt
  let x := (x.setY wt (x.holdrefY.getD 0)).setBaseState wt 2
  if was = 2 then x else x.raise Ev.TIME_LOCK

/-- The base leaves the grandmaster role: HOLDOVER at the frequency it ran at (R913). -/
def Side.gmStop (x : Side) (wt : Bool) : Side := x.toHoldoverAt wt (x.base wt).y

/-- GM_ROLE_CLEAR (R913): a write that clears VT_GM or WT_GM. -/
def execGmRoleClear (n : Now) (d : Ch) (w : Init) (wt : Bool) (s : State) : Host.Outcome State Fault Refusal :=
  onLive n d (fun x => x.access w Reg.TIME_CTRL fun x =>
    if x.isGm wt then
      let b := (x.base wt).y
      (x.setFlag Reg.TIME_CTRL (if wt then 5 else 4) false).toHoldoverAt wt b
    else x) s

/-- GM_ACCEPT (R61, R912): EXP_GM_ID becomes the accepted identity of each domain whose bit is written 1. -/
def execGmAccept (n : Now) (d : Ch) (w : Init) (v : Word) (s : State) : Host.Outcome State Fault Refusal :=
  onLive n d (fun x => x.access w Reg.GM_ACCEPT fun x =>
    let id := x.rd64 Reg.EXP_GM_ID
    let x := if bit v 0 then x.wr64 Reg.ACC_GM_VT id else x
    if bit v 1 then x.wr64 Reg.ACC_GM_WT id else x) s

/-- SNAP (R34): VT, MT, WT and DT captured in the same cycle. -/
def execSnap (n : Now) (d : Ch) (w : Init) (v : Word) (s : State) : Host.Outcome State Fault Refusal :=
  onLive n d (fun x => x.access w Reg.SNAP fun x =>
    if bit v 0 then
      (((x.wr64 Reg.SNAP_VT x.vt).wr64 Reg.SNAP_MT x.mt).wr64 Reg.SNAP_WT x.wt).wr64 Reg.SNAP_DT x.dt
    else x) s

/-- A write of a port's roles: the timeout of a domain runs from the moment the port becomes its slave port (R911). -/
def Side.writeRole (x : Side) (port : Nat) (v : Word) : Side :=
  let arm := fun (wt : Bool) (y : Side) =>
    if y.portRole port wt == 2 && x.portRole port wt != 2 then y.armSync wt (logNs y.me.time.gptp.logSync) else y
  arm true (arm false (x.store ((Reg.PORT_ROLE : Reg).el 0x10 port) v))

/-- PORT_ROLE_WRITE (R42): ignored when it would give a domain a second slave port. -/
def execPortRoleWrite (n : Now) (d : Ch) (w : Init) (port : Fin 8) (v : Word) (s : State) :
    Host.Outcome State Fault Refusal :=
  onLive n d (fun x => x.access w ((Reg.PORT_ROLE : Reg).el 0x10 port) fun x =>
    if (fld v 1 0 == 2 && x.otherSlave port false) || (fld v 3 2 == 2 && x.otherSlave port true) then
      x.raise Ev.TIME_CFG_ERR
    else x.writeRole port v) s

/-- The comparison of a heartbeat's VT with the receiver's own (R71). DEDUCED, notes 19, 160. -/
def Side.peerCheck (x : Side) (peerVt : Nat) : Side :=
  let df := diff64 x.vt peerVt
  let x := x.wr Reg.PEER_OFFSET (satI32 df)
  if df.natAbs > x.rdN Reg.PEER_AGREE_LIMIT then (x.count Ct.TIME_PEER_DISAGREE).raise Ev.TIME_PEER_DISAGREE else x

end Sys2Proof.Machine
end

