-- ==== Sys2Proof/Machine/HostPort.lean ====
section
/-!
DEFINITION. The host port: apertures, MSI-X, the shed area's registers, the start of an instance reset, the link, the
peer heartbeat and the mailbox (R634 to R681).
-/

namespace Sys2Proof.Machine

/-! ## Apertures (R642 to R646) -/

/-- A data address lies in a sealed region (R420). -/
def Side.sealed (x : Side) (a n : Nat) : Bool :=
  (List.range 8).any fun k =>
    let b := x.field ((Reg.LOFT_SEAL : Reg).el 4 k) 15 0 * 0x200000
    let len := x.field ((Reg.LOFT_SEAL : Reg).el 4 k) 31 16 * 0x200000
    decide (a < b + len) && decide (b < a + n)

/-- An aperture error of a function (R644, R645): recorded, counted, raised to its own event ring, reported by AER. -/
def Side.apertureError (x : Side) (f cause : Nat) (write : Bool) (off : Nat) (c : Ct) : Side :=
  let x := x.hwr (x.iov Reg.IOV_ERR_INFO f) (pack [(0, cause), (2, nat1 write)])
  let x := (x.hwr64 (x.iov Reg.IOV_ERR_OFF f) off).hcount c (x.fnIx f) f
  let x := x.hsetFlag Reg.PCI_AER_SUM 2 true
  (x.hraise Ev.HUB_IOV_WINDOW (x.fnIx f) f).hemit (.aer (x.fnIx f))

/-- The hub answers host traffic to a channel: the hub and its link are up. -/
def Side.hostReach (x : Side) : Bool := x.linkUp

/-- A host read of the loft passes bridle 18 (R447, R642): its data, or poison (R434). -/
def Side.hostRead (x : Side) (fn off len : Nat) : Side :=
  let a := x.winBase fn + off
  let r := (x.passBridle 18 ⟨true, a, len, none⟩).loftMeet a len
  r.1.hemit (if r.2 then .poisonedRead (x.fnIx fn) off else .readData off (r.1.loftGet a len))

/-- APERTURE_READ (R642, R644): Unsupported Request outside the window; poisoned data is reported as poison (R434). -/
def execApertureRead (n : Now) (d : Ch) (fn : Fin 17) (off len : Nat) (s : State) : Host.Outcome State Fault Refusal :=
  onAny n d (fun x =>
    if !x.hostReach then x
    else if !x.live || x.winSize fn < off + len then
      (x.apertureError fn 1 false off Ct.IOV_OUT_OF_WINDOW).hemit (.unsupported (x.fnIx fn) off)
    else x.hostRead fn off len) s

/-! ## MSI-X (R650 to R652) -/

/-- Send the pending vectors of a function that may now go. -/
def Side.sendPending (x : Side) (f : Nat) : Side :=
  let mine := x.hub.pending.filter fun k => k / 64 == x.fnIx f
  mine.foldl (fun x k => { x with hub := { x.hub with pending := x.hub.pending.del k } }.msix f (k % 64)) x

/-- MSIX_UNMASK (R652): a vector is unmasked, or Bus Master Enable is set. -/
def execMsixUnmask (n : Now) (d : Ch) (fn : Fin 17) (vec : Option (Fin 64)) (s : State) :
    Host.Outcome State Fault Refusal :=
  onAny n d (fun x =>
    if x.hub.down || vec.any (fun v => decide (vectors fn ≤ v.val)) then x else
    let x := match vec with
      | some v => { x with hub := { x.hub with unmasked := x.hub.unmasked.add (x.fnIx fn * 64 + v.val) } }
      | none => { x with hub := { x.hub with busMaster := x.hub.busMaster.add (x.fnIx fn) } }
    x.sendPending fn) s

/-! ## Shed area (R662 to R664) -/

/-- Some stall of the channel holds a shed window. -/
def Side.shedHeld (x : Side) : Bool :=
  (List.range 8).any fun s => x.field (Reg.PSQ_STAT.inst s) 2 0 != 0 && x.rd64 (Reg.PSQ_SHED_SIZE.inst s) != 0

/-- A write of SHED_BASE or SHED_SIZE (R664). -/
def Side.writeShed (x : Side) (r : Reg) (v : Word) : Side :=
  if x.shedHeld then x.hraise Ev.HUB_SHED_CFG_ERR x.d.die 0 else x.hstore r v

/-- SHED_CFG_WRITE (R664). -/
def execShedCfgWrite (n : Now) (d : Ch) (w : Init) (size hi : Bool) (v : Word) (s : State) :
    Host.Outcome State Fault Refusal :=
  let r := (if size then Reg.SHED_SIZE else Reg.SHED_BASE).inst d.die + (if hi then 4 else 0)
  onHubReg n d w r (fun x => x.writeShed r v) s

/-! ## Instance reset, phases 1 and 2 (R653 to R660) -/

/-- IOV_STAT.STATE of a function. -/
def Side.iovState (x : Side) (f : Nat) : Nat := x.hfield (x.iov Reg.IOV_STAT f) 1 0

/-- The stall a virtual function is mapped to (R647). -/
def Side.mappedStall (x : Side) (f : Nat) : Option Nat :=
  if x.hflag (x.iov Reg.IOV_MAP f) 0 && !x.hflag (x.iov Reg.IOV_MAP f) 1 then some (x.hfield (x.iov Reg.IOV_MAP f) 5 2) else none

/-- The raster context a virtual function is mapped to (R647). -/
def Side.mappedCtx (x : Side) (f : Nat) : Option Nat :=
  if x.hflag (x.iov Reg.IOV_MAP f) 0 && x.hflag (x.iov Reg.IOV_MAP f) 1 then some (x.hfield (x.iov Reg.IOV_MAP f) 5 2) else none

/-- A stall is admitted and served. -/
def Side.stallServed (x : Side) (s : Nat) : Bool :=
  x.field (Reg.PSQ_STAT.inst s) 2 0 != 0 && x.flag (Reg.PSQ_STAT.inst s) 3

/-- Phase 2: SQUASHING, counted; a shed transfer of the mapped stall stops after the page in flight (R654). DEDUCED, note 85. -/
def Side.squash (x : Side) (f : Nat) : Side :=
  let x := match x.mappedStall f with
    | some st => x.modStl st fun s => { s with swap := s.swap.map fun (w : Swap) => { w with flight := some 1 } }
    | none => x
  ((x.hsetField (x.iov Reg.IOV_STAT f) 1 0 2).hsetFlag (x.iov Reg.IOV_STAT f) 2 true).hcount Ct.IOV_SQUASHES (x.fnIx f) f

/-- An instance reset begins (R654): DRAINING, or SQUASHING at once in SQUASH mode. A mapped served stall is quiesced, a
mapped raster context enters RESETTING. A trigger during a reset is absorbed (R660). -/
def Side.beginReset (x : Side) (f : Nat) (squash : Bool) : Side :=
  if x.iovState f != 0 then x
  else
    let x := (x.hsetField (x.iov Reg.IOV_STAT f) 1 0 1).hsetFlag (x.iov Reg.IOV_STAT f) 2 false
    let x := x.modFn f fun s => { s with drainMt := x.mt }
    let x := match x.mappedStall f with
      | some st => if x.stallServed st then (x.setFlag (headReg T.BSQ st Reg.BLK_CTRL) 1 true).bsqSettle st else x
      | none => x
    let x := match x.mappedCtx f with
      | some c => x.setField (Reg.GFX_CTX_STAT.inst (c + 1)) 2 0 3
      | none => x
    if squash then x.squash f else x

/-- IOV_CTRL.MODE of a function: SQUASH. -/
def Side.squashMode (x : Side) (f : Nat) : Bool := x.hflag (x.iov Reg.IOV_CTRL f) 0

/-- FLR (R653): of a physical function it resets the function and each of its virtual functions in ascending order, and
clears VF Enable. -/
def execFlr (n : Now) (d : Ch) (fn : Fin 17) (s : State) : Host.Outcome State Fault Refusal :=
  onAny n d (fun x =>
    if x.hub.down then x
    else if fn.val = 0 then
      let x := { x with hub := { x.hub with vfEnable := x.hub.vfEnable.del x.d.die } }
      (List.range 17).foldl (fun x f => x.beginReset f (x.squashMode f)) x
    else x.beginReset fn (x.squashMode fn)) s

/-- IOV_CTRL_RESET (R653): a write of IOV_CTRL; MODE is stored, RESET starts the reset. -/
def execIovCtrlReset (n : Now) (d : Ch) (w : Init) (fn : Fin 17) (v : Word) (s : State) :
    Host.Outcome State Fault Refusal :=
  onHubReg n d w ((Reg.IOV_CTRL : Reg).inst (17 * d.die + fn)) (fun x =>
    let x := x.hstore (x.iov Reg.IOV_CTRL fn) v
    if bit v 1 then x.beginReset fn (bit v 0) else x) s

/-- INSTANCE_RESET_DRAIN_TIMEOUT (R654): phase 1 has lasted 2 ms. -/
def execInstanceResetDrainTimeout (n : Now) (d : Ch) (fn : Fin 17) (s : State) : Host.Outcome State Fault Refusal :=
  onAny n d (fun x =>
    if x.iovState fn = 1 && decide (2000000 ≤ x.mt - (x.fn fn).drainMt) then x.squash fn else x) s

/-! ## Peer heartbeat (R673 to R676) -/

/-- The STATE a heartbeat carries (R673). -/
def Side.beatState (x : Side) : Nat :=
  if x.me.rst.req.isSome then 2
  else match x.safeState with
    | 0 => 3
    | 1 => 0
    | 2 => 1
    | _ => 4

/-- Send a heartbeat to the peer through the hub; while the peer traffic is cut it is lost. -/
def Side.sendBeat (x : Side) : Side :=
  let b : Heartbeat := { vt := x.vt, valid := x.stamp.valid, frame := x.rdN Reg.CAD_FRAME,
                         seq := x.me.safe.hbSeq % 2 ^ 16, state := x.beatState }
  let x := x.modSafe fun s => { s with hbSeq := s.hbSeq + 1 }
  if x.hub.peerCut then x
  else
    { x with hub := x.hub.modLane x.d.peer fun q => { q with beats := q.beats ++ [b] } }.emit
      (.heartbeat b.vt b.valid b.frame b.seq b.state)

/-- HB_PERIOD in ns. -/
def Side.hbPeriod (x : Side) : Nat := clampN 10 10000 (x.hfield Reg.HB_CFG 13 0) * 1000

/-- HEARTBEAT_SEND (R673): every HB_PERIOD of the channel's MT. -/
def execHeartbeatSend (n : Now) (d : Ch) (s : State) : Host.Outcome State Fault Refusal :=
  onLive n d (fun x =>
    if x.hbPeriod ≤ x.mt - x.me.safe.hbMt then
      (x.modSafe fun s => { s with hbMt := x.mt }).sendBeat
    else x) s

/-- The place of a channel's register among a pair of them on the HUB_PEER page. -/
def peerReg (r : Reg) (n : Nat) (d : Ch) : Reg := r + n * d.die

/-- A heartbeat arrives (R674 to R676): its STATE is shown; it is compared when both VT values are valid; it counts only
when its STATE is NORMAL, and HB_RECOVER of those in a row bring the peer back. DEDUCED, note 87. -/
def Side.receiveBeat (x : Side) (b : Heartbeat) : Side :=
  let x := match x.d with
    | .a => x.hsetField Reg.PEER_STAT 4 2 b.state
    | .b => x.hsetField Reg.PEER_STAT 7 5 b.state
  let x := if b.valid && x.stamp.valid then x.peerCheck b.vt else x
  if b.state != 0 then x.modSafe fun s => { s with hbRun := 0 }
  else x.modSafe fun s => { s with hbGot := true, hbMiss := 0, hbRun := s.hbRun + 1 }

/-- The peer comes back with this heartbeat (R675). -/
def Side.peerBack (x : Side) : Bool :=
  x.me.safe.solo && !x.me.safe.soloClear && decide (max 1 (x.hfield Reg.HB_CFG 23 20) ≤ x.me.safe.hbRun)

/-- The channel sees its peer: its bit of PEER_STAT. -/
def Side.setSees (x : Side) (v : Bool) : Side := x.hsetFlag Reg.PEER_STAT x.d.die v

/-- The channel takes a heartbeat: a NORMAL one shows the peer present again unless SOLO is set, and one that brings the
peer back raises PEER_BACK on both channels (R674, R675). DEDUCED, note 123. -/
def State.beatIn (s : State) (d : Ch) (b : Heartbeat) : State :=
  let s := s.onSide d fun x =>
    let x := (x.receiveBeat b).settle
    if b.state = 0 && !x.me.safe.solo then x.setSees true else x
  if (s.side d).peerBack then
    (s.onSide d fun x => (x.setSees true).modSafe fun s => { s with soloClear := true }).raiseBoth Ev.HUB_PEER_BACK
  else s

/-- The queues between the channels changed towards channel d. -/
def State.lane (s : State) (d : Ch) (f : PeerLane → PeerLane) : State := { s with hub := s.hub.modLane d f }

/-- HEARTBEAT_RECEIVED (R674, R675). A die in reset takes none. -/
def execHeartbeatReceived (n : Now) (d : Ch) (s : State) : Host.Outcome State Fault Refusal :=
  let s := s.elapse n
  match (s.hub.lane d).beats with
  | [] => .next s
  | b :: t =>
    let s' := s.lane d fun q => { q with beats := t }
    .next (if (s.side d).live then s'.beatIn d b else s')

/-- A period without a heartbeat is counted; after HB_MISS of them in a row the peer is lost and SOLO is set (R30, R674).
DEDUCED, note 87. -/
def State.beatMissed (s : State) (d : Ch) : State :=
  let s := s.onSide d fun x => x.modSafe fun s => { s with hbMiss := s.hbMiss + 1, hbRun := 0 }
  let s := s.hubCount ⟨T.HUB_PEER, d.die, 0xFFFFFFFF⟩ 0
  let x := s.side d
  if max 1 (x.hfield Reg.HB_CFG 19 16) ≤ x.me.safe.hbMiss && (!x.me.safe.solo || x.me.safe.soloClear) then
    let s := s.onSide d fun x => (x.setSees false).modSafe fun s => { s with solo := true, soloClear := false }
    (s.hubCount Ct.PEER_LOSSES 0).raiseBoth Ev.HUB_PEER_LOST
  else s

/-- A period of the channel's own MT has ended since the one before it (R674). -/
def Side.watchOver (x : Side) : Bool := decide (x.hbPeriod ≤ x.mt - x.me.safe.hbWatch)

/-- HEARTBEAT_PERIOD_MISS (R674): a period ends; one in which a heartbeat was received is no miss. -/
def execHeartbeatPeriodMiss (n : Now) (d : Ch) (s : State) : Host.Outcome State Fault Refusal :=
  let s := s.elapse n
  let x := s.side d
  if !x.live || !x.watchOver then .next s
  else
    let t := s.onSide d fun x => x.modSafe fun f => { f with hbWatch := x.mt, hbGot := false }
    if x.me.safe.hbGot then .next t else .next (t.beatMissed d)

/-! ## Mailbox (R677 to R680) -/

/-- MB_RX of a channel shows the head message, or zero. -/
def Side.showHead (x : Side) : Side :=
  let m := (x.hub.lane x.d).queue.headD (List.replicate 16 0)
  (List.range 16).foldl (fun x k => x.hwr (peerReg Reg.MB_RX 0x40 x.d + 4 * k) (m.getD k 0)) x

/-- The initiator may write a transmit register of the channel's mailbox: FP-HOST or FP-SAFE, where WORLD and LOCK permit
it (R677, R871). -/
def Side.maySend (x : Side) (w : Init) (a : Reg) : Bool :=
  (match w with
    | .pair p => p.val == 0 || p.val == 2
    | _ => false) && x.hpermits w a

/-- A write of a word of the transmit buffer (R677). DEDUCED, note 10. -/
def mailboxBuffer (n : Now) (d : Ch) (w : Init) (a : Reg) (v : Word) (s : State) : Host.Outcome State Fault Refusal :=
  let s := s.elapse n
  let x := s.side d
  if !x.reachesHub w || !x.hubPageOn a then .next s
  else if !x.maySend w a then .next (s.hubDenied d w)
  else .next (s.onSide d fun x => x.hwr a v)

/-- MAILBOX_SEND (R677, R678): only FP-HOST and FP-SAFE; refused and counted when the queue is full. -/
def execMailboxSend (n : Now) (d : Ch) (w : Init) (v : Word) (s : State) : Host.Outcome State Fault Refusal :=
  let s := s.elapse n
  let x := s.side d
  if !x.live || x.hub.peerCut || !bit v 0 then .next s
  else if !x.maySend w (peerReg Reg.MB_SEND 4 d) then .next (s.hubDenied d w)
  else if (x.hub.lane d.peer).full then .next (s.hubCount Ct.PEER_MB_QUEUE_FULL 0)
  else
    let msg := (List.range 16).map fun k => x.hrd (peerReg Reg.MB_TX 0x40 d + 4 * k)
    .next (s.lane d.peer fun q => { q with flight := q.flight ++ [(msg, x.stamp.valid)] })

/-- A message is malformed: its check code, its LEN or a reserved bit (R679). DEDUCED, note 88. -/
def malformed (m : List Word) : Bool :=
  let w0 := m.getD 0 0
  crc32c (wordsBytes (m.take 15)) != m.getD 15 0 || decide (48 < fld w0 13 8) || fld w0 15 14 != 0

/-- A message is untimely: both VT values valid and further apart than MB_MAX_AGE (R679). -/
def Side.untimely (x : Side) (m : List Word) (valid : Bool) : Bool :=
  valid && x.stamp.valid
    && decide (clampN 1 10000 (x.hfield Reg.MB_CFG 13 0) * 1000
        < (diff64 x.vt ((m.getD 1 0).toNat + 2 ^ 32 * (m.getD 2 0).toNat)).natAbs)

/-- MAILBOX_RECEIVE (R679, R680): the oldest message sent is queued, or discarded, counted and raised. -/
def execMailboxReceive (n : Now) (d : Ch) (s : State) : Host.Outcome State Fault Refusal :=
  let s := s.elapse n
  match (s.hub.lane d).flight with
  | [] => .next s
  | (m, valid) :: t =>
    let x := s.side d
    let s := s.lane d fun q => { q with flight := t }
    if !x.live then .next s
    else if malformed m || x.untimely m valid then .next ((s.hubCount Ct.PEER_MB_DISCARDED 0).raiseBoth Ev.HUB_PEER_MB_DISCARD)
    else .next (((s.lane d fun q => { q with queue := q.queue ++ [m] }).onSide d Side.showHead).hubCount Ct.PEER_MB_SENT 0)

/-- MAILBOX_POP (R677): removes the head message. -/
def execMailboxPop (n : Now) (d : Ch) (w : Init) (v : Word) (s : State) : Host.Outcome State Fault Refusal :=
  onHubReg n d w (peerReg Reg.MB_POP 4 d) (fun x =>
    if bit v 0 then
      { x with hub := x.hub.modLane x.d fun q => { q with queue := q.queue.drop 1 } }.showHead
    else x) s

end Sys2Proof.Machine
end

