-- ==== Sys2Proof/Machine/Rings.lean ====
section
/-!
DEFINITION. Rings and register mode: ring configuration, doorbells, acceptance of commands, the register commands, and
the ring commands that Rhordo carries out itself (R682 to R722).
-/

namespace Sys2Proof.Machine

/-! ## Ring configuration (R701 to R703) -/

/-- The entry size of ring k (R703). -/
def entrySize (k : Nat) : Nat := if k = 5 then 32 else 64

/-- LOG2_N of ring k is in its range (R701). -/
def log2Ok (k n : Nat) : Bool :=
  if k < 4 || k = 5 then decide (4 ≤ n) && decide (n ≤ 12) else decide (8 ≤ n) && decide (n ≤ 16)

/-- A ring descriptor of an RCB, from its 16 bytes. -/
def parseRing (l : List Byte) : RingDesc :=
  { base := bytesNat (l.take 8), log2 := bytesNat ((l.drop 8).take 1), vec := bytesNat ((l.drop 9).take 1) }

/-- Ranges of bytes do not overlap. -/
def apart (a n b m : Nat) : Bool := decide (a + n ≤ b) || decide (b + m ≤ a)

/-- Every two of a list of (start, length) ranges are apart. -/
def allApart : List (Nat × Nat) → Bool
  | [] => true
  | r :: t => t.all (fun q => apart r.1 r.2 q.1 q.2) && allApart t

/-- The ring configuration an RCB gives, when no field breaks its table (R701, R702): `vf` for a virtual function, whose
window holds `size` bytes. -/
def parseRcb (l : List Byte) (vf : Bool) (size : Nat) : Option Rcb :=
  let cnt := bytesNat ((l.drop 1).take 1)
  let idx := bytesNat ((l.drop 4).take 8)
  let desc := (List.range 7).map fun k => (l.drop (16 + 16 * k)).take 16
  let rings := desc.map parseRing
  let used := (List.range 7).map fun k => decide (k < cnt) || k = 4 || k = 5 || (k = 6 && !vf)
  let ok := (List.range 7).all fun k =>
    let b := desc.getD k []
    let r := rings.getD k { base := 0, log2 := 0, vec := 0 }
    if used.getD k false then
      log2Ok k r.log2 && r.base % 128 == 0 && decide (r.base < 2 ^ 36)
        && decide (r.base + 2 ^ r.log2 * entrySize k ≤ size) && decide (r.vec < if vf then 60 else 64)
        && (b.drop 10).all (· == 0)
    else b.all (· == 0)
  let ranges := (idx, 128) :: ((List.range 7).filter fun k => used.getD k false).map fun k =>
    let r := rings.getD k { base := 0, log2 := 0, vec := 0 }
    (r.base, 2 ^ r.log2 * entrySize k)
  if bytesNat (l.take 1) = 1 && decide (1 ≤ cnt) && decide (cnt ≤ 4) && (l.drop 2).take 2 == [0, 0]
      && (l.drop 12).take 4 == [0, 0, 0, 0] && idx % 128 == 0 && decide (idx + 128 ≤ size) && ok && allApart ranges then
    some { sqCount := cnt, idxBase := idx, rings := rings }
  else none

/-- The RCB of function f at an offset of its window; none when it leaves the window or breaks the table. -/
def Side.readRcb (x : Side) (f off : Nat) : Option Rcb :=
  if x.winSize f < off + 128 then none
  else parseRcb (x.loftGet (x.winBase f + off) 128) (f != 0) (x.winSize f)

/-- A function takes a ring configuration: every index starts at zero. A ring in ERROR stays so (R706), and an accepted command
still completes (R712). -/
def Side.startRings (x : Side) (f : Nat) (r : Rcb) : Side :=
  let x := x.modFn f fun s => { s with
    rcb := some r, sqHead := [], cqTail := 0, eqTail := 0, logTail := 0, rr := r.sqCount - 1, abortNext := [] }
  (List.range 7).foldl (fun x k => x.putIndex f k 0) x

/-! ## Log (R718 to R720) -/

/-- Write one log record in the log ring; dropped, counted and raised when the ring is full. -/
def Side.putLog (x : Side) (r : LogRec) : Side :=
  match (x.fn 0).ring 6 with
  | none => x
  | some g =>
    if ((x.fn 0).logTail + 2 ^ 32 - x.doorbell 0 6) % 2 ^ 32 ≥ 2 ^ g.log2 || (x.fn 0).err.contains 6 then
      (x.countRm Ct.RM_LOG_DROPPED).raise Ev.GLV_LOG_DROP 0
    else
      let t := (x.fn 0).logTail
      let x := x.loftWriteW (x.entryAt 0 g t 64)
        ([pack [(0, r.trace), (16, r.src)], word r.seq] ++ r.at_.words ++ [r.at_.word] ++ (r.payload ++ List.replicate 9 0).take 9)
      ((x.modFn 0 fun s => { s with logTail := (t + 1) % 2 ^ 32 }).putIndex 0 6 ((t + 1) % 2 ^ 32)).msix 0 g.vec

/-- A trace point of a source with its payload (R718, R719): written only when its class is enabled in the log mask, held in
FP-HOST's 256-record buffer before ring mode (R720). -/
def Side.log (x : Side) (src trace : Nat) (pay : List Word := []) : Side :=
  if !(x.hrd64 (x.rm Reg.RM_LOG_MASK)).testBit (trace / 1024) then x
  else
    let r : LogRec := { src := src, trace := trace, seq := x.me.logSeq % 2 ^ 32, at_ := x.stamp, payload := pay }
    let x := { x with me := { x.me with logSeq := x.me.logSeq + 1 } }
    if (x.fn 0).rcb.isSome then x.putLog r
    else if x.me.logBuf.length < 256 then { x with me := { x.me with logBuf := x.me.logBuf ++ [r] } }
    else (x.countRm Ct.RM_LOG_DROPPED).raise Ev.GLV_LOG_DROP 0

/-! ## Register commands (R687 to R692, R698, R699) -/

/-- A register command ends: BUSY clears, STATUS and RESULT are set (R687). -/
def Side.rmEnd (x : Side) (status result : Nat) : Side :=
  x.hwr (x.rm Reg.RM_CMD_STAT) (pack [(8, status), (16, result)])

/-- The staging window of WAIT_IMAGE: 64 MiB at loft data address 0 (R692). -/
def Side.waitImage (x : Side) (cause : Nat) : Side :=
  ((x.setMode 2).setCause cause).hwr (x.iov Reg.IOV_WIN 0) (pack [(16, 32)])

/-- LOAD_IMAGE (R688, R692): only in WAIT_IMAGE; the Hatbox begins to verify what the driver delivered. -/
def Side.loadImage (x : Side) : Side :=
  let len := x.hrdN (x.rm Reg.RM_ARG)
  if x.mode != 2 then x.rmEnd 5 3
  else if len < 4096 || 67108864 < len then x.rmEnd 5 7
  else ((x.hsetFlag (x.rm Reg.RM_CMD_STAT) 0 true).setMode 3).setFlag Reg.HBX_STAT 6 true

/-- The interface versions refuse (R699): 5 VERSION_MAJOR, 6 VERSION_MINOR, 0 accepted. -/
def versionCause (host fw : Word) : Nat :=
  if host = 0 || fld host 31 16 != fld fw 31 16 then 5 else if fld host 15 0 > fld fw 15 0 then 6 else 0

/-- ENTER_RING (R688, R699, R702). -/
def Side.enterRing (x : Side) : Side :=
  if x.mode != 5 then x.rmEnd 5 3
  else
    let c := versionCause (x.hrd (x.rm Reg.RM_HOST_IFVER)) (x.hrd (x.rm Reg.RM_FW_IFVER))
    if c != 0 then
      (((x.rmEnd 0x0C 0).setCause c).countRm Ct.RM_VERSION_REFUSALS).raise Ev.GLV_VERSION_REFUSED 0
    else match x.readRcb 0 (x.hrd64 (x.rm Reg.RM_ARG)) with
      | none => x.rmEnd 5 6
      | some r =>
        let x := ((x.startRings 0 r).setMode 6).hwr (x.rm Reg.RM_RES) (x.hrd (x.rm Reg.RM_FW_IFVER))
        let x := x.me.logBuf.foldl Side.putLog x
        ({ x with me := { x.me with logBuf := [] } }).rmEnd 0 0

/-- QUERY (R688). -/
def Side.query (x : Side) : Side :=
  if x.mode != 5 && x.mode != 6 then x.rmEnd 5 3
  else
    let res := x.rm Reg.RM_RES
    let x := x.hwr res (x.hrd (x.rm Reg.RM_FW_IFVER))
    let x := x.hwrN (res + 4) ((x.me.hbx.image.map (·.1)).getD 0)
    let x := x.hwrN (res + 8) (x.field Reg.HBX_STAT 2 0)
    let x := x.hwr (res + 12) (x.hrd (x.iov Reg.IOV_WIN 0))
    (x.hwr (res + 16) (pack [(0, x.me.manifest.1), (8, x.me.manifest.2)])).rmEnd 0 0

/-- LEAVE_RING (R689): every function is reset in SQUASH mode in ascending order; the command ends, and MODE becomes
REGISTER, when the last of these resets completes. -/
def Side.leaveRing (x : Side) : Side :=
  if x.mode != 6 then x.rmEnd 5 3
  else
    let x := x.hsetFlag (x.rm Reg.RM_CMD_STAT) 0 true
    (List.range 17).foldl (fun x f => (x.beginReset f true).modFn f fun s => { s with leaving := true }) x

/-- A register command runs (R688): a reserved code completes WINDOW_FAULT with RESULT OPCODE. -/
def Side.rmRun (x : Side) (code : Nat) : Side :=
  match code with
  | 1 => x.loadImage
  | 2 => x.enterRing
  | 3 => x.query
  | 4 => x.leaveRing
  | _ => x.rmEnd 5 1

/-- A write of RM_CMD (R687): ignored while a command is BUSY; held in RESTARTING, with BUSY set, until FP-HOST returns.
DEDUCED, note 89. -/
def Side.rmWrite (x : Side) (v : Word) : Side :=
  if x.hflag (x.rm Reg.RM_CMD_STAT) 0 || x.mode = 0 then x
  else
    let x := x.hwr (x.rm Reg.RM_CMD) (v &&& 0xFF#32)
    if x.mode = 7 then x.hsetFlag (x.rm Reg.RM_CMD_STAT) 0 true else x.rmRun (fld v 7 0)

/-- The held command starts when FP-HOST returns. A LEAVE_RING whose resets run is BUSY too, and is not started again.
DEDUCED, note 89. -/
def Side.rmResume (x : Side) : Side :=
  if x.hflag (x.rm Reg.RM_CMD_STAT) 0 && !((List.range 17).any fun f => (x.fn f).leaving) && (x.mode == 5 || x.mode == 6) then
    x.rmRun (x.hfield (x.rm Reg.RM_CMD) 7 0)
  else x

/-- LOAD_IMAGE: the driver writes the length and the command. -/
def execLoadImage (n : Now) (d : Ch) (len : Word) (s : State) : Host.Outcome State Fault Refusal :=
  onLive n d (fun x => (x.hwr (x.rm Reg.RM_ARG) len).rmWrite 1) s

/-- ENTER_RING: the driver writes the offset of its ring configuration block and the command. -/
def execEnterRing (n : Now) (d : Ch) (off : Nat) (s : State) : Host.Outcome State Fault Refusal :=
  onLive n d (fun x => (x.hwr64 (x.rm Reg.RM_ARG) off).rmWrite 2) s

/-- QUERY. -/
def execQuery (n : Now) (d : Ch) (s : State) : Host.Outcome State Fault Refusal :=
  onLive n d (fun x => x.rmWrite 3) s

/-- LEAVE_RING. -/
def execLeaveRing (n : Now) (d : Ch) (s : State) : Host.Outcome State Fault Refusal :=
  onLive n d (fun x => x.rmWrite 4) s

/-! ## Doorbells (R704 to R706) -/

/-- The producer and consumer of ring k of a function: the device holds one, the doorbell page the other. -/
def Side.ringFill (x : Side) (f k : Nat) : Nat :=
  let s := x.fn f
  let db := x.doorbell f k
  let own := if k < 4 then Tbl.get 0 s.sqHead k else if k = 4 then s.cqTail else if k = 5 then s.eqTail else s.logTail
  if k < 4 then (db + 2 ^ 32 - own) % 2 ^ 32 else (own + 2 ^ 32 - db) % 2 ^ 32

/-- A ring enters ERROR: it is no longer served, the function's event ring gets a record, the error is counted and
raised (R706). -/
def Side.ringError (x : Side) (f k : Nat) : Side :=
  let x := (x.modFn f fun s => { s with err := s.err.add k }).eventRecord f x.d.die Ev.GLV_RING_ERR 0 0
  (x.countRm Ct.RM_RING_ERRORS).raise Ev.GLV_RING_ERR 0

/-- A ring of a function whose latched doorbell leaves more entries than it holds enters ERROR; FP-HOST acts on the latched
value while it runs (R705, R706). -/
def Side.checkRing (x : Side) (f k : Nat) : Side :=
  match (x.fn f).ring k with
  | none => x
  | some r => if x.pairUp 0 && !(x.fn f).err.contains k && decide (2 ^ r.log2 < x.ringFill f k) then x.ringError f k else x

/-- FP-HOST looks at every ring, as it does when it returns (R705). -/
def Side.checkRings (x : Side) : Side :=
  (List.range 17).foldl (fun x f => (List.range 7).foldl (fun x k => if x.iovState f = 0 then x.checkRing f k else x) x) x

/-- DOORBELL_WRITE (R704 to R706): the hub latches the value, whether or not FP-HOST runs; while the function is being
reset the write is dropped and counted (R654). A virtual function has no LOG ring. -/
def execDoorbellWrite (n : Now) (d : Ch) (fn : Fin 17) (reg : Fin 7) (v : Word) (s : State) :
    Host.Outcome State Fault Refusal :=
  onAny n d (fun x =>
    if !x.hostReach then x
    else if x.iovState fn != 0 then x.hcount Ct.IOV_DOORBELL_DROPPED (x.fnIx fn) fn
    else
      let x := x.hwr ((x.iov Reg.SQ_TAIL fn) + 4 * reg.val) v
      if x.live then x.checkRing fn reg else x) s

/-- GLOVE_PAIR_RESTART_DONE (R724): only a pair that is restarting returns, and not one the Hatbox halted (R782). A register
command held for FP-HOST then starts (R687), and FP-HOST acts on the doorbells latched meanwhile (R705). -/
def execGlovePairRestartDone (n : Now) (d : Ch) (p : Fin 4) (s : State) : Host.Outcome State Fault Refusal :=
  onLive n d (fun x =>
    if x.field (Reg.GLV_STAT.inst p) 1 0 = 3 && !(x.pair p).hbxHalt then
      (if p = 0 then (x.pairReturns p).checkRings.rmResume else x.pairReturns p)
    else x) s

/-! ## Acceptance (R707 to R711, R716) -/

/-- Opcodes that need AUTH (R708). -/
def needsAuth (op : Nat) : Bool := [0x01, 0x02, 0x03, 0x0C, 0x0E, 0x0F].contains op

/-- A function may submit an opcode (R648, R708). -/
def Side.maySubmit (x : Side) (f op : Nat) : Bool :=
  f = 0 || op = 0x00 || op = 0x07 || ((op = 0x04 || op = 0x05) && (x.mappedStall f).isSome)
    || (op = 0x06 && (x.mappedCtx f).isSome)

/-- The first cause that refuses an entry (R710): 0 when none does. An authenticated entry is judged with the EXT entry
that follows it; one that no EXT entry follows names no opcode. DEDUCED, note 89. -/
def Side.refusal (x : Side) (f : Nat) (l ext : List Word) : Nat :=
  let w0 := l.getD 0 0
  let op := fld w0 7 0
  if op > 0x0F || extMissing l ext then 1
  else if reservedBits l ext then 2
  else if !x.maySubmit f op then 3
  else if op = 0x09 && l.getD 3 0 != 0 then 4
  else if (op = 0x09 || op = 0x0A || op = 0x08) && (l.getD 2 0).toNat > 16 then 4
  else if (op = 0x04 || op = 0x05) && f != 0 && x.mappedStall f != some (fld (l.getD 2 0) 2 0) then 4
  else if op = 0x06 && f != 0 && x.mappedCtx f != some (fld (l.getD 2 0) 3 0) then 4
  else if needsAuth op && !bit w0 8 then 5
  else if op = 0x0C && ((l.getD 4 0).toNat < 4096 || 67108864 < (l.getD 4 0).toNat) then 7
  else 0

/-- The submission ring to serve next: the first after the last served one that holds an entry (R709). -/
def Side.nextRing (x : Side) (f : Nat) : Option Nat :=
  match (x.fn f).rcb with
  | none => none
  | some r => ((List.range r.sqCount).map fun k => ((x.fn f).rr + 1 + k) % r.sqCount).find? fun k =>
      x.ringFill f k != 0 && !(x.fn f).err.contains k

/-- The completion ring has room for one more record beside those reserved (R716). -/
def Side.cqRoom (x : Side) (f : Nat) : Bool :=
  match (x.fn f).ring 4 with
  | none => false
  | some r => decide (x.ringFill f 4 + (x.fn f).accepted.length < 2 ^ r.log2)

/-- The 16 words of an entry. -/
def Side.entryWords (x : Side) (f : Nat) (r : RingDesc) (i : Nat) : List Word :=
  (List.range 16).map fun k => word (x.loftWord (x.entryAt f r i 64 + 4 * k))

/-- Accept the entry at the head of ring k (R709): SQ_HEAD passes it and its EXT entry, the acceptance is recorded, and
the entry is refused with its cause, aborted by an earlier ABORT (R721), or held for execution. Commands of FP-PLAN
are handed on at once (R725). -/
def Side.acceptEntry (x : Side) (f k : Nat) (r : RingDesc) : Side :=
  let h := Tbl.get 0 (x.fn f).sqHead k
  let l := x.entryWords f r h
  let w0 := l.getD 0 0
  let auth := bit w0 8
  let ext := if auth then x.entryWords f r (h + 1) else []
  let c : Cmd := { ring := k, id := (l.getD 1 0).toNat, op := fld w0 7 0, auth := auth, words := l, ext := ext,
                   checked := !auth, handed := planOp (fld w0 7 0), fixed := false }
  let nh := (h + if auth then 2 else 1) % 2 ^ 32
  let x := (x.modFn f fun s => { s with sqHead := s.sqHead.put k nh, rr := k }).putIndex f k nh
  let x := x.record 0x04 0 [pack [(0, c.op), (8, f), (14, k), (16, nat1 auth)], word c.id, ext.getD 2 0, ext.getD 3 0,
    crc32c (wordsBytes l), 0, 0, 0]
  let cause := x.refusal f l ext
  if cause != 0 then x.complete f c 5 cause
  else if (x.fn f).abortNext.contains (k, c.id) then
    (x.modFn f fun s => { s with abortNext := s.abortNext.filter (· != (k, c.id)) }).complete f c 6
  else x.modFn f fun s => { s with accepted := s.accepted ++ [c] }

/-- COMMAND_ACCEPT (R709, R711, R716): in ring mode, with FP-HOST running and the host link up (R16), FP-HOST takes the next entry of a function's
rings when a record slot is free; an authenticated entry waits for its EXT entry. -/
def execCommandAccept (n : Now) (d : Ch) (fn : Fin 17) (s : State) : Host.Outcome State Fault Refusal :=
  onLive n d (fun x =>
    if x.mode != 6 || !x.pairUp 0 || !x.linkUp || x.iovState fn != 0 || !x.cqRoom fn then x
    else match x.nextRing fn with
      | none => x
      | some k => match (x.fn fn).ring k with
        | none => x
        | some r =>
          let w0 := word (x.loftWord (x.entryAt fn r (Tbl.get 0 (x.fn fn).sqHead k) 64))
          if bit w0 8 && x.ringFill fn k < 2 then x else x.acceptEntry fn k r) s

/-! ## Ring commands that Rhordo completes itself -/

/-- A reset of function f holds its commands: one that began in this very cycle does not, since a completion in the cycle of
the trigger stands (R659). DEDUCED, note 85. -/
def Side.resetHolds (x : Side) (f : Nat) : Bool := x.iovState f != 0 && (x.fn f).drainMt != x.mt

/-- A ring command runs only while FP-HOST runs and its function is not being reset. -/
def Side.hostCmd (x : Side) (r : CmdRef) (op : Nat) (f : Cmd → Side → Side) : Side :=
  if !x.pairUp 0 || (r.fn.val < 17 && x.resetHolds r.fn) then x else x.withCmd r op f

/-- NOP (R708). -/
def execNop (n : Now) (d : Ch) (r : CmdRef) (s : State) : Host.Outcome State Fault Refusal :=
  onLive n d (fun x => x.hostCmd r 0x00 fun c x => x.complete r.fn c 0) s

/-- LOG_MASK (R719): words 2–3 replace the mask. -/
def execLogMask (n : Now) (d : Ch) (r : CmdRef) (s : State) : Host.Outcome State Fault Refusal :=
  onLive n d (fun x => x.hostCmd r 0x0B fun c x => (x.hwr64 (x.rm Reg.RM_LOG_MASK) (c.w64 2)).complete r.fn c 0) s

/-- INSTANCE_CFG (R701, R702): names the ring configuration block of a virtual function. -/
def execInstanceCfg (n : Now) (d : Ch) (r : CmdRef) (s : State) : Host.Outcome State Fault Refusal :=
  onLive n d (fun x => x.hostCmd r 0x09 fun c x =>
    let v := c.w64 2
    if v = 0 || 16 < v then x.complete r.fn c 5 4
    else match x.readRcb v (c.w64 4) with
      | none => x.complete r.fn c 5 6
      | some b => (x.startRings v b).complete r.fn c 0) s

/-- INSTANCE_RESET (R653): starts an instance reset of the named function. -/
def execInstanceReset (n : Now) (d : Ch) (r : CmdRef) (s : State) : Host.Outcome State Fault Refusal :=
  onLive n d (fun x => x.hostCmd r 0x0A fun c x =>
    if 16 < c.w 2 then x.complete r.fn c 5 4
    else (x.complete r.fn c 0).beginReset (c.w 2) (x.squashMode (c.w 2))) s

/-- Every page that a stall can own: its engines, its plan and batch sequencers, page DMA units, bridles. -/
def stallPages : List (Nat × Nat) :=
  ((List.range 8).flatMap fun i => [(T.TE, i), (T.PSQ, i), (T.BSQ, i)]) ++ (List.range 4).map (fun i => (T.PDMA, i))
    ++ (List.range 20).map fun i => (T.BRDL, i)

/-- Set OWNER.INSTANCE on the pages of a stall (R870). -/
def Side.setStallInstance (x : Side) (stall v : Nat) : Side :=
  stallPages.foldl (fun x pg =>
    let o := headReg pg.1 pg.2 Reg.OWNER
    if x.flag o 7 && x.field o 6 4 == stall then x.setField o 12 8 v else x) x

/-- Set OWNER.INSTANCE on the pages of a mapping's target (R870). -/
def Side.setTargetInstance (x : Side) (map : Word) (v : Nat) : Side :=
  if !bit map 0 then x
  else if bit map 1 then x.setField (headReg T.GFX (fld map 5 2 + 1) Reg.OWNER) 12 8 v
  else x.setStallInstance (fld map 5 2) v

/-- The target of a mapping is idle: a stall EMPTY, a raster context DISABLED (R649). -/
def Side.targetIdle (x : Side) (map : Word) : Bool :=
  if !bit map 0 then true
  else if bit map 1 then x.field (Reg.GFX_CTX_STAT.inst (fld map 5 2 + 1)) 2 0 == 0
  else x.field (Reg.PSQ_STAT.inst (fld map 5 2)) 2 0 == 0

/-- A mapping may be written (R647, R649): its target exists and is idle, so is the old one, and no other function has
the target. -/
def Side.mapOk (x : Side) (v : Nat) (map : Word) : Bool :=
  (!bit map 0 || (if bit map 1 then decide (1 ≤ fld map 5 2) else decide (fld map 5 2 < 8)))
    && x.targetIdle map && x.targetIdle (x.hrd (x.iov Reg.IOV_MAP v))
    && (!bit map 0 || (List.range 17).all fun u => u == v || u == 0 || x.hrd (x.iov Reg.IOV_MAP u) != map)

/-- A mapping replaces another: OWNER.INSTANCE of the old target's pages is cleared, that of the new one's set (R870). -/
def Side.remap (x : Side) (v : Nat) (map : Word) : Side :=
  ((x.setTargetInstance (x.hrd (x.iov Reg.IOV_MAP v)) 0).hwr (x.iov Reg.IOV_MAP v) map).setTargetInstance map v

/-- IOV_MAP (R647 to R649, R870): maps a virtual function, or ignores the write with its event. -/
def execIovMap (n : Now) (d : Ch) (r : CmdRef) (s : State) : Host.Outcome State Fault Refusal :=
  onLive n d (fun x => x.hostCmd r 0x08 fun c x =>
    let v := c.w 2
    let map := c.words.getD 3 0 &&& 0x3F#32
    if v = 0 || 16 < v then x.complete r.fn c 5 4
    else if !x.mapOk v map then (x.hraise Ev.HUB_IOV_CFG_ERR (x.fnIx v) 0).complete r.fn c 0
    else (x.remap v map).complete r.fn c 0) s

end Sys2Proof.Machine
end

