-- ==== Sys2Proof/Machine/Walk.lean ====
section
/-!
DEFINITION. The walk of an attention descriptor (R235 to R243, R249, R347, R384, R386): which pages it delivers, and the
delivery of one page by its page DMA unit.
-/

namespace Sys2Proof.Machine

/-- A page of a walk: the sequence (0 for a fixed stall), the address of its list entry, its page index, valid slots, and
whether the list's head can be walked (R386). -/
structure WalkPage where
  seq : Nat
  entry : Nat
  page : Nat
  valid : Nat
  head : Bool
deriving DecidableEq, Repr

/-- Valid slots of page p of a context of n positions (R236). -/
def validSlots (n p : Nat) : Nat := min 16 (n - 16 * p)

/-- A list head is in range (R384, R386); CAP. -/
def Side.listHead (x : Side) (st a : Nat) : Bool :=
  let w0 := word (bytesNat (x.spGet st 0 a 4))
  let w1 := word (bytesNat (x.spGet st 0 (a + 4) 4))
  let w2 := word (bytesNat (x.spGet st 0 (a + 8) 4))
  let cap := fld w1 13 0
  fld w0 7 0 == 1 && fld w0 31 24 == 0 && fld w0 23 16 + 1 == x.pgLayers st && fld w1 31 14 == 0 && fld w2 31 14 == 0
    && decide (32 ≤ cap) && decide (cap ≤ 8192) && cap % 32 == 0
    && (List.range 29).all fun k => bytesNat (x.spGet st 0 (a + 12 + 4 * k) 4) == 0
def Side.listCap (x : Side) (st a : Nat) : Nat := bytesNat (x.spGet st 0 (a + 4) 4) % 2 ^ 14

/-- A word of a tile buffer. -/
def Side.tileWord (x : Side) (e a : Nat) : Word := word (bytesNat ((x.me.tiles.sram e).bytes a 4))

/-- Context length of a sequence in the step that runs: its rows are written before the walk (R246). A re-prefill reads no
position after those it recomputes (R286). -/
def Side.ctxLen (x : Side) (st : Nat) (q : StepSeq) : Nat :=
  if q.repair.isSome then q.pos + q.rows else max (x.nCtx st q.seq) (q.pos + q.rows)

/-- The segment map of a step (R247, R342): word g at SEGMAP_LINE names the sequence of segment g, all ones for none.
DESIGN CHOICE, note 59. -/
def Step.segMap (t : Step) : List Word :=
  (List.range 256).map fun g => if g = 0 then 0xFFFFFFFF else ((t.seqs[g - 1]?).map fun q => word q.seq).getD 0xFFFFFFFF

/-- The sequence of the step that a segment names through the map. -/
def Side.segSeq (x : Side) (e : Nat) (r : Run) (d : Desc) (seg : Nat) : Option StepSeq :=
  if seg = 0 then none
  else
    let w := x.tileWord e (128 * d.n 48 2 + 4 * seg)
    (x.stl r.stall).step.bind fun t => t.seqs.find? fun q => word q.seq == w

/-- Query row i of an attention descriptor: its segment's sequence, position, mask and context (R247, R248). A fixed stall's
rows have one sequence, of the descriptor's own context. -/
def Side.qRow (x : Side) (e : Nat) (r : Run) (d : Desc) (i : Nat) : QRow :=
  let w := x.tileWord e (128 * d.n 40 2 + 4 * i)
  let seg := fld w 31 24
  let pos := fld w 16 0
  if d.srcStatic then { seq := if seg = 0 then none else some 0, pos := pos, mode := d.mask, pre := 0, len := d.nCtx }
  else match x.segSeq e r d seg with
    | some q => { seq := some q.seq, pos := pos, mode := x.sqf r.stall q.seq 0 6 4, pre := x.sqf r.stall q.seq 2 17 0, len := x.ctxLen r.stall q }
    | none => { seq := none, pos := pos, mode := 0, pre := 0, len := 0 }

/-- The rows of an attention descriptor. -/
def Side.qRows (x : Side) (e : Nat) (r : Run) (d : Desc) : List QRow :=
  (List.range (hW (x.hdrIn r.stall e d.aA))).map (x.qRow e r d)

/-- The key at position k of a sequence is allowed to a row (R248). -/
def QRow.allows (q : QRow) (w seq k : Nat) : Bool :=
  q.seq == some seq && decide (k < q.len) && match q.mode with
  | 1 => true
  | 2 => decide (k ≤ q.pos) && decide (q.pos < k + w)
  | 3 => decide (k ≤ q.pos) || (decide (k < q.pre) && decide (q.pos < q.pre))
  | _ => decide (k ≤ q.pos)

/-- No key is allowed to a row (R251): position 0 is the first to be allowed, but in SLIDING. -/
def QRow.empty (q : QRow) (w : Nat) : Bool :=
  q.seq.isNone || q.len == 0 || (q.mode == 2 && decide (q.len + w ≤ q.pos + 1))

/-- The lowest position among the rows of a sequence. -/
def lowestPos (rows : List QRow) (seq : Nat) : Nat :=
  (((rows.filter fun q => q.seq == some seq).map (·.pos)).min?).getD 0

/-- First page of a sliding walk (R249). -/
def slideFirst (tmin w : Nat) : Nat := (tmin + 1 - w) / 16

/-- The list head of a walk, read once at its start (R386): in range, and CAP. -/
def Side.headOf (x : Side) (r : Run) (lb : Nat) : Bool × Nat :=
  ((r.heads.find? fun h => h.1 == lb).map (·.2)).getD (x.listHead r.stall lb, x.listCap r.stall lb)

/-- The pages of a context of n positions from page `first` on. -/
def Side.walkOf (x : Side) (r : Run) (seq lb layer n first : Nat) : List WalkPage :=
  let (ok, cap) := x.headOf r lb
  ((List.range (pagesOf n)).drop first).map fun p =>
    { seq := seq, entry := lb + 128 + (layer * cap + p) * 4, page := p, valid := validSlots n p, head := ok }

/-- A sequence of the step runs through a layer: a re-prefill only up to the highest layer that it recomputes (R286, R287). -/
def Side.layerRuns (x : Side) (st : Nat) (q : StepSeq) (layer : Nat) : Bool :=
  match q.repair with
  | none => true
  | some p => (List.range (x.pgLayers st)).any fun l => decide (layer ≤ l) && x.freshFor st q.seq (x.entryOf st q.seq l p)

/-- The pages that one sequence of the step needs walked. -/
def Side.walkSeq (x : Side) (r : Run) (d : Desc) (rows : List QRow) (q : StepSeq) : List WalkPage :=
  let st := r.stall
  let first := if x.sqf st q.seq 0 6 4 = 2 then slideFirst (lowestPos rows q.seq) d.slideW else 0
  if x.layerRuns st q d.layer then x.walkOf r q.seq (x.sq64 st q.seq 8 % 2 ^ 40) d.layer (x.ctxLen st q) first else []

/-- A list cut into pieces of k. -/
def chunks {α : Type} (k : Nat) : Nat → List α → List (List α)
  | 0, _ => []
  | n + 1, l => if l.length ≤ k then [l] else l.take k :: chunks k n (l.drop k)

/-- The copies that a template is issued in (R347): for each sequence, pieces of at most BSQ_ATTN_PAGES pages. -/
def Side.copies (x : Side) (e : Nat) (r : Run) (d : Desc) : List (List WalkPage) :=
  let st := r.stall
  let k := max 1 (x.field (Reg.BSQ_ATTN_PAGES.inst st) 8 0)
  let rows := x.qRows e r d
  match (x.stl st).step with
  | some t => t.seqs.flatMap fun q => let l := x.walkSeq r d rows q; chunks k l.length l
  | none => []

/-- The pages that the head descriptor of a run walks. -/
def Side.walk (x : Side) (e : Nat) (r : Run) (d : Desc) : List WalkPage :=
  let st := r.stall
  if d.op != 6 && d.op != 7 then []
  else if d.srcStatic then
    let first := if d.mask = 2 then slideFirst (lowestPos (x.qRows e r d) 0) d.slideW else 0
    x.walkOf r 0 (d.n 48 5) d.layer d.nCtx first
  else if d.template then (x.copies e r d).getD r.copy []
  else match (x.stl st).step with
    | some t =>
      let rows := x.qRows e r d
      (t.seqs.flatMap fun q => (x.walkSeq r d rows q).drop (d.n 50 2 % 2 ^ 13)).take (max 1 (x.field (Reg.BSQ_ATTN_PAGES.inst st) 8 0))
    | none => []

/-- The list heads that the walk of the head descriptor reads at its start (R386). -/
def Side.readHeads (x : Side) (r : Run) (d : Desc) : List (Nat × Bool × Nat) :=
  let st := r.stall
  let lbs := if d.op != 6 && d.op != 7 then [] else if d.srcStatic then [d.n 48 5]
    else match (x.stl st).step with
      | some t => t.seqs.map fun q => x.sq64 st q.seq 8 % 2 ^ 40
      | none => []
  lbs.map fun lb => (lb, x.listHead st lb, x.listCap st lb)

/-- Slots walked by the earlier copies of a template: the first key column of this copy (R347). DESIGN CHOICE, note 59. -/
def Side.firstCol (x : Side) (e : Nat) (r : Run) (d : Desc) : Nat :=
  if d.template then 16 * (((x.copies e r d).take r.copy).map List.length).sum else 0

/-- A page DMA unit records a fault of a page: 1 window, 2 TIER 3, 3 parity, 4 shed CRC, 5 link lost. -/
def Side.pdmaFault (x : Side) (u page cause : Nat) (ev : Ev) (ct : Ct) : Side :=
  let x := (x.wrN (Reg.PDMA_FAULT_PAGE.inst u) page).wrN (Reg.PDMA_FAULT_CAUSE.inst u) cause
  (x.count ct u).raise ev u

/-- The walk of a run cannot deliver a page: the sequence completes WINDOW_FAULT (R230, R233); a fixed stall's result
carries WINDOW (R299). -/
def Side.walkLost (x : Side) (e : Nat) (r : Run) (seq : Nat) : Side :=
  if r.served then
    x.modStl r.stall fun s => { s with step := s.step.map fun t => { t with lost := t.lost.add seq, out := t.out.add seq } }
  else (x.stallFaulted r.stall).modEng e fun s => { s with run := s.run.map fun q => { q with win := true } }

/-- The page that a walk has come to is poisoned: every result of a fixed stall that reads it is PARITY_POISON (R292). -/
def Side.walkPoison (x : Side) (e : Nat) (r : Run) : Side :=
  x.modEng e fun s => { s with run := s.run.map fun q => { q with par := q.par || !r.served, badPages := q.badPages.add q.pages } }

/-- The rows of all heads of one half of a page as delivered (R224, R227, R242): `src` holds the page from its keys or its
values on; slots beyond the valid count, and bytes beyond d_head, are zero. DEDUCED, note 60. -/
def pageRows (src : List Byte) (heads valid row used : Nat) : List Byte :=
  (List.range heads).flatMap fun h => (List.range 16).flatMap fun j =>
    if j < valid then ((src.drop ((h * 16 + j) * row)).take used) ++ List.replicate (row - used) 0 else List.replicate row 0

/-- Bytes of the elements of one row. -/
def usedBytes (fmt dim : Nat) : Nat := dim * (if fmt = 2 then 2 else 1)

/-- The lines of a page written into the tile-buffer ring of a descriptor (R239): line k at RING_LINE + k mod RING_LINES. -/
def Side.ringPut (x : Side) (e : Nat) (d : Desc) (k : Nat) : List (List Byte) → Side
  | [] => x
  | l :: t => (x.physPut 0 e (128 * (d.n 42 2 + k % max 1 d.ringLines)) l).ringPut e d (k + 1) t

/-- The page of a walk that the engine holds delivered: once per layer and sequence in a frame or step (R256). -/
def Side.kvPage (x : Side) (e : Nat) (r : Run) (d : Desc) (w : WalkPage) : Option KvPage :=
  (x.eng e).kv.find? fun p => p.num == r.num && p.layer == d.layer && p.entry == w.entry

/-- Pages at the head of a walk that are held delivered already. -/
def Side.heldAhead (x : Side) (e : Nat) (r : Run) (d : Desc) : List WalkPage → Nat
  | [] => 0
  | w :: t => if (x.kvPage e r d w).isSome then 1 + x.heldAhead e r d t else 0

/-- The walk passes the pages that are delivered already; after the last the unit is IDLE. -/
def Side.walkOn (x : Side) (u e lines : Nat) (d : Desc) (l : List WalkPage) : Side :=
  let x := x.modEng e fun s => { s with run := s.run.map fun q => { q with pages := q.pages + 1, lines := q.lines + lines } }
  match (x.eng e).run with
  | none => x
  | some r =>
    let k := x.heldAhead e r d (l.drop r.pages)
    let x := x.modEng e fun s => { s with run := s.run.map fun q => { q with pages := q.pages + k } }
    x.setField (Reg.PDMA_STAT.inst u) 1 0 (if l.length ≤ r.pages + k then 0 else 1)

/-- Lines of one page in the ring. -/
def Side.pageLines (x : Side) (st : Nat) : Nat := 32 * x.pgHeads st * rowBytes (x.pgFmt st) (x.pgDim st) / 128

/-- Pages of a walk that the quads have taken, or are about to load: the N tiles of the round of an ATTN_QK, the K tiles
up to the one in progress of an ATTN_PV. DEDUCED, note 60. -/
def Side.taken (x : Side) (r : Run) (d : Desc) (rows pages : Nat) : Nat :=
  let n := ceilDiv (16 * pages) (tileN d.fa)
  if d.op = 6 then (if n ≤ 4 * (r.round + 1) || rows = 0 then pages else min pages (4 * (r.round + 1) * (tileN d.fa / 16)))
  else if 0 < r.round then pages
  else
    let cycles := 3 * (x.mt - r.issueMt) / 5
    min pages ((cycles / max d.mu (loadW d.fa d.fa) + 1) * (tileK d.fa d.fa / 16))

/-- The unit runs at most PREFETCH pages ahead of the quads, and waits while the ring is full (R240). A page longer than
the ring enters an empty one. -/
def Side.ringRoom (x : Side) (u : Nat) (r : Run) (d : Desc) (rows pages : Nat) : Bool :=
  let t := x.taken r d rows pages
  let ahead := r.pages - t
  let n := x.pageLines r.stall
  decide (r.pages < t + x.field (Reg.PDMA_CFG.inst u) 6 0) && (ahead == 0 || decide ((ahead + 1) * n ≤ d.ringLines))

/-- The scale block of an INT8 page as delivered (R225, R227): the scales of the valid slots, zero for the others. -/
def pageScales (src : List Byte) (heads valid : Nat) : List Byte :=
  (List.range (2 * heads)).flatMap fun h => (src.drop (64 * h)).take (4 * valid) ++ List.replicate (64 - 4 * valid) 0

/-- One page of a walk is delivered whole, its key rows and then its value rows, or its fault is met (R230 to R233, R239).
A bad list head is met once for its walk (R386), and an aborted sequence's pages are passed over (R350). -/
def Side.deliverPage (x : Side) (u e : Nat) (r : Run) (d : Desc) (w : WalkPage) (l : List WalkPage) : Side :=
  let st := r.stall
  let p := x.pageOfEntry st w.entry
  let again := !w.head && decide (0 < r.pages) && (l[r.pages - 1]?).any fun b => b.seq == w.seq
  if r.served && (x.stl st).step.any (fun t => t.gone.contains w.seq) || again then x.walkOn u e 0 d l else
  let x := (x.wr (Reg.PDMA_CUR_SEQ.inst u) (pack [(0, w.seq % 256), (8, d.layer)])).wrN (Reg.PDMA_CUR_PAGE.inst u) p
  if !w.head || pageTier p = 3 || pageTier p = 2 then
    ((x.pdmaFault u p 2 Ev.PDMA_BAD_PAGE Ct.PDMA_BAD_PAGES).walkLost e r w.seq).walkOn u e 0 d l
  else if !x.pageOk st p then
    ((x.pdmaFault u p 1 Ev.PDMA_WINDOW Ct.PDMA_WINDOW_FAULTS).walkLost e r w.seq).walkOn u e 0 d l
  else if x.pstate st p = 4 then (x.walkPoison e r).walkOn u e 0 d l
  else
    let heads := x.pgHeads st
    let row := rowBytes (x.pgFmt st) (x.pgDim st)
    let used := usedBytes (x.pgFmt st) (x.pgDim st)
    let v := valueOff (x.pgFmt st) (x.pgDim st) heads
    let a := x.pageAddr st p
    let sc := if x.pgFmt st = 0 then 128 * heads else 0
    let hs := List.range (2 * heads)
    let rows := hs.map fun h => (a + h * 16 * row, w.valid * row)
    let m := (rows ++ if sc = 0 then [] else hs.map fun h => (a + 2 * v + 64 * h, 4 * w.valid)).foldl (fun (q : Side × Bool) s =>
      let z := q.1.meetBy (8 + u) st e s.1 s.2
      (z.1, q.2 || z.2)) (x, false)
    let x := m.1
    if m.2 then
      (((x.pdmaFault u p 3 Ev.PDMA_PARITY Ct.PDMA_PARITY_PAGES).poisonPage st p).walkPoison e r).walkOn u e 0 d l
    else
      let keys := pageRows (x.spGet st 0 a v) heads w.valid row used
      let vals := pageRows (x.spGet st 0 (a + v) v) heads w.valid row used
      let data := keys ++ vals
      let ls := chunks 128 data.length data
      let kv : KvPage := { num := r.num, layer := d.layer, seq := w.seq, page := w.page, entry := w.entry, valid := w.valid
                           keys := keys, vals := vals
                           scales := if sc = 0 then [] else pageScales (x.spGet st 0 (a + 2 * v) sc) heads w.valid }
      let x := x.modEng e fun s => { s with kv := kv :: s.kv.filter fun k => k.num == r.num && k.layer == d.layer }
      (((x.ringPut e d r.lines ls).count Ct.PDMA_PAGES_DELIVERED u)).walkOn u e ls.length d l

/-- The unit that a descriptor names may walk for its stall: owned by it, not fenced, not busy with a move (R238).
DEDUCED, note 67. -/
def Side.unitReady (x : Side) (u st : Nat) : Bool :=
  x.flag (Reg.PDMA_STAT.inst u) 7 && x.field (Reg.PDMA_STAT.inst u) 6 4 == st
    && x.field (Reg.PDMA_STAT.inst u) 1 0 != 2 && x.field (Reg.PDMA_STAT.inst u) 1 0 != 3 && !x.flag Reg.SAFE_UNIT_FENCE u

/-- PDMA_PAGE_DELIVER (R239): the next page of the walk of the descriptor that runs on engine e. -/
def execPdmaPageDeliver (n : Now) (d : Ch) (u : Fin 4) (e : Fin 8) (s : State) : Host.Outcome State Fault Refusal :=
  onLive n d (fun x =>
    match (x.eng e).run with
    | none => x
    | some r =>
      let c := x.desc r
      let l := x.walk e r c
      if !r.started || x.teState e != 1 || !(c.op == 6 || c.op == 7) || c.pdma != u.val || !x.unitReady u r.stall
          || !x.ringRoom u r c (hW (x.hdrIn r.stall e c.aA)) l.length then x
      else match l[r.pages]? with
        | some w => x.deliverPage u e r c w l
        | none => x) s

end Sys2Proof.Machine
end

