-- ==== Sys2Proof/Machine/Quads.lean ====
section
/-!
DEFINITION. The MAC quads: the arithmetic of a work unit, the checksum column and the requantiser (R110, R116 to R145,
R197 to R207, R916), the work units of a MATMUL or CONV (R168 to R182, R378), and what a failed check does (R143 to R159).
An `Upset` changes an accumulator before the check: columns 0 to 127 are the data columns, 128 the checksum column, and
a higher column stands for a parity error of the row at the far edge or a disagreement of the adder trees (R136, R142).
An upset of an entry held in its bank leaves wrong parity where a byte of it changes in an odd number of bits (R130).
-/

namespace Sys2Proof.Machine

/-! ## Elements -/

/-- The code of element i of a run of elements that begins at byte a of a memory. -/
def codeAt (g : Nat → Byte) (fmt a i : Nat) : Nat :=
  match halves fmt with
  | 1 => (g (a + i / 2)).toNat / (if i % 2 = 0 then 1 else 16) % 16
  | 2 => (g (a + i)).toNat
  | 4 => bytesNat [g (a + 2 * i), g (a + 2 * i + 1)]
  | _ => bytesNat [g (a + 4 * i), g (a + 4 * i + 1), g (a + 4 * i + 2), g (a + 4 * i + 3)]

/-- The bytes of a run of codes (R169). -/
def packCodes (fmt : Nat) : List Nat → List Byte
  | [] => []
  | a :: t =>
    match halves fmt, t with
    | 1, b :: t => BitVec.ofNat 8 (a % 16 + 16 * (b % 16)) :: packCodes fmt t
    | 1, [] => [BitVec.ofNat 8 (a % 16)]
    | h, t => natBytes (h / 2) a ++ packCodes fmt t

/-- A word of a memory. -/
def wordAt (g : Nat → Byte) (a : Nat) : Nat := bytesNat [g a, g (a + 1), g (a + 2), g (a + 3)]

/-- The zero-point code of an entry of a header, or +0 (R171). -/
def zeroCode (h : Hdr) (fmt e : Nat) : Nat := if intFmt fmt then (hSigned h 10 e % (2 ^ (4 * halves fmt) : Nat)).toNat else 0

/-- The bytes of a LINE position: its codes, its pad channels filled (R171). -/
def linePos (fmt c z : Nat) (codes : List Nat) : List Byte := packCodes fmt (codes ++ List.replicate (padC fmt c - codes.length) z)

/-- An MXFP4 element: its code under its block scale (R116, R120). DEDUCED, note 54. -/
def mxVal (scale code : Nat) : Fv :=
  if scale = 255 then .nan
  else match decodeFmt 2 code with
    | .num m e => .num m (e + scale - 127)
    | v => v

/-! ## The requantiser -/

/-- mul lies outside its range (R378). -/
def mulBad (m : Nat) : Bool := m == 0 || decide (2 ^ 31 ≤ m)

/-- One output code of an integer value, and whether it saturates (R201 to R204). -/
def requantInt (o : Hdr) (fmt ex ew : Nat) (v : Int) (mul sh : Nat) : Nat × Bool :=
  let eo := hNext o
  let s := (((sh + eo : Nat) : Int) - ex - ew).toNat
  let q := (v * mul + (if s = 0 then 0 else (2 ^ (s - 1) : Nat))) / ((2 ^ s : Nat) : Int) + hSigned o 10 eo
  let c := min (max q (hSigned o 12 eo)) (hSigned o 14 eo)
  ((c % (2 ^ (4 * halves fmt) : Nat)).toNat, decide (q < fmtMin fmt) || decide (fmtMax fmt < q))

/-- An integer q before its zero point, in ladder entry eo of an integer output: its clamped code, and whether it lies
beyond the format (R204, R206). -/
def intCode (o : Hdr) (fmt eo : Nat) (q : Int) : Nat × Bool :=
  let v := q + hSigned o 10 eo
  let c := min (max v (hSigned o 12 eo)) (hSigned o 14 eo)
  ((c % (2 ^ (4 * halves fmt) : Nat)).toNat, decide (v < fmtMin fmt) || decide (fmtMax fmt < v))

/-- A floating value to an integer output format (R206, R909): infinity goes to the limits, NaN to the zero point. -/
def floatToInt (o : Hdr) (fmt : Nat) (v : Fv) : Nat × Bool :=
  let eo := hNext o
  match v with
  | .nan => ((intCode o fmt eo 0).1, true)
  | .inf s => ((intCode o fmt eo ((if s then fmtMin fmt else fmtMax fmt) - hSigned o 10 eo)).1, true)
  | v => intCode o fmt eo v.toInt

/-- One output code of a floating value, other than MXFP4 (R206). An INT32 output takes the nearest integer, a value that
has none is open. DESIGN CHOICE, note 58. -/
def convOut (o : Hdr) (fmt : Nat) (v : Fv) : Nat × Bool :=
  if intFmt fmt then floatToInt o fmt v
  else if fmt = 8 then
    if v.finite && decide (-(2 ^ 31) ≤ v.toInt) && decide (v.toInt < 2 ^ 31) then ((wordI v.toInt).toNat, false)
    else ((Config.vecFn 0x07 [v.code32] 0).toNat, false)
  else convFloat fmt v

/-- The codes of consecutive channels, their block scales in MXFP4, and their saturations (R206, R207). -/
def convRow (o : Hdr) (fmt : Nat) (l : List Fv) : List Nat × List Nat × Nat :=
  if fmt = 2 then
    let b := (chunks 32 l.length l).map mxBlock
    (b.flatMap (·.2), b.map (·.1), 0)
  else
    let r := l.map (convOut o fmt)
    (r.map (·.1), [], (r.filter (·.2)).length)

/-! ## One row of a unit -/

/-- What the check and the requantiser make of a row: its 129 accumulators as held, the columns with wrong parity; it
fails (with the difference, and whether one sum alone is nonfinite), it is nonfinite, its output codes and block scales,
its saturations, and how many channels before its own the codes begin with (R207). -/
structure RowRes where
  acc : List Word
  par : List Nat
  fail : Option (Word × Bool)
  nonfin : Bool
  codes : List Nat
  scales : List Nat
  sat : Nat
  lead : Nat
deriving DecidableEq, Repr

/-- What a fault flips in the accumulator of a row and column. -/
def upsetOf (ups : List Upset) (quad row col : Nat) : BitVec 32 :=
  ups.foldl (fun m u => if u.quad.val = quad && u.row = row && u.col = col then m ^^^ u.mask else m) 0

/-- The row itself is damaged beside its accumulators (R136, R142). -/
def upsetRow (ups : List Upset) (quad row : Nat) : Bool := ups.any fun u => u.quad.val = quad && u.row = row && decide (128 < u.col)

/-- Some byte of a word has an odd number of ones: a flip of these bits shows in byte parity. -/
def oddByte (m : Word) : Bool := (wordBytes m).any fun b => ((List.range 8).filter b.getLsbD).length % 2 == 1

/-- The columns of the row whose accumulators, held in the bank, have wrong parity (R130). -/
def heldBad (ups : List Upset) (quad row : Nat) : List Nat :=
  (ups.filter fun u => u.held && u.quad.val = quad && u.row = row && decide (u.col ≤ 128) && oddByte u.mask).map (·.col)

/-- The operands of an integer unit, by output row m, N tile j, reduction index k and column n of the tile: activations,
weights, checksum vector, corrections, CORR_SUM, which columns are outputs, and the requantiser. -/
structure MatI where
  nt : Nat
  kp : Nat
  ks : Nat → List Nat
  x : Nat → Nat → Nat → Int
  w : Nat → Nat → Nat → Int
  c : Nat → Nat → Int
  corr : Nat → Nat → Word
  corrSum : Nat → Word
  live : Nat → Nat → Bool
  put : Nat → Nat → Nat → Word → Nat × Bool

/-- Row m of tile j in an integer format (R117, R132 to R136, R201, R205). -/
def MatI.row (q : MatI) (ups : List Upset) (quad row m j : Nat) : RowRes :=
  let acc (n : Nat) : Word := wordI ((q.ks n).map fun k => q.x m j k * q.w j k n).sum ^^^ upsetOf ups quad row n
  let chk : Word := wordI ((List.range q.kp).map fun k => q.x m j k * q.c j k).sum ^^^ upsetOf ups quad row 128
  let as_ := (List.range q.nt).map acc
  let v := as_.zipIdx.map fun p => p.1 - q.corr j p.2
  let lhs := v.foldl (· + ·) 0
  let rhs := chk - q.corrSum j
  let r := (v.zipIdx.filter fun p => q.live j p.2).map fun p => q.put m j p.2 p.1
  { acc := as_ ++ [chk], par := heldBad ups quad row
    fail := if lhs != rhs || upsetRow ups quad row then some (lhs - rhs, false) else none
    nonfin := false, codes := r.map (·.1), scales := [], sat := (r.filter (·.2)).length, lead := 0 }

/-- The operands of a floating unit; `put` converts the values of the columns that are outputs, after those of the channels
that fill the block in which a tile begins (R207). -/
structure MatF where
  nt : Nat
  kp : Nat
  k : Nat
  tol : Nat
  ks : Nat → List Nat
  x : Nat → Nat → Nat → Fv
  w : Nat → Nat → Nat → Fv
  c : Nat → Nat → Fv
  a : Nat → Nat → Fv
  bsum : Nat → Fv
  babs : Nat → Fv
  bias : Nat → Nat → Fv
  scale : Nat → Nat → Fv
  live : Nat → Nat → Bool
  lead : Nat → Nat → List Fv
  put : Nat → Nat → List Fv → List Nat × List Nat × Nat

/-- τ of R140. DEDUCED, note 53. -/
def tau (mult k : Nat) (a b : Fv) : Fv :=
  (Fv.num 1 mult).mul ((((Fv.ofInt (2 * k + 256 : Nat)).mul (.num 1 (-24))).mul (a.add b)).add ((Fv.ofInt (k + 128 : Nat)).mul (.num 1 (-126))))

/-- Row m of tile j in a floating format (R119, R139 to R141, R206, R207): the row sum takes every column of the tile, pad
columns among them. -/
def MatF.row (q : MatF) (ups : List Upset) (quad row m j : Nat) : RowRes :=
  let flip (v : Fv) (n : Nat) : Fv := let u := upsetOf ups quad row n; if u = 0 then v else fp32Of (v.code32 ^^^ u)
  let sum (l : List (Fv × Fv)) : Fv := l.foldl (fun s p => s.mac p.1 p.2) .zero
  let cs := List.range q.nt
  let y := cs.map fun n => flip (sum ((q.ks n).map fun k => (q.x m j k, q.w j k n))) n
  let s := flip (sum ((List.range q.kp).map fun k => (q.x m j k, q.c j k))) 128
  let a := sum ((List.range q.kp).map fun k => ((q.x m j k).abs, q.a j k))
  let yb := (y.zip cs).map fun p => p.1.add (q.bias j p.2)
  let rs := yb.foldl Fv.add .zero
  let diff := rs.add (s.add (q.bsum j)).neg
  let t := tau q.tol q.k a (q.babs j)
  let one := rs.finite != s.finite
  let nonfin := !rs.finite && !s.finite
  let ov := ((yb.zip cs).filter fun p => q.live j p.2).map fun p => p.1.mul (q.scale j p.2)
  let before := q.lead m j
  let r := q.put m j (before ++ ov)
  { acc := y.map Fv.code32 ++ List.replicate (128 - q.nt) 0 ++ [s.code32], par := heldBad ups quad row
    fail := if one || upsetRow ups quad row || (!nonfin && !diff.abs.le t) then some (diff.code32, one) else none
    nonfin := nonfin, codes := r.1, scales := r.2.1, sat := r.2.2, lead := before.length }

/-! ## One unit -/

/-- A unit as its quad leaves it: number, N tile, its rows; a mul[n] out of range; padded taps; bytes to write; the bytes
of the tile buffer that it reads, as (address, length); it reads a poisoned context page. -/
structure UnitRes where
  u : Nat
  j : Nat
  rows : List RowRes
  rq : Bool
  pads : Nat
  puts : List (Nat × List Byte)
  reads : List (Nat × Nat)
  ctx : Bool
deriving DecidableEq, Repr

/-- The rows of unit u of M rows in J tiles: first row and how many. -/
def unitRows (mu m j u : Nat) : Nat × Nat := (u / j * mu, min mu (m - u / j * mu))

/-- The bytes that channels from c0 on of position m write: their codes, with the pad channels after the last, and the
block scales of an MXFP4 output (R170, R171). -/
def rowPuts (o : Hdr) (aO fo m c : Nat) (r : RowRes) : List (Nat × List Byte) :=
  let c0 := c - r.lead
  let last := decide (hC o ≤ c0 + r.codes.length)
  let codes := if last then r.codes ++ List.replicate (padC fo (hC o) - (c0 + r.codes.length)) (zeroCode o fo (hNext o)) else r.codes
  let at_ := offOf aO + 128 + m * linesPer fo (hC o) * 128 + c0 * halves fo / 2
  (at_, packCodes fo codes) :: (if fo = 2 then
    [(offOf aO + hScale o + m * ceilDiv (hC o) 32 + c0 / 32, r.scales.map (BitVec.ofNat 8))] else [])

/-! ## Quad operands -/

/-- A MATMUL or CONV descriptor with the headers of its operands. -/
structure QOp where
  d : Desc
  a : Hdr
  b : Hdr
  o : Hdr
deriving DecidableEq, Repr

/-- N_t, J, K_t, K_pad, M. -/
def QOp.nt (q : QOp) : Nat := tileN q.d.fa
def QOp.j (q : QOp) : Nat := q.d.tilesJ q.a q.o
def QOp.kt (q : QOp) : Nat := tileK q.d.fa q.d.fb
def QOp.kp (q : QOp) : Nat := q.d.kPad q.a
def QOp.m (q : QOp) : Nat := q.d.dimM q.o
def QOp.units (q : QOp) : Nat := q.d.unitCount q.a q.o
def QOp.rowsOf (q : QOp) (u : Nat) : Nat × Nat := unitRows q.d.mu q.m q.j u

/-- Tap and channel of reduction index k in N tile j (R177, R179). -/
def QOp.tap (q : QOp) (j k : Nat) : Nat × Nat :=
  if q.d.depthwise then (k / q.kt, j * q.nt + k % q.kt)
  else if q.d.op = 2 then (k / padC q.d.fa (hC q.a), k % padC q.d.fa (hC q.a))
  else (0, k)

/-- The input position of tap t of output position m; none for a padded tap (R176). -/
def tapPos (d : Desc) (a o : Hdr) (m t : Nat) : Option Nat :=
  let y : Int := (m / hW o * d.winY.s + t / d.winX.k * d.winY.d : Nat) - (d.winY.lo : Int)
  let x : Int := (m % hW o * d.winX.s + t % d.winX.k * d.winX.d : Nat) - (d.winX.lo : Int)
  if 0 ≤ y ∧ y < hH a ∧ 0 ≤ x ∧ x < hW a then some (y.toNat * hW a + x.toNat) else none
def QOp.pos (q : QOp) (m t : Nat) : Option Nat := if q.d.op = 2 then tapPos q.d q.a q.o m t else some m

/-- Elements beyond an actual length are masked (R163). DEDUCED, note 55. -/
def maskedAt (h : Hdr) (p : Nat) : Bool := hActEn h && decide (hAct h ≤ p % hW h)

/-- The row of B that reduction index k meets, and whether it lies beyond B's actual length (R163): its products count for
nothing. -/
def QOp.rowB (q : QOp) (k : Nat) : Nat := if q.d.depthwise then k / q.kt else k
def QOp.offB (q : QOp) (k : Nat) : Bool := maskedAt q.b (q.rowB k)

/-- First data byte of a LINE position of the A tensor, of row k of the B tensor. DEDUCED, note 54. -/
def QOp.aAt (q : QOp) (p : Nat) : Nat := offOf q.d.aA + 128 + p * linesPer q.d.fa (hC q.a) * 128
def QOp.bAt (q : QOp) (k : Nat) : Nat := offOf q.d.aB + 128 + k * linesPer q.d.fb (hC q.b) * 128

/-- Activation element k of output position m: an integer code, its zero point where the tap is padded (R137). -/
def QOp.xInt (q : QOp) (g : Nat → Byte) (m j k : Nat) : Int :=
  let t := q.tap j k
  let z := hSigned q.a 10 (hEntry q.a)
  match q.pos m t.1 with
  | some p => if maskedAt q.a p || q.offB k then z else signed (4 * halves q.d.fa) (codeAt g q.d.fa (q.aAt p) t.2)
  | none => z

/-- The same in a floating format. -/
def QOp.xFloat (q : QOp) (g : Nat → Byte) (m j k : Nat) : Fv :=
  let t := q.tap j k
  match q.pos m t.1 with
  | some p =>
    if maskedAt q.a p || q.offB k then .zero
    else
      let c := codeAt g q.d.fa (q.aAt p) t.2
      if q.d.fa = 2 then
        let nb := ceilDiv (hC q.a) 32
        mxVal (g (offOf q.d.aA + hScale q.a + p * nb + min (t.2 / 32) (nb - 1))).toNat c
      else decodeFmt q.d.fa c
  | none => .zero

/-- Row and column of the weight of reduction index k in column n of tile j; none where the weight is zero (R131, R179). -/
def QOp.wAt (q : QOp) (j k n : Nat) : Option (Nat × Nat) :=
  let c := j * q.nt + n
  if q.d.depthwise then (if k % q.kt = n && decide (c < hC q.a) then some (k / q.kt, c) else none)
  else if k < q.d.dimK q.a && decide (c < hC q.o) then some (k, c) else none

/-- The weight as an integer, and as a floating value. -/
def QOp.wInt (q : QOp) (g : Nat → Byte) (j k n : Nat) : Int :=
  match q.wAt j k n with
  | some p => signed (4 * halves q.d.fb) (codeAt g q.d.fb (q.bAt p.1) p.2)
  | none => 0
def QOp.wFloat (q : QOp) (g : Nat → Byte) (j k n : Nat) : Fv :=
  if q.offB k then .zero else
  match q.wAt j k n with
  | some p =>
    let c := codeAt g q.d.fb (q.bAt p.1) p.2
    if q.d.fb = 2 then mxVal (g (offOf q.d.aB + hScale q.b + p.1 / 32 * hC q.b + p.2)).toNat c else decodeFmt q.d.fb c
  | none => .zero

/-- The reduction indices that column n takes, in ascending order. -/
def QOp.ks (q : QOp) (n : Nat) : List Nat :=
  if q.d.depthwise then (List.range (q.d.n 32 1 * q.d.n 33 1)).map fun t => t * q.kt + n
  else List.range (q.d.dimK q.a)

/-! ## Parts of the checksum vector and the requantisation block -/

/-- Byte of element i (of n bytes) of a part of the checksum vector, and of the requantisation block. -/
def QOp.chkAt (q : QOp) (part n i : Nat) : Nat := partAt q.d.chk (q.d.chkParts q.a q.o) part + n * i
def QOp.rqAt (q : QOp) (part n i : Nat) : Nat := partAt q.d.rq (q.d.rqParts q.a q.o) part + n * i

/-- corr_e[n] of output channel c, mul and sh (R378). -/
def QOp.corr (q : QOp) (g : Nat → Byte) (c : Nat) : Nat :=
  if c < hC q.o then wordAt g (q.rqAt 2 4 (hEntry q.a * hC q.o + c)) else 0
def rqMul (g : Nat → Byte) (d : Desc) (a o : Hdr) (c : Nat) : Nat := wordAt g (partAt d.rq (d.rqParts a o) 0 + 4 * c)
def rqSh (g : Nat → Byte) (d : Desc) (a o : Hdr) (c : Nat) : Nat := (g (partAt d.rq (d.rqParts a o) 1 + c)).toNat

/-- The operands of an integer MATMUL or CONV in the tile buffer. -/
def QOp.matI (q : QOp) (g : Nat → Byte) : MatI :=
  let live (j n : Nat) : Bool := decide (j * q.nt + n < hC q.o)
  let put (_ j n : Nat) (v : Word) : Nat × Bool :=
    let c := j * q.nt + n
    if q.d.fo = 8 then (v.toNat, false)
    else requantInt q.o q.d.fo (hEntry q.a) (hEntry q.b) v.toInt (rqMul g q.d q.a q.o c) (rqSh g q.d q.a q.o c)
  { nt := q.nt, kp := q.kp, ks := q.ks, x := q.xInt g, w := q.wInt g
    c := fun j k => signed 16 (bytesNat [g (q.chkAt 0 2 (j * q.kp + k)), g (q.chkAt 0 2 (j * q.kp + k) + 1)])
    corr := fun j n => word (q.corr g (j * q.nt + n))
    corrSum := fun j => word (wordAt g (q.chkAt 1 4 (j * 8 + hEntry q.a)))
    live := live, put := put }

/-- The operands of a floating one. -/
def QOp.matF (q : QOp) (g : Nat → Byte) (tol : Nat) : MatF :=
  let f32 (a : Nat) : Fv := fp32Of (word (wordAt g a))
  let live (j n : Nat) : Bool := decide (j * q.nt + n < hC q.o)
  { nt := q.nt, kp := q.kp, k := if q.d.depthwise then q.kp else q.d.dimK q.a, tol := tol, ks := q.ks, x := q.xFloat g, w := q.wFloat g
    c := fun j k => if q.offB k then .zero else f32 (q.chkAt 0 4 (j * q.kp + k))
    a := fun j k => if q.offB k then .zero else f32 (q.chkAt 1 4 (j * q.kp + k))
    bsum := fun j => f32 (q.chkAt 2 8 j), babs := fun j => f32 (q.chkAt 2 8 j + 4)
    bias := fun j n => if live j n then f32 (q.rqAt 0 4 (j * q.nt + n)) else .zero
    scale := fun j n => f32 (q.rqAt 1 4 (j * q.nt + n))
    live := live, lead := fun _ _ => [], put := fun _ _ l => convRow q.o q.d.fo l }

/-- The bytes of the tile buffer that unit u reads, as (address, length). -/
def QOp.reads (q : QOp) (u : Nat) : List (Nat × Nat) :=
  let j := u % q.j
  let mr := q.rowsOf u
  let part (fmt : Nat) (a : Nat) := (a + j * q.nt * halves fmt / 2, q.nt * halves fmt / 2)
  let taps := if q.d.op = 2 then q.d.n 32 1 * q.d.n 33 1 else 1
  let ps := (List.range mr.2).flatMap fun i => (List.range taps).filterMap fun t => q.pos (mr.1 + i) t
  ps.map (fun p => if q.d.depthwise then part q.d.fa (q.aAt p) else (q.aAt p, linesPer q.d.fa (hC q.a) * 128))
    ++ (List.range (if q.d.depthwise then taps else q.d.dimK q.a)).map (fun k => part q.d.fb (q.bAt k))
    ++ (if q.d.fa = 2 then ps.map (fun p => (offOf q.d.aA + hScale q.a + p * ceilDiv (hC q.a) 32, ceilDiv (hC q.a) 32))
          ++ [(offOf q.d.aB + hScale q.b, ceilDiv (q.d.dimK q.a) 32 * hC q.b)] else [])
    ++ (if intFmt q.d.fa then
          [(q.chkAt 0 2 (j * q.kp), 2 * q.kp), (q.chkAt 1 4 (j * 8 + hEntry q.a), 4), (q.rqAt 2 4 (hEntry q.a * hC q.o + j * q.nt), 4 * q.nt)]
            ++ (if q.d.fo = 8 then [] else [(q.rqAt 0 4 (j * q.nt), 4 * q.nt), (q.rqAt 1 1 (j * q.nt), q.nt)])
        else [(q.chkAt 0 4 (j * q.kp), 4 * q.kp), (q.chkAt 1 4 (j * q.kp), 4 * q.kp), (q.chkAt 2 8 j, 8),
              (q.rqAt 0 4 (j * q.nt), 4 * q.nt), (q.rqAt 1 4 (j * q.nt), 4 * q.nt)])

/-- Padded taps of a unit (R176): counted by each unit that feeds them. DEDUCED, note 55. -/
def QOp.padTaps (q : QOp) (u : Nat) : Nat :=
  let mr := q.rowsOf u
  if q.d.op = 2 then ((List.range mr.2).map fun i =>
    ((List.range (q.d.n 32 1 * q.d.n 33 1)).filter fun t => (q.pos (mr.1 + i) t).isNone).length).sum else 0

/-- Unit u (R916). -/
def QOp.unit (q : QOp) (g : Nat → Byte) (tol : Nat) (ups : List Upset) (u : Nat) : UnitRes :=
  let j := u % q.j
  let mr := q.rowsOf u
  let rows := (List.range mr.2).map fun i =>
    if intFmt q.d.fa then (q.matI g).row ups (u % 4) i (mr.1 + i) j else (q.matF g tol).row ups (u % 4) i (mr.1 + i) j
  { u := u, j := j, rows := rows
    rq := intFmt q.d.fa && q.d.fo != 8 && (List.range q.nt).any fun n =>
      decide (j * q.nt + n < hC q.o) && mulBad (rqMul g q.d q.a q.o (j * q.nt + n))
    pads := q.padTaps u
    puts := rows.zipIdx.flatMap fun p => rowPuts q.o q.d.aO q.d.fo (mr.1 + p.2) (j * q.nt) p.1
    reads := q.reads u, ctx := false }

/-! ## Writing a unit, and a failed check -/

/-- The header of an output as a unit leaves it: its first write of the step clears it (R379), ENTRY becomes NEXT (R212),
the counts of a good unit are added (R145, R214), flags are set. -/
def unitHdr (h : Hdr) (num sat elems flags : Nat) : Hdr :=
  let h := stepHdr h num
  let h := h.set 7 (setFld (hw h 7) 8 6 (hNext h))
  let n := (hw h 17).toNat + 2 ^ 32 * fld (hw h 18) 15 0 + elems
  orFlags (((h.set 16 (word ((hw h 16).toNat + sat))).set 17 (word n)).set 18 (word (n / 2 ^ 32 % 2 ^ 16))) flags

/-- The frame that counts for R147 and R149; frames are counted on while STOPPED (R150). DEDUCED, note 164. -/
def Side.frameNow (x : Side) : Nat := (x.rdN Reg.CAD_FRAME + x.me.cad.ticks) % 2 ^ 32

/-- The window of mismatch frames takes a frame (R149). DEDUCED, note 61. -/
def Side.pushWin (x : Side) (e f : Nat) : Side :=
  let held := x.field (Reg.TE_WIN.inst e) 1 0
  let x := if held = 0 then x else x.wr (Reg.TE_WIN_OLD.inst e) (x.rd (Reg.TE_WIN_NEW.inst e))
  (x.wrN (Reg.TE_WIN_NEW.inst e) f).wrN (Reg.TE_WIN.inst e) (min 2 (held + 1))

/-- A descriptor's fault goes to the firmware log with its TAG (R359). DESIGN CHOICE, note 144. -/
def Side.descLog (x : Side) (e : Nat) (r : Run) (trace : Nat) (detail : List Word) : Side :=
  x.log 1 trace (words64 r.at_ ++ [(x.desc r).tag, pack [(0, e), (8, r.stall)]] ++ detail)

/-- A unit fails its check (R147 to R149): the frame counts once, its first failing unit is logged, a targeted slice of the
quad is asked for, and the third mismatch frame within 1,000 frames fences the engine.
DEDUCED, note 61. DESIGN CHOICE, note 144. -/
def Side.mismatch (x : Side) (e : Nat) (r : Run) (quad row j : Nat) (float one : Bool) (diff : Word) : Side :=
  let f := x.frameNow
  if (x.eng e).lastFail = some f then x
  else
    let x := (x.count Ct.TE_CHECK_FAIL_FRAMES e).raise Ev.TE_CHECK_FAIL e
    let x := (x.wr64 (Reg.TE_CHK_LOG_DESC.inst e) r.at_).wr (Reg.TE_CHK_LOG_LOC.inst e)
      (pack [(0, quad), (2, row), (12, j % 65536), (28, nat1 float), (29, nat1 one)])
    let x := (x.wrN (Reg.TE_CHK_LOG_FRAME.inst e) f).wr (Reg.TE_CHK_LOG_DIFF.inst e) diff
    let x := (x.modEng e fun s => { s with lastFail := some f, slices := s.slices ++ [quad] }).descLog e r 1 [pack [(0, quad), (2, row), (12, j % 65536)], diff]
    let third := x.field (Reg.TE_WIN.inst e) 1 0 = 2 && decide ((f + 2 ^ 32 - x.rdN (Reg.TE_WIN_OLD.inst e)) % 2 ^ 32 ≤ 999)
    let x := x.pushWin e f
    if third then x.fenceEngine e 1 else x

/-- What a unit's check and its reads say of the step of a served stall (R141, R155, R430). -/
def Side.stepFlags (x : Side) (r : Run) (chk par nonfin : Bool) : Side :=
  if r.served then
    x.modStl r.stall fun s => { s with step := s.step.map fun t => { t with chk := t.chk || chk, par := t.par || par, nonfin := t.nonfin || nonfin } }
  else x

/-- A bank takes the accumulators of a unit's rows, with their parity (R110, R130). -/
def Side.putAccs (x : Side) (e quad bank : Nat) (rows : List RowRes) : Side :=
  let b : AccBank :=
    { rows := rows.zipIdx.map fun p => (p.2, p.1.acc)
      bad := rows.zipIdx.foldl (fun s p => p.1.par.foldl (fun s c => s.add (129 * p.2 + c)) s) [] }
  { x with me := { x.me with accs := x.me.accs.put (8 * e + 2 * quad + bank) b } }

/-- An accumulator of a unit, held in its bank, shows wrong parity: it is found as the tile buffer's bytes are (R130, R430).
Its place is its byte in the bank. DESIGN CHOICE, note 145. -/
def Side.accFound (x : Side) (e : Nat) (r : Run) (u : UnitRes) : Side :=
  match u.rows.zipIdx.find? fun w => !w.1.par.isEmpty with
  | some (w, i) =>
    let b := 4 * (129 * i + w.par.headD 0)
    ((x.yardFound 5 r.stall (2 ^ 23 + b / 64) (b % 64) false).count Ct.YARD_DATA_POISONS).raise Ev.TE_TB_PARITY e
  | none => x

/-- One unit is checked and written (R143): a parity poison outranks a mismatch (R156), the poison of a context page that it
reads too; a nonfinite row stands beside either (R141). -/
def Side.putUnit (x : Side) (e : Nat) (r : Run) (d : Desc) (u : UnitRes) : Side :=
  let bad := u.reads.find? fun a => (x.me.tiles.sram e).parityBad a.1 a.2
  let held := u.rows.any fun w => !w.par.isEmpty
  let par := bad.isSome || held
  let x := match bad with | some a => (x.meet r.stall e a.1 a.2).1 | none => x
  let x := (x.accFound e r u).putAccs e (u.u % 4) (r.round % 2) u.rows
  let nonfin := u.rows.any (·.nonfin)
  let fail := !(par || u.ctx) && u.rows.any (·.fail.isSome)
  let sat := if fail || nonfin then 0 else (u.rows.map (·.sat)).sum
  let elems := if fail || nonfin then 0 else (u.rows.map fun w => w.codes.length - w.lead).sum
  let x := u.puts.foldl (fun y p => y.physPut 0 e p.1 p.2) x
  let flags := (if fail || nonfin then fChk else 0) + (if par then fPar else 0)
  let x := x.putHdr r.stall e d.aO (unitHdr (x.hdr r.stall e d.aO) r.num sat elems flags)
  let x := (((x.count Ct.TE_CHECK_UNITS e).countN Ct.TE_SAT_ELEMENTS e sat).countN Ct.TE_PAD_TAPS e u.pads)
  let x := if nonfin then (x.count Ct.TE_NONFINITE_UNITS e).raise Ev.TE_NONFINITE e else x
  let x := if fail then x.count Ct.TE_CHECK_FAIL_UNITS e else x
  let x := x.modEng e fun s => { s with run := s.run.map fun t => { t with chk := t.chk || fail || nonfin, par := t.par || par } }
  let x := x.stepFlags r fail par nonfin
  if fail then
    match u.rows.zipIdx.find? (·.1.fail.isSome) with
    | some (w, i) => match w.fail with
      | some (diff, one) => x.mismatch e r (u.u % 4) i u.j (!intFmt d.fa) one diff
      | none => x
    | none => x
  else x

/-- A descriptor met a decode fault or RQ_PARAM (R364, R365): its outputs take WINDOW, its bits are set with taint, and the
engine goes on to the next descriptor. DEDUCED, note 56. -/
def Side.descFault (x : Side) (e : Nat) (r : Run) (d : Desc) (cause operand : Nat) (mark : Bool) : Side :=
  let x := if mark then x.markOut e r d fWin else x
  let x := (x.signalDesc r d true).wr (Reg.TE_DESC_FAULT.inst e) (pack [(0, cause), (8, operand)])
  let x := ((x.wr64 (Reg.TE_DESC_FAULT_OFF.inst e) r.at_).count Ct.TE_DESC_FAULTS e).raise Ev.TE_DESC_FAULT e
  ((x.descLog e r 2 [pack [(0, cause), (8, operand)]]).stallFaulted r.stall).endDesc e r

/-- The run still executes the descriptor: no fence has stopped the engine. -/
def Side.still (x : Side) (e : Nat) : Bool := x.teState e == 1

/-- The units of a round in ascending number: each is checked and written until one meets RQ_PARAM. DEDUCED, note 56. -/
def Side.putRound (x : Side) (e : Nat) (r : Run) (d : Desc) : List UnitRes → Side × Bool
  | [] => (x, false)
  | u :: t => if u.rq then (x, true) else (x.putUnit e r d u).putRound e r d t

/-- The units of the round in progress, of `total`. -/
def Run.units (r : Run) (total : Nat) : List Nat :=
  (List.range 4).filterMap fun k => if 4 * r.round + k < total then some (4 * r.round + k) else none

/-- The round of a run has had its cycles: (ρ + 1) × Cu from the issue (R916). DESIGN CHOICE, note 57. -/
def Side.roundOver (x : Side) (r : Run) (cycles : Nat) : Bool := decide (5 * ((r.round + 1) * cycles) ≤ 3 * (x.mt - r.issueMt))

/-- A header with the ladder entry that its consumer read at the start of its descriptor (R217). -/
def withEntry (h : Hdr) (n : Nat) : Hdr := h.set 7 (setFld (hw h 7) 8 6 n)

/-- A header of a step whose rows are the bucket's: those beyond the step's count are masked (R346). DEDUCED, note 146. -/
def Side.limitRows (x : Side) (r : Run) (h : Hdr) : Hdr :=
  match if r.served then (x.stl r.stall).step else none with
  | some t =>
    if hW h = x.field ((Reg.BSQ_BUCKET.inst r.stall).el 4 t.bucket) 10 0 then
      (h.set 0 (setFld (hw h 0) 20 20 1)).set 4 (setFld (hw h 4) 17 0 (if hActEn h then min (hAct h) t.rows else min (hW h) t.rows))
    else h
  | none => h

/-- The header of operand A as its descriptor takes it: the ladder entry read at its start, the rows that count. -/
def Side.hdrA (x : Side) (e : Nat) (r : Run) (d : Desc) : Hdr := x.limitRows r (withEntry (x.hdrIn r.stall e d.aA) r.entA)

/-- The operation of a MATMUL or CONV descriptor over the headers of its operands. -/
def Side.qop (x : Side) (e : Nat) (r : Run) (d : Desc) : QOp :=
  { d := d, a := x.hdrA e r d, b := withEntry (x.hdr r.stall e d.aB) r.entB, o := x.hdr r.stall e d.aO }

/-- Every unit of the round is checked and written. DESIGN CHOICE, note 57. -/
def Side.runRound (e : Nat) (r : Run) (d : Desc) (ups : List Upset) (x : Side) : Side :=
  let q := x.qop e r d
  let tile := x.me.tiles.sram e
  let tol := x.field (Reg.TE_CHK_CFG.inst e) 1 0
  let res := (r.units q.units).map fun u => q.unit tile.byte tol ups u
  let y := x.modEng e fun s => { s with run := s.run.map fun t => { t with round := t.round + 1 } }
  let z := y.putRound e r d res
  if z.2 && z.1.still e then z.1.descFault e r d 0x13 5 true else z.1

/-- The round of a MATMUL or CONV (R916): by issue + (ρ + 1) × Cu cycles every unit of the round is checked. -/
def Side.quadRound (x : Side) (e : Nat) (r : Run) (d : Desc) (ups : List Upset) : Side :=
  let q := x.qop e r d
  if (r.units q.units).isEmpty || !x.roundOver r (d.unitCycles q.a) then x else x.runRound e r d ups

end Sys2Proof.Machine
end

