-- ==== Sys2Proof/Machine/Attn.lean ====
section
/-!
DEFINITION. The work units of ATTN_QK and ATTN_PV over delivered pages: the second operand (R241, R242), the parts of its
checksum vector and the zero-point corrections that the page DMA unit forms (R243), what a commit carries on to the vector
unit (R244, R347), and the rounds of every descriptor of the quads (R916).
-/

namespace Sys2Proof.Machine

/-- An attention descriptor over its query tensor, its output, and the pages walked that are delivered: the page format,
d_head, S_row, the first key column, whether it adds to what an earlier copy wrote, the rows without an allowed key, and
the layer's scale of FP8 pages, and the pages met poisoned. -/
structure AttnOp where
  d : Desc
  a : Hdr
  o : Hdr
  fmt : Nat
  dim : Nat
  row : Nat
  pages : List (Option KvPage)
  off : Nat
  adds : Bool
  empty : List Bool
  scale : Fv
  poison : NatSet

/-- Format code of the elements of a page format (R222). -/
def pageElem (fmt : Nat) : Nat := match fmt with | 0 => 0 | 1 => 3 | _ => 5

/-- Token columns, reduction length, columns, N tiles and K_pad (R241, R916). -/
def AttnOp.tokens (q : AttnOp) : Nat := 16 * q.pages.length
def AttnOp.dimK (q : AttnOp) : Nat := if q.d.op = 6 then q.dim else q.tokens
def AttnOp.dimN (q : AttnOp) : Nat := if q.d.op = 6 then q.tokens else q.dim
def AttnOp.nt (q : AttnOp) : Nat := tileN q.d.fa
def AttnOp.j (q : AttnOp) : Nat := ceilDiv q.dimN q.nt
def AttnOp.kp (q : AttnOp) : Nat := ceilDiv q.dimK (tileK q.d.fa q.d.fa) * tileK q.d.fa q.d.fa
def AttnOp.units (q : AttnOp) : Nat := ceilDiv (hW q.a) q.d.mu * q.j

/-- First output channel of N tile j. DESIGN CHOICE, note 147. -/
def AttnOp.col (q : AttnOp) (j : Nat) : Nat := (if q.d.op = 6 then q.off else 0) + j * q.nt

/-- Row k and column c of the second operand (R241): a delivered key or value element, zero where none was delivered. -/
def AttnOp.code (q : AttnOp) (k c : Nat) : Option Nat :=
  let t := if q.d.op = 6 then c else k
  let i := if q.d.op = 6 then k else c
  if i < q.dim then
    (q.pages.getD (t / 16) none).map fun p =>
      let l := if q.d.op = 6 then p.keys else p.vals
      codeAt (fun n => l.getD n 0) (pageElem q.fmt) ((q.d.kvHead * 16 + t % 16) * q.row) i
  else none
def AttnOp.wInt (q : AttnOp) (j k n : Nat) : Int := ((q.code k (j * q.nt + n)).map fun c => signed 8 c).getD 0
def AttnOp.wFloat (q : AttnOp) (j k n : Nat) : Fv := ((q.code k (j * q.nt + n)).map (decodeFmt (pageElem q.fmt))).getD .zero

/-- First data byte of row m of the query tensor, and its element that meets reduction index k: keys from the tensor's
first channel on, values from the first key column of the walk on. -/
def AttnOp.aAt (q : AttnOp) (m : Nat) : Nat := offOf q.d.aA + 128 + m * linesPer q.d.fa (hC q.a) * 128
def AttnOp.xCode (q : AttnOp) (g : Nat → Byte) (m k : Nat) : Option Nat :=
  let i := if q.d.op = 6 then k else q.off + k
  if maskedAt q.a m || decide (padC q.d.fa (hC q.a) ≤ i) then none else some (codeAt g q.d.fa (q.aAt m) i)
def AttnOp.xInt (q : AttnOp) (g : Nat → Byte) (m k : Nat) : Int :=
  match q.xCode g m k with
  | some c => signed 8 c
  | none => hSigned q.a 10 (hEntry q.a)
def AttnOp.xFloat (q : AttnOp) (g : Nat → Byte) (m k : Nat) : Fv := ((q.xCode g m k).map (decodeFmt q.d.fa)).getD .zero

/-- The column is an output: a token slot walked, or a channel of the head, that OUT has. -/
def AttnOp.live (q : AttnOp) (j n : Nat) : Bool := decide (j * q.nt + n < q.dimN) && decide (q.col j + n < hC q.o)

/-- What OUT holds at row m, channel c. -/
def AttnOp.outCode (q : AttnOp) (g : Nat → Byte) (m c : Nat) : Nat :=
  codeAt g q.d.fo (offOf q.d.aO + 128 + m * linesPer q.d.fo (hC q.o) * 128) c

/-- An integer output (R205, R251): the product, added to an earlier copy's; zero in a row without an allowed key. Another
output format than INT32 has no multiplier here. DESIGN CHOICE, note 59. -/
def AttnOp.putInt (q : AttnOp) (g : Nat → Byte) (m j n : Nat) (v : Word) : Nat × Bool :=
  if q.d.op == 7 && q.empty.getD m false then (zeroCode q.o q.d.fo (hNext q.o), false)
  else if q.d.fo = 8 then ((if q.adds then v + word (q.outCode g m (q.col j + n)) else v).toNat, false)
  else ((Config.vecFn q.d.op [v] 0).toNat % 2 ^ (4 * halves q.d.fo), false)

/-- A floating output (R206, R251). DESIGN CHOICE, note 59. -/
def AttnOp.putFloat (q : AttnOp) (g : Nat → Byte) (m j : Nat) (l : List Fv) : List Nat × List Nat × Nat :=
  let l := if q.d.op == 7 && q.empty.getD m false then l.map fun _ => .zero
    else if q.adds && q.d.fo == 7 then l.zipIdx.map fun p => p.1.add (decodeFmt 7 (q.outCode g m (q.col j + p.2)))
    else l
  convRow q.o q.d.fo l

/-- The operands of an integer unit: parts C and S and the corrections are formed from the delivered bytes, with the zero
point of the query's ladder entry and no bias (R243). -/
def AttnOp.matI (q : AttnOp) (g : Nat → Byte) : MatI :=
  let z := hSigned q.a 10 (hEntry q.a)
  let corr (j n : Nat) : Int := z * ((List.range q.dimK).map fun k => q.wInt j k n).sum
  { nt := q.nt, kp := q.kp, ks := fun _ => List.range q.dimK, x := fun m _ k => q.xInt g m k, w := q.wInt
    c := fun j k => ((List.range q.nt).map (q.wInt j k)).sum
    corr := fun j n => wordI (corr j n), corrSum := fun j => wordI ((List.range q.nt).map (corr j)).sum
    live := q.live, put := q.putInt g }

/-- The value of row m and column c of the product. -/
def AttnOp.value (q : AttnOp) (g : Nat → Byte) (m c : Nat) : Fv :=
  (((List.range q.dimK).map fun k => (q.xFloat g m k, ((q.code k c).map (decodeFmt (pageElem q.fmt))).getD .zero)).foldl
    (fun (s : Fv) p => s.mac p.1 p.2) Fv.zero).mul q.scale

/-- The channels that stand in one block with the first of an MXFP4 tile of a copy, and come before it (R207): those of an
earlier copy as OUT holds them, those of this one as it computes them. DESIGN CHOICE, note 147. -/
def AttnOp.before (q : AttnOp) (g : Nat → Byte) (m j : Nat) : List Fv :=
  let n := q.col j % 32
  if q.d.op != 6 || q.d.fo != 2 then []
  else (List.range n).map fun i =>
    let c := q.col j - n + i
    if q.off ≤ c then q.value g m (c - q.off)
    else mxVal (g (offOf q.d.aO + hScale q.o + m * ceilDiv (hC q.o) 32 + c / 32)).toNat (q.outCode g m c)

/-- The operands of a floating unit: parts C and A are column sums of the delivered bytes in ascending column, part B is
zero (R243, R245). DESIGN CHOICE, note 59. -/
def AttnOp.matF (q : AttnOp) (g : Nat → Byte) (tol : Nat) : MatF :=
  let sum (f : Fv → Fv) (j k : Nat) : Fv := ((List.range q.nt).map fun n => f (q.wFloat j k n)).foldl Fv.add .zero
  { nt := q.nt, kp := q.kp, k := q.dimK, tol := tol, ks := fun _ => List.range q.dimK, x := fun m _ k => q.xFloat g m k, w := q.wFloat
    c := sum fun v => v, a := sum Fv.abs, bsum := fun _ => .zero, babs := fun _ => .zero, bias := fun _ _ => .zero
    scale := fun _ _ => q.scale, live := q.live, lead := q.before g, put := q.putFloat g }

/-- The bytes that hold the pad channels of row m where the columns computed end before OUT's last (R171); a channel that
shares a byte with the first of them stays. -/
def AttnOp.padPut (q : AttnOp) (g : Nat → Byte) (m : Nat) : List (Nat × List Byte) :=
  let f := q.d.fo
  let c := hC q.o
  let keep := if halves f = 1 then c % 2 else 0
  let at_ := offOf q.d.aO + 128 + m * linesPer f c * 128
  if padC f c ≤ c then []
  else [(at_ + (c - keep) * halves f / 2,
    packCodes f ((if keep = 1 then [codeAt g f at_ (c - 1)] else []) ++ List.replicate (padC f c - c) (zeroCode q.o f (hNext q.o))))]

/-- Unit u of an attention descriptor (R916). It reads its query rows, their row words and the filled lines of the ring. -/
def AttnOp.unit (q : AttnOp) (g : Nat → Byte) (tol lines : Nat) (ups : List Upset) (u : Nat) : UnitRes :=
  let j := u % max 1 q.j
  let mr := unitRows q.d.mu (hW q.a) (max 1 q.j) u
  let rows := (List.range mr.2).map fun i =>
    if intFmt q.d.fa then (q.matI g).row ups (u % 4) i (mr.1 + i) j else (q.matF g tol).row ups (u % 4) i (mr.1 + i) j
  { u := u, j := j, rows := rows, rq := false, pads := 0
    puts := rows.zipIdx.flatMap fun p => rowPuts q.o q.d.aO q.d.fo (mr.1 + p.2) (q.col j) p.1
      ++ (if j + 1 = max 1 q.j && decide (q.col j - p.1.lead + p.1.codes.length < hC q.o) then q.padPut g (mr.1 + p.2) else [])
    ctx := if q.d.op = 6 then q.poison.any fun k => decide (k / (q.nt / 16) = j) else !q.poison.isEmpty
    reads := [(q.aAt mr.1, mr.2 * linesPer q.d.fa (hC q.a) * 128), (128 * q.d.n 40 2 + 4 * mr.1, 4 * mr.2),
      (128 * q.d.n 42 2, 128 * min lines q.d.ringLines)] }

/-- What the tensor at a TILE address carries on, and a change of it. -/
def Side.tagAt (x : Side) (e a : Nat) : Option AttnTag := ((x.eng e).tags.find? fun p => p.1 == offOf a).map (·.2)
def Side.putTag (x : Side) (e a : Nat) (t : Option AttnTag) : Side :=
  x.modEng e fun s => { s with tags := match t with
    | some t => s.tags.put (offOf a) t
    | none => s.tags.filter fun p => p.1 != offOf a }

/-- The rows of A already carry the value scale (R244 step 7): they are the rows of P′ with their row scales. -/
def Side.folded (x : Side) (e : Nat) (d : Desc) : Bool := (x.tagAt e d.aA).any fun t => !t.rs.isEmpty

/-- The layer's scale that an FP8 product takes (R245), once; one in the other formats. -/
def Side.layerScale (x : Side) (st e : Nat) (d : Desc) : Fv :=
  if x.pgFmt st = 1 && !(d.op == 7 && x.folded e d) then fp32Of (Config.layerScale (x.rd (Reg.PSQ_PLAN_ID.inst st)) d.layer (if d.op = 6 then 0 else 1)) else .num 1 0

/-- The attention descriptor that a run executes. -/
def Side.attnOp (x : Side) (e : Nat) (r : Run) (d : Desc) : AttnOp :=
  let st := r.stall
  { d := d, a := x.hdrA e r d, o := x.hdrIn st e d.aO, fmt := x.pgFmt st, dim := x.pgDim st
    row := rowBytes (x.pgFmt st) (x.pgDim st), pages := (x.walk e r d).map (x.kvPage e r d), off := x.firstCol e r d
    adds := d.op == 7 && decide (0 < r.copy), empty := (x.qRows e r d).map fun q => q.empty d.slideW, scale := x.layerScale st e d, poison := r.badPages }

/-- Units and unit cycles of an attention descriptor, from the pages walked (R916). -/
def Side.attnDims (x : Side) (e : Nat) (r : Run) (d : Desc) : Nat × Nat :=
  let tokens := 16 * (x.walk e r d).length
  let dim := x.pgDim r.stall
  let k := if d.op = 6 then dim else tokens
  let n := if d.op = 6 then tokens else dim
  (ceilDiv (hW (x.hdrIn r.stall e d.aA)) d.mu * ceilDiv n (tileN d.fa),
   ceilDiv k (tileK d.fa d.fa) * max d.mu (loadW d.fa d.fa))

/-- The pages that the units of a round need are delivered: those of their N tiles for scores, all for values. -/
def Side.pagesReady (x : Side) (e : Nat) (r : Run) (d : Desc) (units : List Nat) : Bool :=
  let n := (x.walk e r d).length
  let j := max 1 (ceilDiv (16 * n) (tileN d.fa))
  if d.op = 6 then units.all fun u => decide (min n ((u % j + 1) * (tileN d.fa / 16)) ≤ r.pages) else decide (n ≤ r.pages)

/-- Every unit of the round of an attention descriptor is checked and written. -/
def Side.runAttn (e : Nat) (r : Run) (d : Desc) (ups : List Upset) (x : Side) : Side :=
  let q := x.attnOp e r d
  let g := (x.me.tiles.sram e).byte
  let tol := x.field (Reg.TE_CHK_CFG.inst e) 1 0
  let res := (r.units q.units).map fun u => q.unit g tol r.lines ups u
  let y := x.modEng e fun s => { s with run := s.run.map fun t => { t with round := t.round + 1 } }
  (y.putRound e r d res).1

/-- The round of an attention descriptor (R916), once its pages are there. -/
def Side.attnRound (x : Side) (e : Nat) (r : Run) (d : Desc) (ups : List Upset) : Side :=
  let n := x.attnDims e r d
  if (r.units n.1).isEmpty || !x.roundOver r n.2 || !x.pagesReady e r d (r.units n.1) then x else x.runAttn e r d ups

/-- WORK_UNIT_DONE (R916): a round of work units of the descriptor that runs. -/
def execWorkUnitDone (n : Now) (d : Ch) (e : Fin 8) (ups : List Upset) (s : State) : Host.Outcome State Fault Refusal :=
  onLive n d (fun x =>
    match (x.eng e).run with
    | none => x
    | some r =>
      let c := x.desc r
      if !r.started || x.teState e != 1 then x
      else if c.op = 1 || c.op = 2 then x.quadRound e r c ups
      else if c.op = 6 || c.op = 7 then x.attnRound e r c ups
      else x) s

/-! ## What one attention carries on (R244, R347) -/

/-- The FP32 scale of the entry of a header: s_0 × 2^e (R197, R208). -/
def entryScale (h : Hdr) (e : Nat) : Fv := ((fp32Of (hw h 9)).mulExact (.num 1 e)).fp32

/-- The key columns of a walk: the slots of its delivered pages with their scales (R225). -/
def AttnOp.keyCols (q : AttnOp) (l : List WalkPage) : List KeyCol :=
  (l.zip q.pages).flatMap fun w => (List.range 16).map fun j =>
    let at_ (k : Nat) : Word := match w.2 with
      | some p => word (wordAt (fun n => p.scales.getD n 0) k)
      | none => 0
    let i := (q.d.kvHead * 16 + j) * 4
    { seq := w.1.seq, pos := 16 * w.1.page + j, ks := at_ i, vs := at_ (((w.2.map fun p => p.scales.length).getD 0) / 2 + i) }

/-- Score c of a row of a score tensor (R244 step 6): value × s_q,e × s_k[t] × SCORE_SCALE over INT8 pages, value ×
SCORE_SCALE over the others, minus infinity where the key is not allowed (R248, R250). DESIGN CHOICE, note 59. -/
def AttnTag.score (t : AttnTag) (int : Bool) (m c : Nat) (v : Fv) : Fv :=
  match t.rows[m]?, t.cols[c]? with
  | some q, some k =>
    if !q.allows t.slideW k.seq k.pos then .inf true
    else if int then ((v.mul (fp32Of t.sq)).mul (fp32Of k.ks)).mul (fp32Of t.scale)
    else v.mul (fp32Of t.scale)
  | _, _ => .inf true

/-- The value of a code of a score tensor. -/
def scoreVal (fmt n : Nat) : Fv := if fmt = 8 then Fv.ofInt (signed 32 n) else decodeFmt fmt n

/-- The larger of two values; NaN wins. -/
def Fv.max2 (a b : Fv) : Fv := if a == .nan || b == .nan then .nan else if a.le b then b else a

/-- The running maximum and sum of each row over the key columns so far (R347): the exponentials are open. -/
def AttnOp.running (q : AttnOp) (g : Nat → Byte) (t : AttnTag) : List (Word × Word) :=
  (List.range (hW q.o)).map fun m =>
    let l := (List.range t.cols.length).map fun c => t.score (intFmt q.d.fa) m c (scoreVal q.d.fo (q.outCode g m c))
    let mx := l.foldl Fv.max2 (.inf true)
    (mx.code32, Config.vecFn 0x15 (l.map Fv.code32) l.length)

/-- What the commit of an attention descriptor carries on: the key columns of scores, the row scales of values. The first
copy of a template begins anew. -/
def Side.attnTag (x : Side) (e : Nat) (r : Run) (d : Desc) : Side :=
  let q := x.attnOp e r d
  let old := x.tagAt e (if d.op = 6 then d.aO else d.aA)
  let before := (old.filter fun t => t.num == r.num && (d.op == 7 || decide (0 < r.copy))).elim [] (·.cols)
  let t : AttnTag :=
    { num := r.num, sq := (entryScale q.a (hEntry q.a)).code32, scale := word (d.n 32 4), slideW := d.slideW, layer := d.layer, rows := x.qRows e r d
      cols := if d.op = 6 then before ++ q.keyCols (x.walk e r d) else [], run := [], rs := (old.elim [] (·.rs)) }
  let t := if d.op = 6 then { t with run := q.running (x.me.tiles.sram e).byte t, rs := [] } else t
  x.putTag e d.aO (some t)

/-- The commit of ATTN_QK or ATTN_PV, one copy of a template or the whole: rows without an allowed key are counted once,
when their output stands (R251). -/
def Side.attnCommit (x : Side) (e : Nat) (r : Run) (d : Desc) (last : Bool) : Side :=
  let x := x.attnTag e r d
  if d.op == 7 && last && (!r.served || x.stepEngine r.stall == some e) then
    x.countN Ct.BSQ_EMPTY_ROWS r.stall (((x.qRows e r d).filter fun q => q.empty d.slideW).length)
  else x

end Sys2Proof.Machine
end

