-- ==== Sys2Proof/Machine/Pools.lean ====
section
/-!
DEFINITION. What the window unit and the regroup unit write (R163, R168 to R171, R183 to R195, R206, R207): pooling and
regrouping, and how many cycles the descriptors without work units take (R160, R189, R196).
-/

namespace Sys2Proof.Machine

/-! ## Tensors in the tile buffer -/

/-- The code of element (p, c) of a tensor at TILE offset a, p numbering its positions in row order (R168). -/
def elemCode (g : Nat → Byte) (h : Hdr) (a p c : Nat) : Nat :=
  let f := hFmt h
  if hLayout h = 0 then codeAt g f (a + 128 + p * linesPer f (hC h) * 128) c
  else codeAt g f (a + 128 + p / hW h * (ceilDiv (hW h * hC h * halves f) 256 * 128)) (p % hW h * hC h + c)

/-- The data bytes of a tensor whose element (p, c) has code `f p c`, its pad channels and row padding filled. -/
def tensorBytes (h : Hdr) (z : Nat) (f : Nat → Nat → Nat) : List Byte :=
  if hLayout h = 0 then
    (List.range (hH h * hW h)).flatMap fun p => linePos (hFmt h) (hC h) z ((List.range (hC h)).map (f p))
  else
    let n := ceilDiv (hW h * hC h * halves (hFmt h)) 256 * 256 / halves (hFmt h)
    (List.range (hH h)).flatMap fun y =>
      packCodes (hFmt h) ((List.range n).map fun i => if i < hW h * hC h then f (y * hW h + i / hC h) (i % hC h) else z)

/-- The header of an output written by a unit other than the quads, in ladder entry `entry`. -/
def outHdr (h : Hdr) (num entry sat elems flags : Nat) : Hdr :=
  let h := unitHdr h num sat elems flags
  h.set 7 (setFld (hw h 7) 8 6 entry)

/-- Elements of a tensor. -/
def hCount (h : Hdr) : Nat := hH h * hW h * hC h

/-- What a unit makes of an output: the codes of its positions by channel, the block scales of an MXFP4 output in the order of
its scale array, its saturations, the ladder entry it writes in, padded taps, and how many elements it writes. -/
structure OutRes where
  codes : List (List Nat)
  scales : List Nat
  sat : Nat
  entry : Nat
  pads : Nat
  count : Nat
deriving DecidableEq, Repr

/-- The value of element (p, c) of a tensor: a floating value, under its block scale in MXFP4 (R116, R170), an INT32
integer, or the real value of a quantised code (R197). -/
def elemVal (g : Nat → Byte) (h : Hdr) (a p c : Nat) : Fv :=
  let v := elemCode g h a p c
  match hFmt h with
  | 2 => mxVal (g (a + hScale h + p * ceilDiv (hC h) 32 + c / 32)).toNat v
  | 8 => Fv.ofInt (signed 32 v)
  | f => if intFmt f then ((entryScale h (hEntry h)).mulExact (.num (signed (4 * halves f) v - hSigned h 10 (hEntry h)) 0)).fp32
      else decodeFmt f v

/-- An output whose rows of channels are values to convert (R206, R207). -/
def convRows (o : Hdr) (fmt pads : Nat) (l : List (List Fv)) : OutRes :=
  let r := l.map (convRow o fmt)
  { codes := r.map (·.1), scales := r.flatMap (·.2.1), sat := (r.map (·.2.2)).sum, entry := hNext o, pads := pads, count := hCount o }

/-- Write an output tensor in TILE: its codes by position and channel, and its block scales. -/
def Side.putOut (x : Side) (e : Nat) (r : Run) (d : Desc) (o : Hdr) (w : OutRes) : Side :=
  let x := x.physPut 0 e (offOf d.aO + 128)
    (tensorBytes o (zeroCode o (hFmt o) w.entry) fun p c => (w.codes.getD p []).getD c 0)
  let x := if hFmt o = 2 then x.physPut 0 e (offOf d.aO + hScale o) (w.scales.map (BitVec.ofNat 8)) else x
  let x := x.putHdr r.stall e d.aO (outHdr (x.hdr r.stall e d.aO) r.num w.entry w.sat w.count 0)
  (x.countN Ct.TE_SAT_ELEMENTS e w.sat).countN Ct.TE_PAD_TAPS e w.pads

/-! ## Pooling (R190 to R195) -/

/-- The real taps of an output position, and how many taps are padded. Masked positions are no taps (R163). DEDUCED, note 55. -/
def poolTaps (d : Desc) (a o : Hdr) (m : Nat) : List Nat × Nat :=
  let l := (List.range (d.n 32 1 * d.n 33 1)).map fun t => tapPos d a o m t
  (l.filterMap fun p => p.bind fun p => if maskedAt a p then none else some p, (l.filter Option.isNone).length)

/-- a is ranked at or above b among floating codes: +0 above −0 (R192). -/
def rankGe (fmt a b : Nat) : Bool :=
  let va := decodeFmt fmt a
  let vb := decodeFmt fmt b
  if vb.le va && va.le vb then decide (a ≤ b) else vb.le va

/-- The canonical NaN of a format (R909). -/
def nanCode (fmt : Nat) : Nat := (convFloat fmt .nan).1

/-- The largest of some codes (R191, R192) of a format that has no block scales. -/
def maxCode (fmt : Nat) (l : List Nat) : Nat :=
  if intIn fmt then
    (l.foldl (fun m c => match m with
      | none => some c
      | some b => some (if signed (4 * halves fmt) b < signed (4 * halves fmt) c then c else b)) none).getD 0
  else if l.any fun c => decodeFmt fmt c == .nan then nanCode fmt
  else (l.foldl (fun m c => match m with
    | none => some c
    | some b => some (if rankGe fmt b c then b else c)) none).getD 0

/-- The larger of two values, +0 above −0; NaN wins (R192). -/
def Fv.maxRank (a b : Fv) : Fv := if a.isZero && b.isZero then (if a == .nzero then b else a) else a.max2 b

/-- The largest of some values; +0 of none (R195). -/
def Fv.maxOf : List Fv → Fv
  | [] => .zero
  | v :: t => t.foldl Fv.maxRank v

/-- POOL_MAX: codes are compared; in MXFP4 the values under their block scales are, and new blocks are formed (R207). -/
def poolMax (g : Nat → Byte) (d : Desc) (a o : Hdr) : OutRes :=
  let ts := (List.range (hH o * hW o)).map (poolTaps d a o)
  let pads := (ts.map (·.2)).sum
  if d.fa = 2 then
    convRows o 2 pads (ts.map fun t => (List.range (hC o)).map fun c => Fv.maxOf (t.1.map fun p => elemVal g a (offOf d.aA) p c))
  else
    { codes := ts.map fun t => (List.range (hC o)).map fun c =>
        if t.1.isEmpty then zeroCode a d.fa (hEntry a) else maxCode d.fa (t.1.map fun p => elemCode g a (offOf d.aA) p c)
      scales := [], sat := 0, entry := hEntry a, pads := pads, count := hCount o }

/-- round(2^32 / cnt), and t of R193. -/
def avgInt (acc : Int) (cnt : Nat) : Int := (acc * rndAway (2 ^ 32) cnt + 2 ^ 31) / 2 ^ 32

/-- FP32 1 / cnt (R194). -/
def recip32 (cnt : Nat) : Fv := (Fv.num (rndEven (2 ^ 80) cnt) (-80)).fp32

/-- The divisor of an average (R193). -/
def avgCnt (d : Desc) (t : List Nat) : Nat := if d.includePad then d.n 32 1 * d.n 33 1 else t.length

/-- One output of an integer POOL_AVG: its code and whether it saturates (R193, R195, R201). -/
def avgOne (g : Nat → Byte) (d : Desc) (a o : Hdr) (t : List Nat) (c : Nat) : Nat × Bool :=
  let z : Int := if intFmt d.fa then hSigned a 10 (hEntry a) else 0
  let acc := (wordI (t.map fun p => signed (4 * halves d.fa) (elemCode g a (offOf d.aA) p c) - z).sum).toInt
  let v := avgInt acc (avgCnt d t)
  if t.isEmpty then (zeroCode o d.fo (hNext o), false)
  else if d.fo = 8 then ((wordI v).toNat, false)
  else requantInt o d.fo (hEntry a) 0 v (rqMul g d a o c) (rqSh g d a o c)

/-- The value of one output of a floating POOL_AVG: the real taps are added in row order of the window from +0 (R194).
DESIGN CHOICE, note 126. -/
def avgVal (g : Nat → Byte) (d : Desc) (a : Hdr) (t : List Nat) (c : Nat) : Fv :=
  ((t.map fun p => elemVal g a (offOf d.aA) p c).foldl Fv.add .zero).mul (recip32 (avgCnt d t))

/-- POOL_AVG. -/
def poolAvg (g : Nat → Byte) (d : Desc) (a o : Hdr) : OutRes :=
  let ts := (List.range (hH o * hW o)).map (poolTaps d a o)
  let pads := (ts.map (·.2)).sum
  if intIn d.fa then
    let l := ts.map fun t => (List.range (hC o)).map (avgOne g d a o t.1)
    { codes := l.map (·.map (·.1)), scales := [], sat := (l.map fun r => (r.filter (·.2)).length).sum, entry := hNext o, pads := pads, count := hCount o }
  else
    let w := convRows o d.fo pads (ts.map fun t => (List.range (hC o)).map fun c => if t.1.isEmpty then .zero else avgVal g d a t.1 c)
    if intFmt d.fo then
      { w with codes := (w.codes.zip ts).map fun q => if q.2.1.isEmpty then q.1.map fun _ => zeroCode o d.fo (hNext o) else q.1 }
    else w

/-- An out-of-range mul[n] is met by an integer POOL_AVG (R365). -/
def avgRqBad (g : Nat → Byte) (d : Desc) (a o : Hdr) : Bool :=
  d.op == 4 && intIn d.fa && d.fo != 8 && (List.range (hC o)).any fun c => mulBad (rqMul g d a o c)

/-! ## Regrouping (R183 to R188) -/

/-- The input element of output element (p, c): position and channel; none beyond the input. -/
def regroupSrc (d : Desc) (a o : Hdr) (p c : Nat) : Option (Nat × Nat) :=
  let y := p / hW o
  let x := p % hW o
  if d.c2s then
    some (y / d.fy * hW a + x / d.fx, (y % d.fy * d.fx + x % d.fx) * hC o + c)
  else
    let iy := y * d.fy + c / (d.fx * hC a)
    let ix := x * d.fx + c / hC a % d.fx
    if iy < hH a ∧ ix < hW a then some (iy * hW a + ix, c % hC a) else none

/-- The source of output element (p, c), where it is an element that is not masked (R163). -/
def regroupFrom (d : Desc) (a o : Hdr) (p c : Nat) : Option (Nat × Nat) :=
  (regroupSrc d a o p c).filter fun s => !maskedAt a s.1

/-- The block scale of output block b of position p: that of its elements (R187); where they differ the spec states none.
DESIGN CHOICE, note 126. -/
def regroupScale (g : Nat → Byte) (d : Desc) (a o : Hdr) (p b : Nat) : Nat :=
  let l := ((List.range (min 32 (hC o - 32 * b))).filterMap fun i => regroupFrom d a o p (32 * b + i)).map fun s =>
    (g (offOf d.aA + hScale a + s.1 * ceilDiv (hC a) 32 + s.2 / 32)).toNat
  match l with
  | [] => 0
  | k :: t => if t.all (· == k) then k else (Config.vecFn 0x05 (l.map word) b).toNat % 256

/-- REGROUP: codes are copied bit for bit (R183 to R187). -/
def regroup (g : Nat → Byte) (d : Desc) (a o : Hdr) : OutRes :=
  let ps := List.range (hH o * hW o)
  { codes := ps.map fun p => (List.range (hC o)).map fun c =>
      match regroupFrom d a o p c with
      | some s => elemCode g a (offOf d.aA) s.1 s.2
      | none => zeroCode a d.fa (hEntry a)
    scales := if d.fa = 2 then ps.flatMap fun p => (List.range (ceilDiv (hC o) 32)).map (regroupScale g d a o p) else []
    sat := 0, entry := hEntry a, pads := 0, count := hCount o }

/-- The byte of the tile buffer that holds element (p, c) of a tensor. -/
def elemByte (h : Hdr) (a p c : Nat) : Nat :=
  let f := hFmt h
  if hLayout h = 0 then a + 128 + p * linesPer f (hC h) * 128 + c * halves f / 2
  else a + 128 + p / hW h * (ceilDiv (hW h * hC h * halves f) 256 * 128) + (p % hW h * hC h + c) * halves f / 2

/-- The byte that holds the block scale of channel c of position p of an MXFP4 tensor (R170). -/
def scaleByte (h : Hdr) (a p c : Nat) : Nat := a + hScale h + p * ceilDiv (hC h) 32 + c / 32

/-- The regroup unit copies the parity of each byte with the byte, block scales among them (R188): output bytes whose source
byte is bad. -/
def regroupBad (s : Sram) (d : Desc) (a o : Hdr) : List Nat :=
  let n := max 1 (halves d.fa / 2)
  (List.range (hH o * hW o)).flatMap fun p => (List.range (hC o)).flatMap fun c =>
    match regroupFrom d a o p c with
    | some q =>
      ((List.range n).filterMap fun k =>
        if s.parityBad (elemByte a (offOf d.aA) q.1 q.2 + k) 1 then some (elemByte o (offOf d.aO) p c + k) else none)
      ++ (if d.fa = 2 && s.parityBad (scaleByte a (offOf d.aA) q.1 q.2) 1 then [scaleByte o (offOf d.aO) p c] else [])
    | none => []

/-- Bytes of a tile buffer take wrong parity. -/
def Side.tileBad (x : Side) (e : Nat) (l : List Nat) : Side :=
  let s := x.me.tiles.sram e
  { x with me := { x.me with tiles := x.me.tiles.put e { s with bad := l.foldl NatSet.add s.bad } } }

/-! ## Cycles -/

/-- Elements per cycle of an element-wise operation on elements of so many half bytes (R160). -/
def elemRate (h : Nat) : Nat := 4096 / h

/-- Cycles of one row of a VECTOR (R160). -/
def vecRow (d : Desc) (b : Nat) : Nat :=
  let n := d.count
  let l := ceilDiv n 512
  let h := max (max (halves d.fa) b) (halves d.fo)
  let sort (p : Nat) : Nat := p * (p + 1) / 2 * 4 * ceilDiv (2 ^ p) 512
  match d.vop with
  | 7 => l
  | 8 | 9 | 10 | 11 | 12 | 13 | 14 | 15 => ceilDiv n 128
  | 0x10 | 0x11 | 0x12 | 0x13 => l + 10
  | 0x14 => 2 * l + 10
  | 0x15 => 3 * l + ceilDiv n 128 + 24
  | 0x16 => 2 * l + 22
  | 0x17 => 3 * l + 32
  | 0x18 => ceilDiv n 256
  | 0x19 | 0x1A => ceilDiv n 64
  | 0x1B => sort d.sortP
  | 0x1C => 12 * l + 2000
  | 0x1D => sort d.sortP + 2 ^ d.sortP * (ceilDiv (2 ^ d.sortP) 64 + 12)
  | 0x1E => 3 * l + 12
  | 0x1F => 4 * l + 12
  | _ => ceilDiv n (elemRate h)

/-- Cycles of a pooling descriptor (R196); MAX on FP8 and E2M1 codes goes with the codes of one byte and less, MAX on INT32
with the words. DESIGN CHOICE, note 126. -/
def poolCycles (d : Desc) (a o : Hdr) : Nat :=
  let r := if d.op = 4 then 512 else if halves d.fa ≤ 2 then 2048 else if halves d.fa = 4 then 1024 else 512
  d.n 32 1 * d.n 33 1 * ceilDiv (hH o * hW o * padC d.fa (hC a)) r + 40

/-- The least cycles from issue to commit of a descriptor that has no work units (R189, R196, R160, R360). -/
def descCycles (d : Desc) (a b o : Hdr) (hasB : Bool) : Nat :=
  match d.op with
  | 0 => 40
  | 3 | 4 => poolCycles d a o
  | 5 => ceilDiv (hBytes o) 64 + 40
  | 8 => vecRow d (if hasB then halves (hFmt b) else 0) * d.rows + 40
  | 9 => ceilDiv (128 + hBytes a) 256 + 40
  | 10 => ceilDiv (64 + hBytes a) 256 + 60
  | _ => 0

end Sys2Proof.Machine
end

