-- ==== Sys2Proof/Machine/Vector.lean ====
section
/-!
DEFINITION. What the vector unit writes (R160 to R163, R197, R206, R207, R244, R252, R253, R369, R909): element-wise
operations, reductions, moves of elements and sorts; the rotary positions; and the steps of an attention layer that run
on it: the new keys and values of a page, the softmax of masked scores, the rows of P′ and the rows of the output.
-/

namespace Sys2Proof.Machine

/-- A VECTOR descriptor over its operands: the tile buffer, the headers, whether B is there, what A's producer carried on
(R244), whether the stall's pages hold INT8, BSQ_ROPE_CFG, d_head, and the layer's value scale of FP8 pages. -/
structure VecOp where
  g : Nat → Byte
  d : Desc
  a : Hdr
  b : Hdr
  o : Hdr
  hasB : Bool
  tag : Option AttnTag
  int : Bool
  rope : Word
  dim : Nat
  vscale : Fv

/-- What becomes of an element of OUT: it stays, it takes a code, or a value to convert. -/
inductive VRes where
  | keep
  | code (n : Nat)
  | val (v : Fv)
deriving DecidableEq, Repr

/-! ## Operands -/

/-- Element k of A is there: a row's, and A's. -/
def VecOp.has (q : VecOp) (k : Nat) : Bool := decide (k < hCount q.a) && decide (k < q.d.count * q.d.rows)
/-- Element k of A is masked beyond A's actual length, or beyond B's (R163): of the element that B pairs with it, or of B's
position for its row in ROPE and KV_QUANT. DEDUCED, note 55. -/
def VecOp.masked (q : VecOp) (k : Nat) : Bool :=
  maskedAt q.a (k / hC q.a) || (q.hasB && maskedAt q.b (match q.d.vop with
    | 0x18 => k / hC q.a
    | 0x1E => k / max 1 q.d.count
    | _ => k / hC q.b))

/-- Its code and its value. -/
def VecOp.codeA (q : VecOp) (k : Nat) : Nat := elemCode q.g q.a (offOf q.d.aA) (k / hC q.a) (k % hC q.a)
def VecOp.x (q : VecOp) (k : Nat) : Fv := elemVal q.g q.a (offOf q.d.aA) (k / hC q.a) (k % hC q.a)

/-- The word that stands for an element in an operation whose arithmetic is open: INT32 as it is, the others in FP32. -/
def VecOp.cell (q : VecOp) (k : Nat) : Word := if q.d.fa = 8 then word (q.codeA k) else (q.x k).code32

/-- Element k of B, or IMM0 in its place (R369, R919); beyond B's last element the spec states none. -/
def VecOp.codeB (q : VecOp) (k : Nat) : Nat := elemCode q.g q.b (offOf q.d.aB) (k / hC q.b) (k % hC q.b)
def VecOp.y (q : VecOp) (k : Nat) : Fv :=
  if !q.hasB then fp32Of q.d.imm0
  else if k < hCount q.b then elemVal q.g q.b (offOf q.d.aB) (k / hC q.b) (k % hC q.b)
  else fp32Of (Config.vecFn q.d.vop [] k)

/-- A value that the spec does not state: result k of an operation on some words. DESIGN CHOICE, note 58. -/
def VecOp.open_ (q : VecOp) (l : List Word) (k : Nat) : Fv := fp32Of (Config.vecFn q.d.vop l k)

/-- The zero code of OUT. -/
def VecOp.zero (q : VecOp) : VRes := if q.d.fo = 2 then .val .zero else .code (zeroCode q.o q.d.fo (hNext q.o))

/-- Element k of A goes to OUT: its code where the format is one without scales, else its value. -/
def VecOp.copy (q : VecOp) (k : Nat) : VRes :=
  if q.d.fo = q.d.fa && !intFmt q.d.fa && q.d.fa != 2 && q.x k != .nan then .code (q.codeA k) else .val (q.x k)

/-! ## Element by element -/

/-- The smaller or larger of two values, NaN of a NaN; of zeros of both signs the spec names none. -/
def pick (vop : Nat) (lo : Bool) (a b : Fv) : Fv :=
  if a == .nan || b == .nan then .nan
  else if a.isZero && b.isZero && a != b then fp32Of (Config.vecFn vop [a.code32, b.code32] 0)
  else if a.le b == lo then a else b

/-- ADD, MUL, FMA, MIN, MAX and CONVERT of values, in FP32; the results of the others are open. DESIGN CHOICE, note 58. -/
def vecValue (vop : Nat) (a b c : Fv) : Fv :=
  match vop with
  | 0 => a.add b
  | 1 => a.mul b
  | 2 => ((a.mulExact b).addExact c).fp32
  | 3 => pick vop true a b
  | 4 => pick vop false a b
  | 7 => a
  | _ => fp32Of (Config.vecFn vop [a.code32, b.code32] 0)

/-- ADD, MUL, MIN and MAX of INT32 operands, modulo 2^32. -/
def vecInt (vop : Nat) (a b : Word) : Option Word :=
  match vop with
  | 0 => some (a + b)
  | 1 => some (a * b)
  | 3 => some (if a.sle b then a else b)
  | 4 => some (if b.sle a then a else b)
  | _ => none

/-- Row r of a tensor that carries row scales is multiplied by its scale (R244 step 9). -/
def VecOp.rowScale (q : VecOp) (k : Nat) : Option Word := q.tag.bind fun t => t.rs[k / hC q.a]?

/-- Element k of an element-wise operation. -/
def VecOp.each (q : VecOp) (k : Nat) : VRes :=
  if !q.has k then .keep
  else if q.masked k then q.zero
  else if q.d.vop = 7 then
    match q.rowScale k with
    | some s => .val ((q.x k).mul (fp32Of s))
    | none => q.copy k
  else if decide (7 < q.d.vop) then .val (q.open_ [q.cell k] 0)
  else
    let i := if q.d.fa = 8 && q.d.fo = 8 && q.hasB && q.d.fb = 8 then vecInt q.d.vop (word (q.codeA k)) (word (q.codeB k)) else none
    match i with
    | some w => .code w.toNat
    | none => .val (vecValue q.d.vop (q.x k) (q.y k) (fp32Of q.d.imm1))

/-! ## Rows -/

/-- The elements of row r that are there and not masked, and their words. -/
def VecOp.row (q : VecOp) (r : Nat) : List Nat :=
  ((List.range q.d.count).map fun i => r * q.d.count + i).filter fun k => q.has k && !q.masked k
def VecOp.cells (q : VecOp) (r : Nat) : List Word := (q.row r).map q.cell

/-- A sum: exact of INT32, of one or two values as the addition gives it; the order of a longer one is open.
DESIGN CHOICE, note 58. -/
def VecOp.sum (q : VecOp) (l : List Nat) (k : Nat) : VRes :=
  if q.d.fa = 8 then
    let w := wordI (l.map fun i => signed 32 (q.codeA i)).sum
    if q.d.fo = 8 then .code w.toNat else .val (Fv.ofInt w.toInt)
  else match l with
    | [] => .val .zero
    | [i] => .val (q.x i)
    | [i, j] => .val ((q.x i).add (q.x j))
    | _ => .val (q.open_ (l.map q.cell) k)

/-- The smallest or largest element of a list; of none the spec states no value. -/
def VecOp.best (q : VecOp) (lo : Bool) (l : List Nat) : VRes :=
  if q.d.fa = 8 && q.d.fo = 8 && !l.isEmpty then
    let v := l.map fun i => signed 32 (q.codeA i)
    .code (wordI ((if lo then v.min? else v.max?).getD 0)).toNat
  else match l.map q.x with
    | [] => .val (q.open_ [] 0)
    | v :: t => .val (t.foldl (pick q.d.vop lo) v)

/-- The place in its row of the largest element; where several are largest the spec names none. -/
def VecOp.argMax (q : VecOp) (r : Nat) : VRes :=
  let l := q.row r
  let top := l.filter fun i => l.all fun j => (q.x j).le (q.x i)
  let n := match top with
    | [i] => i - r * q.d.count
    | _ => (Config.vecFn q.d.vop (l.map q.cell) 0).toNat
  if q.d.fo = 8 then .code n else .val (Fv.ofInt n)

/-- Element r of a reduction. -/
def VecOp.reduce (q : VecOp) (r : Nat) : VRes :=
  if q.d.rows ≤ r then .keep
  else match q.d.vop with
    | 0x10 => q.sum (q.row r) 0
    | 0x11 => q.best false (q.row r)
    | 0x12 => q.best true (q.row r)
    | _ => q.argMax r

/-- Element k of a prefix sum. -/
def VecOp.prefix_ (q : VecOp) (k : Nat) : VRes :=
  if !q.has k then .keep else if q.masked k then q.zero
  else q.sum ((q.row (k / q.d.count)).filter (· ≤ k)) (k % q.d.count)

/-- Element k of an operation on rows whose arithmetic is open: a norm or a suppression. -/
def VecOp.opens (q : VecOp) (k : Nat) : VRes :=
  if !q.has k then .keep else if q.masked k then q.zero
  else .val (q.open_ (q.cells (k / q.d.count) ++ [q.d.imm0]) (k % q.d.count))

/-! ## Moves of elements and sorts -/

/-- Word k of the index array. -/
def VecOp.index (q : VecOp) (k : Nat) : Nat := wordAt q.g (128 * q.d.auxLine + 4 * k)

/-- GATHER: OUT's element k is A's element at index k; SCATTER: A's element k goes to OUT's element at index k, and where
several go to one the spec names none. DESIGN CHOICE, note 58. -/
def VecOp.gather (q : VecOp) (k : Nat) : VRes :=
  if q.d.count * q.d.rows ≤ k then .keep
  else if hCount q.a ≤ q.index k then .val (q.open_ [word (q.index k)] k)
  else if q.masked (q.index k) then q.zero else q.copy (q.index k)
def VecOp.scatter (q : VecOp) (k : Nat) : VRes :=
  let l := (List.range (q.d.count * q.d.rows)).filter fun i => q.has i && !q.masked i && q.index i == k
  match l with
  | [] => .keep
  | [i] => q.copy i
  | _ => q.copy (l.getD ((Config.vecFn q.d.vop (l.map q.cell) k).toNat % l.length) 0)

/-- The elements of a row as sorted, in the direction given: the padded keys and the masked ones come last (R162). -/
def VecOp.sorted (q : VecOp) (down : Bool) (r : Nat) : List Nat :=
  (q.row r).insertionSort fun i j => (if down then (q.x j).le (q.x i) else (q.x i).le (q.x j)) = true

/-- Element j of a row of sorted keys; the order of NaNs, and of zeros of both signs, is open. DESIGN CHOICE, note 58. -/
def VecOp.sortedAt (q : VecOp) (l : List Nat) (r j : Nat) : VRes :=
  let v := (q.row r).map q.x
  if v.contains .nan || (v.contains .nzero && v.any fun a => a.isZero && a != .nzero) then .val (q.open_ (q.cells r) j)
  else match l[j]? with
    | some i => q.copy i
    | none => q.zero
def VecOp.sort (q : VecOp) (k : Nat) : VRes :=
  if !q.has k then .keep else q.sortedAt (q.sorted Config.sortDescends (k / q.d.count)) (k / q.d.count) (k % q.d.count)

/-- TOPK: the largest elements of each row, in the order of a sort. -/
def VecOp.topK (q : VecOp) (k : Nat) : VRes :=
  let r := k / max 1 q.d.topK
  if q.d.rows ≤ r then .keep
  else
    let l := (q.sorted true r).take q.d.topK
    q.sortedAt (if Config.sortDescends then l else l.reverse) r (k % max 1 q.d.topK)

/-! ## Attention (R244, R250 to R253) -/

/-- SOFTMAX: of scores, row by row of the tensor, with the mask applied (R250); a masked score's output is +0, as is every
output of a row without an allowed key (R251). The exponentials are open. DESIGN CHOICE, note 58. -/
def VecOp.softmax (q : VecOp) (k : Nat) : VRes :=
  match q.tag.filter fun t => !t.run.isEmpty with
  | some t =>
    let m := k / hC q.a
    let l := (List.range t.cols.length).map fun c => t.score q.int m c (q.x (m * hC q.a + c))
    if !q.has k then .keep
    else if l.getD (k % hC q.a) (.inf true) == .inf true then .val .zero
    else .val (q.open_ (l.map Fv.code32) (k % hC q.a))
  | none => q.opens k

/-- Position of row m of a rotation: element m of B (R369), and the FREQ word of pair i. -/
def VecOp.pos (q : VecOp) (m : Nat) : Nat := if q.d.fb = 8 then q.codeB m else ((q.y m).toInt % (2 ^ 32 : Nat)).toNat
def VecOp.freq (q : VecOp) (i : Nat) : Nat := wordAt q.g (128 * q.d.auxLine + 4 * i)

/-- The pair of a channel of a head (R252): its number, its first and its second channel; none where it is not rotated. -/
def pairOf (rope : Word) (c : Nat) : Option (Nat × Nat × Nat) :=
  let n := fld rope 8 0 / 2
  if 2 * n ≤ c then none
  else if bit rope 9 then some (c % n, c % n, c % n + n)
  else some (c / 2, c / 2 * 2, c / 2 * 2 + 1)

/-- π/2 in units of 2^-48, and a Taylor sum 1 − y/(a(a+1)) (1 − y/((a+2)(a+3)) (…)) in them. -/
def halfPi48 : Int := 442139859501778
def taylor48 (y : Int) : Nat → Nat → Int
  | 0, _ => 2 ^ 48
  | n + 1, a => 2 ^ 48 - y * taylor48 y n (a + 2) / (2 ^ 48 * (a * (a + 1) : Nat))

/-- The cosine (0) or the sine (1) of a phase of 2^-32 turns in units of 2^-48, within 2^-40 of the true value. -/
def turn48 (ph : Word) (k : Nat) : Int :=
  let x := halfPi48 * (ph.toNat % 2 ^ 30 : Nat) / 2 ^ 30
  let y := x * x / 2 ^ 48
  let c := taylor48 y 13 1
  let s := x * taylor48 y 13 2 / 2 ^ 48
  match ph.toNat / 2 ^ 30, k with
  | 0, 0 => c | 1, 0 => -s | 2, 0 => -c | _, 0 => s
  | 0, _ => s | 1, _ => c | 2, _ => -s | _, _ => -c

/-- The cosine or the sine that a rotation takes (R253): the value is open within 2^-22 of the true one, and no further.
DESIGN CHOICE, note 58. -/
def turnOf (ph : Word) (k : Nat) : Fv :=
  let v := turn48 ph k
  let w := fp32Of (Config.turn ph k)
  if w.finite && (w.addExact (.num (-v) (-48))).abs.le (.num (2 ^ 26 - 2 ^ 8) (-48)) then w else (Fv.num v (-48)).fp32

/-- ROPE: channel c of position m of A, each head's pairs rotated by their phase (R253). DESIGN CHOICE, note 58. -/
def VecOp.rotate (q : VecOp) (k : Nat) : VRes :=
  let m := k / hC q.a
  let h := k % hC q.a / q.dim
  let at_ (c : Nat) : Fv := q.x (m * hC q.a + h * q.dim + c)
  if hCount q.a ≤ k || decide (q.d.rows ≤ m) then .keep
  else if q.masked k then q.zero
  else match pairOf q.rope (k % hC q.a % q.dim) with
    | none => q.copy k
    | some (i, c0, c1) =>
      if q.d.count ≤ h * (fld q.rope 8 0 / 2) + i then q.copy k
      else
        let ph := word (q.pos m * q.freq i)
        let cos := turnOf ph 0
        let sin := turnOf ph 1
        if k % hC q.a % q.dim = c0 then .val (((at_ c0).mul cos).add ((at_ c1).mul sin).neg)
        else .val (((at_ c0).mul sin).add ((at_ c1).mul cos))

/-- p′ of element k of row m (R244 step 7, R245): the probability times the value scale of its key, or of the layer.
DESIGN CHOICE, note 148. -/
def VecOp.prob (q : VecOp) (m c : Nat) : Fv :=
  let v := q.x (m * hC q.a + c)
  match q.tag.bind fun t => t.cols[c]? with
  | some w => v.mul (if q.int then fp32Of w.vs else q.vscale)
  | none => v

/-- The row scale r of row m: max(p′) / 255 to an integer output (R244 step 7), max(p′) over the largest value of an FP8
output, 1 to a wider one (R245). DESIGN CHOICE, note 148. -/
def VecOp.rowMax (q : VecOp) (m : Nat) : Fv :=
  let mx := Fv.maxOf ((List.range (hC q.a)).map (q.prob m))
  match q.d.fo with
  | 3 => mx.div (Fv.ofInt 448)
  | 4 => mx.div (Fv.ofInt 57344)
  | f => if intFmt f then mx.div (Fv.ofInt 255) else .num 1 0

/-- ROW_QUANT (R244 step 7, R245): to an integer output a code of zero point −128, to a floating one the quotient p′ / r;
of NaN what R909 gives, and of a row whose scale is no positive number the spec states none. DESIGN CHOICE, note 58. -/
def VecOp.rowQuant (q : VecOp) (k : Nat) : VRes :=
  let m := k / hC q.a
  let r := q.rowMax m
  let p := q.prob m (k % hC q.a)
  let v := p.div r
  if !q.has k then .keep
  else if q.masked k then q.zero
  else if r.finite && !decide (0 < r.parts.1) then .val (fp32Of (Config.vecFn 0x1F [p.code32, r.code32] k))
  else if v == .nan then .val .nan
  else if intFmt q.d.fo then
    .code ((clampI (-128) 127 (if r.finite && p.finite then ratioInt p r - 128 else -128)) % 256).toNat
  else .val v

/-! ## The output -/

/-- Element k of the output. KV_QUANT writes pages and leaves its OUT as it is. -/
def VecOp.res (q : VecOp) (k : Nat) : VRes :=
  match q.d.vop with
  | 0x10 | 0x11 | 0x12 | 0x13 => q.reduce k
  | 0x14 => q.prefix_ k
  | 0x15 => q.softmax k
  | 0x16 | 0x17 | 0x1D => q.opens k
  | 0x18 => q.rotate k
  | 0x19 => q.gather k
  | 0x1A => q.scatter k
  | 0x1B => q.sort k
  | 0x1C => q.topK k
  | 0x1E => .keep
  | 0x1F => q.rowQuant k
  | _ => q.each k

/-- A value as OUT holds it, outside MXFP4: an integer output is quantised in its ladder entry (R197, R206). -/
def VecOp.conv (q : VecOp) (v : Fv) : Nat × Bool :=
  if intFmt q.d.fo && v.finite then intCode q.o q.d.fo (hNext q.o) (ratioInt v (entryScale q.o (hNext q.o)))
  else convOut q.o q.d.fo v

/-- Element (p, c) of OUT as it stands. -/
def VecOp.old (q : VecOp) (p c : Nat) : Nat := elemCode q.g q.o (offOf q.d.aO) p c

/-- An element of OUT outside MXFP4: its code, and whether it saturates. -/
def VecOp.code (q : VecOp) (p c : Nat) : Nat × Bool :=
  match q.res (p * hC q.o + c) with
  | .keep => (q.old p c, false)
  | .code n => (n, false)
  | .val v => q.conv v

/-- Block b of position p of an MXFP4 output (R207); one that nothing writes stays. -/
def VecOp.block (q : VecOp) (p b : Nat) : Nat × List Nat :=
  let cs := (List.range (min 32 (hC q.o - 32 * b))).map fun i => 32 * b + i
  let l := cs.map fun c => (c, q.res (p * hC q.o + c))
  if l.all fun e => e.2 == .keep then
    ((q.g (offOf q.d.aO + hScale q.o + p * ceilDiv (hC q.o) 32 + b)).toNat, cs.map (q.old p))
  else mxBlock (l.map fun e => match e.2 with
    | .keep => elemVal q.g q.o (offOf q.d.aO) p e.1
    | .code n => decodeFmt 2 n
    | .val v => v)

/-- The elements of OUT that the operation writes (R214). -/
def VecOp.written (q : VecOp) : Nat := ((List.range (hCount q.o)).filter fun k => q.res k != .keep).length

/-- VECTOR: what becomes of OUT. -/
def VecOp.out (q : VecOp) : OutRes :=
  let ps := List.range (hH q.o * hW q.o)
  if q.d.fo = 2 then
    let l := ps.map fun p => (List.range (ceilDiv (hC q.o) 32)).map (q.block p)
    { codes := l.map fun r => r.flatMap (·.2), scales := l.flatMap fun r => r.map (·.1), sat := 0, entry := hNext q.o, pads := 0
      count := q.written }
  else
    let l := ps.map fun p => (List.range (hC q.o)).map (q.code p)
    { codes := l.map (·.map (·.1)), scales := [], sat := (l.map fun r => (r.filter (·.2)).length).sum, entry := hNext q.o, pads := 0
      count := q.written }

/-- What OUT carries on (R244): scores converted stay scores, probabilities keep their key columns, the rows of P′ have
their scales. -/
def VecOp.tagOut (q : VecOp) : Option AttnTag :=
  q.tag.bind fun t =>
    match q.d.vop with
    | 0x07 => if t.rs.isEmpty then some t else none
    | 0x15 => some { t with run := [] }
    | 0x1F => some { t with run := [], rs := (List.range (hH q.a * hW q.a)).map fun m => (q.rowMax m).code32 }
    | _ => none

/-! ## New keys and values (R244 step 3, R245, R246) -/

/-- The codes and the scale of a row of a page: INT8 takes max|x| / 127, FP8 the layer's scale, BF16 none. Of an INT8 row
without a positive scale the spec states no codes. DESIGN CHOICE, note 59. -/
def kvCodes (fmt : Nat) (layer : Fv) (l : List Fv) : List Nat × Option Word :=
  match fmt with
  | 0 =>
    let s := (Fv.maxOf (l.map Fv.abs)).div (Fv.ofInt 127)
    let ok := s.finite && decide (0 < s.parts.1)
    (l.zipIdx.map fun p => if ok && p.1.finite then ((clampI (-127) 127 (ratioInt p.1 s)) % 256).toNat
       else (Config.vecFn 0x1E (l.map Fv.code32) p.2).toNat % 256, some s.code32)
  | 1 => (l.map fun v => (convFloat 3 (v.div layer)).1, none)
  | _ => (l.map fun v => (convFloat 5 v).1, none)

/-- The pages of a fixed stall that a write of its plan reaches leave POISON (R292). DEDUCED, note 142. -/
def Side.planWrote (x : Side) (st a n : Nat) : Side :=
  if x.served st then x
  else ((x.stl st).pstate.filter fun p =>
      let b := x.pageAddr st p.1
      p.2 % 8 == 4 && decide (pageTier p.1 ≤ 1) && decide (b < a + n) && decide (a < b + x.pgStride st)).foldl
    (fun y p => y.putPword st p.1 0) x

/-- One row is quantised into its page: row v = (kind × H_kv + head) × 16 + slot at byte v × S_row, its scale in the scale
block (R224, R225). -/
def Side.kvWrite (x : Side) (e : Nat) (r : Run) (page slot layer head kind : Nat) (l : List Fv) : Side :=
  let st := r.stall
  let fmt := x.pgFmt st
  let v := (kind * x.pgHeads st + head) * 16 + slot
  let a := x.pageAddr st page
  let w := kvCodes fmt (fp32Of (Config.layerScale (x.rd (Reg.PSQ_PLAN_ID.inst st)) layer kind)) l
  let x := (x.spPutBy e st 0 (a + v * rowBytes fmt (x.pgDim st)) (packCodes (pageElem fmt) w.1)).planWrote st a (x.pgStride st)
  match w.2 with
  | some s => x.spPutBy e st 0 (a + 2 * valueOff fmt (x.pgDim st) (x.pgHeads st) + 4 * v) (wordBytes s)
  | none => x

/-- Row i of a KV_QUANT: B's position i holds its segment and position, its layer, head and kind (0 key, 1 value), and the
page number of a fixed stall's row; a served row's page is that of its sequence's list, or the one the step has allocated
for it. A padding row writes nothing, and a re-prefill writes only the pages that it recomputes (R286); a page that cannot be
written, as a SHARED one (R265), is a window fault (R230). DESIGN CHOICE, note 59. -/
def Side.kvRow (x : Side) (e : Nat) (r : Run) (q : VecOp) (i : Nat) : Side :=
  let st := r.stall
  let w (k : Nat) : Word := word (elemCode q.g q.b (offOf q.d.aB) i k)
  let seg := fld (w 0) 31 24
  let pos := fld (w 0) 16 0
  let layer := fld (w 1) 7 0
  let head := fld (w 1) 11 8
  let l := (List.range (min q.d.count q.dim)).map fun c => q.x (i * q.d.count + c)
  let seq := if r.served then ((x.stl st).step.bind fun t => if seg = 0 then none else t.seqs[seg - 1]?)
    else some { seq := 0, pos := 0, rows := 0, cand := 0, prefill := false, repair := none }
  if hH q.b * hW q.b ≤ i || !q.has (i * q.d.count) || q.masked (i * q.d.count) || seg = 0 then x
  else match seq with
    | none => x
    | some s =>
      let en := x.entryOf st s.seq layer (pos / 16)
      let p := if r.served then x.pageOfEntry st en else (w 2).toNat
      if s.repair.isSome && !x.freshFor st s.seq en then x
      else if r.served && x.pstate st p == 2 then x.walkLost e r s.seq
      else if 2 ≤ pageTier p || !x.pageTo st p || decide (x.pgLayers st ≤ layer) || decide (x.pgHeads st ≤ head) then x.walkLost e r s.seq
      else x.kvWrite e r p (pos % 16) layer head (fld (w 1) 12 12) l

/-- The rows of a KV_QUANT in turn. -/
def Side.kvRows (x : Side) (e : Nat) (r : Run) (q : VecOp) : Side :=
  (List.range q.d.rows).foldl (fun y i => y.kvRow e r q i) x

/-! ## The descriptor -/

/-- The VECTOR descriptor that a run executes. -/
def Side.vecOp (x : Side) (e : Nat) (r : Run) (d : Desc) : VecOp :=
  let st := r.stall
  let tag := (x.tagAt e d.aA).filter fun t => t.num == r.num
  { g := (x.me.tiles.sram e).byte, d := d, a := x.hdrA e r d, b := withEntry (x.hdrIn st e d.aB) r.entB
    o := x.hdrIn st e d.aO, hasB := d.hasB, tag := tag, int := x.pgFmt st == 0
    rope := x.rd (Reg.BSQ_ROPE_CFG.inst st), dim := x.pgDim st
    vscale := match tag with
      | some t => if x.pgFmt st = 1 then fp32Of (Config.layerScale (x.rd (Reg.PSQ_PLAN_ID.inst st)) t.layer 1) else .num 1 0
      | none => .num 1 0 }

/-- The effect of a VECTOR at its commit. -/
def Side.vector (x : Side) (e : Nat) (r : Run) (d : Desc) : Side :=
  let q := x.vecOp e r d
  let x := if d.vop = 0x1E then x.kvRows e r q else x
  (x.putOut e r d q.o q.out).putTag e d.aO q.tagOut

end Sys2Proof.Machine
end

