-- ==== Sys2Proof/Machine/Engines.lean ====
section
/-!
DEFINITION. The life of a descriptor on an engine: its start (R113, R332, R362 to R364), its commit with the flags, the
scale ladder and the published result (R113, R215, R380, R391 to R396, R920), its overrun, the stops of lists and serve
windows, and the launch of lists (R318 to R337).
-/

namespace Sys2Proof.Machine

/-! ## Plan table and serve windows -/

/-- CAD_STAT.SRC: 0 STOPPED, 1 MT, 2 ALIGN, 3 VT. -/
def Side.cadSrc (x : Side) : Nat := x.field Reg.CAD_STAT 1 0

/-- The two words of the plan-table entry of slot k and engine e (R382). -/
def Side.planEntry (x : Side) (st k e : Nat) : Word × Word :=
  let a := x.planBase st + 128 + (k * 8 + e) * 8
  (word (x.loftWord a), word (x.loftWord (a + 4)))

/-- The entry is SERVE. -/
def Side.serves (x : Side) (st e k : Nat) : Bool := fld (x.planEntry st k e).1 1 0 == 2

/-- Nanoseconds from now to the start of slot k of the frame (R82). -/
def Side.slotLeft (x : Side) (k : Nat) : Nat :=
  let c := x.me.cad
  if x.cadSrc = 3 then c.fVt + k * c.len / c.slots - x.vt else c.fMt + k * c.len / c.slots - x.mt

/-- The slot in progress. -/
def Side.slotNow (x : Side) : Nat := x.me.cad.slot - 1

/-- Nanoseconds left in the serve window of an engine; none outside a window (R331, R337). -/
def Side.serveLeft (x : Side) (st e : Nat) : Option Nat :=
  let c := x.me.cad
  if x.cadSrc = 0 then some (2 ^ 64)
  else if !x.serves st e x.slotNow then none
  else
    match (List.range (c.slots - x.slotNow)).find? fun k => decide (0 < k) && !x.serves st e (x.slotNow + k) with
    | some k => some (x.slotLeft (x.slotNow + k))
    | none =>
      let more := match (List.range c.slots).find? fun k => !x.serves st e k with
        | some k => k * c.period / c.slots
        | none => c.period
      some (x.slotLeft c.slots + more)

/-- The time a descriptor of w cycles needs in its window (R332). DEDUCED, note 62. -/
def fit (w : Nat) : Nat := ceilDiv (w * 50005) 30000 + 334

/-- The batch sequencer issues descriptors: SERVING or HOLD (R345). -/
def Side.bsqServes (x : Side) (st : Nat) : Bool :=
  let s := x.field (Reg.BSQ_STAT.inst st) 2 0
  (s == 1 || s == 2) && !x.bsqQuiesce st

/-! ## Start -/

/-- Every bit of the wait mask is set, and one of them is tainted (R113, R326). -/
def Side.waitMet (x : Side) (r : Run) (d : Desc) : Bool := x.sbSeen r.stall d.waitGrp &&& d.waitMask == d.waitMask
def Side.waitTaint (x : Side) (r : Run) (d : Desc) : Bool := x.sbTaint r.stall d.waitGrp &&& d.waitMask != 0

/-- The output of a refused descriptor takes WINDOW: its address passed SPACE and ALIGN and its own header is sound (R364).
DEDUCED, note 63. -/
def Ctx.outSound (c : Ctx) : Bool :=
  let d := c.d
  d.hasOut && d.aO % 128 == 0 && hdrSound c.o && !tileOver d.aO (128 + hBytes (if d.op = 9 then c.a else c.o))
    && (if d.op = 9 then decide (spaceOf d.aO ≤ 2) else spaceOf d.aO == 0)

/-- An operand header that is read carries parity errors. -/
def Side.meetHdr (x : Side) (e : Nat) (r : Run) (use : Bool) (a : Nat) : Side × Bool :=
  if use && x.winOk r.stall a 128 false then x.meetBy e r.stall e a 128 else (x, false)

/-- The operand headers of a descriptor are read, with whether they carry a parity error. -/
def Side.readHdrs (x : Side) (e : Nat) (r : Run) (d : Desc) : Side × Bool :=
  let ma := x.meetHdr e r (d.takesA && d.op != 10) d.aA
  let mb := ma.1.meetHdr e r (d.hasB && d.op != 10) d.aB
  (mb.1, ma.2 || mb.2)

/-- The flags of a descriptor's operands. -/
def Ctx.inFlags (c : Ctx) : Nat :=
  (if c.d.takesA then hFlags c.a else 0) ||| (if c.d.hasB && c.d.op != 10 then hFlags c.b else 0)

/-- A descriptor that passed its decode starts: LATE with a tainted wait or input (R326, R380); the ladder entries of its
inputs are read (R217), and an attention walk passes the pages that the engine holds delivered (R256). -/
def Side.beginDesc (x : Side) (e : Nat) (r : Run) (d : Desc) (par : Bool) : Side :=
  let late := x.waitTaint r d || (x.ctx e r d).inFlags / 8 % 2 == 1
  let x := (x.setTe e 1).wr64 (Reg.TE_CUR_DESC.inst e) r.at_
  let x := x.stepFlags r false par false
  let st := r.stall
  let heads := x.readHeads r d
  let q := { r with heads := heads }
  let held := if d.op = 6 || d.op = 7 then x.heldAhead e q d (x.walk e q d) else 0
  x.modEng e fun s => { s with run := s.run.map fun t => { t with
    started := true, issueMt := x.mt, late := late, par := par, pages := held, heads := heads
    entA := hEntry (x.hdrIn st e d.aA), entB := hEntry (x.hdrIn st e d.aB) } }

/-- A refusal at decode is completed 40 cycles later (R364). -/
def Side.refuseDesc (x : Side) (e cause operand : Nat) (mark : Bool) : Side :=
  x.modEng e fun s => { s with run := s.run.map fun t => { t with refused := some (cause, operand, mark), issueMt := x.mt } }

/-- The descriptor is decoded and starts, or is refused (R362 to R364). DEDUCED, notes 62, 63. -/
def Side.decode (x : Side) (e : Nat) (r : Run) (d : Desc) : Side :=
  let m := (x.passBridle e ⟨true, x.planBase r.stall + r.at_, 64, none⟩).readHdrs e r d
  match (m.1.ctx e r d).check with
  | some (cause, operand) => m.1.refuseDesc e cause operand (m.1.ctx e r d).outSound
  | none => m.1.beginDesc e r d m.2

/-- The budget of a fixed list has ended: slot b has started, or its frame is over (R324). -/
def Side.budgetOver (x : Side) (r : Run) : Bool :=
  !r.served && (x.cadSrc == 0 || r.num != x.rdN Reg.CAD_FRAME || decide (r.bend < x.me.cad.slot))

/-- The head descriptor of an IDLE engine whose wait is satisfied; of a list whose budget has not ended (R374);
of a served stall, only where it fits its window. -/
def Side.startDesc (x : Side) (e : Nat) : Side :=
  match (x.eng e).run with
  | none => x
  | some r =>
    let d := x.desc r
    if r.started || r.refused.isSome || x.teState e != 0 || !x.waitMet r d || x.budgetOver r then x
    else if !r.served then x.decode e r d
    else if !x.bsqServes r.stall || !x.issueOpen then x
    else match x.serveLeft r.stall e with
      | none => x
      | some l =>
        if d.wcet ≤ 24000 && decide (l < fit d.wcet) then
          if r.unfit then x
          else (x.count Ct.BSQ_DESC_NOT_FIT r.stall).modEng e fun s => { s with run := s.run.map fun t => { t with unfit := true } }
        else x.decode e r d

/-- DESCRIPTOR_START (R362). -/
def execDescriptorStart (n : Now) (d : Ch) (e : Fin 8) (s : State) : Host.Outcome State Fault Refusal :=
  onLive n d (fun x => x.startDesc e) s

/-! ## The scale ladder -/

/-- The decision of R215: the new NEXT and RELAX_CNT. -/
def ladderStep (h : Hdr) : Nat × Nat :=
  let lhs := (hw h 16).toNat * 65536
  let elems := (hw h 17).toNat + 2 ^ 32 * fld (hw h 18) 15 0
  let next := hNext h
  let steps := fld (hw h 7) 19 12
  let cnt := fld (hw h 7) 27 20
  if fld (hw h 8) 15 0 * elems < lhs && decide (next + 1 < hL h) then (next + 1, 0)
  else if lhs ≤ fld (hw h 8) 31 16 * elems && decide (0 < steps) then
    if cnt + 1 = steps then (if 0 < next then (next - 1, 0) else (next, 0)) else (next, cnt + 1)
  else (next, 0)

/-- A decision of a served step is remembered as it stood before, in case the step runs once more (R212, R215). -/
def Side.keepLadder (x : Side) (e st a : Nat) (h : Hdr) : Side :=
  x.modStl st fun s => { s with step := s.step.map fun t =>
    { t with moved := t.moved ++ [((e, a), hNext h, fld (hw h 7) 27 20)] } }

/-- The last writer of a step commits (R215, R216, R219); in a replay a recorded decision stands in for it (R854). -/
def Side.ladder (x : Side) (e st a : Nat) (tag : Word) : Side :=
  let h := x.hdr st e a
  let x := if x.served st then x.keepLadder e st a h else x
  let own := if hFlags h != 0 then (hNext h, fld (hw h 7) 27 20) else ladderStep h
  let x := if hFlags h != 0 then x.count Ct.TE_LADDER_HELD e else x
  let rp := x.replayNext st a own.1
  let x := rp.1
  let r := if rp.2 = own.1 then own else (rp.2, 0)
  if r = (hNext h, fld (hw h 7) 27 20) then x
  else
    let x := x.putHdr st e a (h.set 7 (setFld (setFld (hw h 7) 11 9 r.1) 27 20 r.2))
    if r.1 = hNext h then x
    else
      (x.record 0x07 st (words64 a ++ [pack [(0, hNext h), (3, r.1)], tag, 0, 0, 0, 0])).count
        (if hNext h < r.1 then Ct.TE_LADDER_UP else Ct.TE_LADDER_DOWN) e

/-! ## What each operation writes -/

/-- Mark the run's head descriptor as having met a parity poison, or a window fault. -/
def Side.runPar (x : Side) (e : Nat) (r : Run) (p : Bool) : Side :=
  if p then (x.modEng e fun s => { s with run := s.run.map fun t => { t with par := true } }).stepFlags r false true false else x
def Side.runWin (x : Side) (e : Nat) (r : Run) : Side :=
  (x.stallFaulted r.stall).modEng e fun s => { s with run := s.run.map fun t => { t with win := true } }

/-- Parity met in the data of an operand. -/
def Side.meetData (x : Side) (e : Nat) (r : Run) (a : Nat) (h : Hdr) : Side :=
  let m := x.meetBy e r.stall e (a + 128) (hBytes h)
  m.1.runPar e r m.2

/-- MOVE (R920): both extents are checked before a byte moves; the header goes with the data. A fixed stall's MOVE over a
poisoned page writes it anew (R292). -/
def Side.move (x : Side) (e : Nat) (r : Run) (d : Desc) : Side :=
  let st := r.stall
  let h := x.hdrIn st e d.aA
  let n := 128 + hBytes h
  let src := x.winOk st d.aA 128 false && x.winOk st d.aA n false
  let dst := x.winOk st d.aO n true
  if src && dst then
    let m := x.meetBy e st e d.aA n
    let x := m.1.runPar e r m.2
    let l := x.spGet st e d.aA n
    let x := (x.spPutBy e st e d.aO l).planWrote st d.aO n
    x.putHdr st e d.aO (stepHdr h r.num)
  else
    let x := if src then x else (x.windowFault st e d.aA false).runWin e r
    if dst then x else (x.windowFault st e d.aO true).runWin e r

/-- An engine of the stall is fenced: its results are not valid from the frame of fencing on (R153). -/
def Side.anyFenced (x : Side) (st : Nat) : Bool := (x.engines st).any fun e => x.flag (Reg.TE_FENCE.inst e) 0

/-- The result header of a PUBLISH (R153, R391 to R395, R729): words 0 to 14. DESIGN CHOICE, note 65. -/
def Side.resultWords (x : Side) (r : Run) (d : Desc) (h : Hdr) (bytes : Nat) (refused : Bool) (stamp : List Word) : List Word :=
  let st := r.stall
  let dup := x.flag (Reg.PSQ_CFG.inst st) 1
  let fl := hFlags h
  let par := bit (word fl) 1 || r.par || (x.stl st).parFrame == some (x.rdN Reg.CAD_FRAME)
  let win := refused || bit (word fl) 2 || (x.stl st).winFrame == some (x.rdN Reg.CAD_FRAME)
  let grid := dup && (!x.flag Reg.CAD_STAT 2 || x.flag Reg.CAD_STAT 3)
  let late := bit (word fl) 3 || r.late
  let solo := dup && x.me.safe.solo
  let safe := x.safeState != 1
  let chk := bit (word fl) 0 || (!x.served st && x.anyFenced st)
  let status := if win then 5 else if par then 4 else if chk then 3 else if late || grid then 2 else if solo then 1 else 0
  let valid := decide (status ≤ 1) && !safe
  let now := x.stamp
  let t0 := if x.me.cad.begun then x.me.cad.fVt else 0
  let has := d.aB != 0
  let tv := if has then (stamp.getD 2 0).toNat + 2 ^ 32 * (stamp.getD 3 0).toNat else t0
  let old := if has then (stamp.getD 4 0).toNat + 2 ^ 32 * (stamp.getD 5 0).toNat else t0
  let s0 := if has then stamp.getD 0 0 else 0
  let age := if !has && !x.me.cad.begun then min now.vt 0xFFFFFFFF else min (now.vt - old) 0xFFFFFFFF
  let pair := if x.me.cad.begun then x.rd64 Reg.CAD_FRAME else 0
  [pack [(0, 1), (8, d.n 32 1), (16, nat1 valid), (17, x.d.die), (18, nat1 dup), (19, nat1 late), (20, nat1 solo),
     (21, nat1 (bit s0 9)), (22, nat1 (bit s0 10)), (23, nat1 (bit s0 11)), (24, nat1 (x.flag Reg.SAFE_LAPSED st)), (25, nat1 grid), (26, nat1 safe)],
   pack [(0, status), (8, st)]] ++ words64 pair ++ words64 tv ++ [word age, if has then stamp.getD 6 0 else 0]
   ++ now.words ++ [now.word, x.rd (Reg.PSQ_PLAN_ID.inst st), word bytes]

/-- The Age Visor entries that watch a stream take a committed result (R751). -/
def Side.avTake (x : Side) (stream : Nat) (valid : Bool) (age : Nat) : Side :=
  x.modSafe fun s => { s with av := (List.range 16).foldl (fun t k =>
    let c := x.rd ((Reg.AV_CFG : Reg).el 0x10 k)
    if bit c 0 && fld c 8 1 = stream then t.put k { seen := some (valid, age) } else t) s.av }

/-- PUBLISH (R391 to R396): the header is formed at the commit and the result enters port 8 (R590); in a replay it is
compared and discarded there (R854). A restarted channel sends none while its frame's sensor data began before the restart
(R29), a FENCED channel none at all (R729). DEDUCED, notes 51, 105, 127. DESIGN CHOICE, note 65. -/
def Side.publish (x : Side) (e : Nat) (r : Run) (d : Desc) : Side :=
  let st := r.stall
  let hOk := x.winOk st d.aA 128 false
  let h := x.hdrIn st e d.aA
  let ok := hOk && x.winOk st d.aA (128 + hBytes h) false
  let x := if ok then x else (x.windowFault st e d.aA false).runWin e r
  let m := if ok then x.meetBy e st e d.aA (128 + hBytes h) else (x, false)
  let x := m.1
  let bOk := d.aB == 0 || x.winOk st d.aB 64 false
  let x := if bOk then x else (x.windowFault st e d.aB false).runWin e r
  let b := if d.aB != 0 && bOk then x.meetBy e st e d.aB 64 else (x, false)
  let x := b.1
  let stamp := if d.aB != 0 && bOk then bytesWords (x.spGet st e d.aB 64) else []
  let pay := if ok then x.spGet st e (d.aA + 128) (hBytes h) else []
  let w := x.resultWords { r with par := r.par || m.2 || b.2 } d h pay.length (!ok) stamp
  let body := wordsBytes w
  let frame := body ++ wordBytes (crc32c (body ++ pay)) ++ pay
  let w0 := w.getD 0 0
  let pair := (w.getD 2 0).toNat + 2 ^ 32 * (w.getD 3 0).toNat
  let stream := d.n 32 1
  let x := (x.avTake stream (bit w0 16) (w.getD 6 0).toNat).record 0x0A st
    [pack [(0, stream), (8, fld (w.getD 1 0) 7 0), (16, nat1 (bit w0 16))], w.getD 2 0, w.getD 3 0, crc32c pay, 0, 0, d.tag, 0]
  match x.replaying st with
  | some rp => x.replayResult rp stream (fld (w.getD 1 0) 7 0) (bit w0 16) pay
  | none =>
    if x.me.rst.blind || x.safeState == 3 then x
    else x.publishFrame { ctx := stream, pair := pair } (d.f 33 2 0) frame (bit w0 26)

/-- The data effect of a commit; quads have written theirs round by round. The header of an input is read with the ladder
entry that the descriptor found at its start (R217). -/
def Side.descEffect (x : Side) (e : Nat) (r : Run) (d : Desc) (last : Bool) : Side :=
  let a := x.hdrA e r d
  let b := x.hdrIn r.stall e d.aB
  let o := x.hdrIn r.stall e d.aO
  let g := (x.me.tiles.sram e).byte
  match d.op with
  | 3 => ((x.meetData e r d.aA a).putOut e r d o (poolMax g d a o)).putTag e d.aO none
  | 4 => ((x.meetData e r d.aA a).putOut e r d o (poolAvg g d a o)).putTag e d.aO none
  | 5 => ((x.putOut e r d o (regroup g d a o)).tileBad e (regroupBad (x.me.tiles.sram e) d a o)).putTag e d.aO none
  | 6 | 7 => x.attnCommit e r d last
  | 8 =>
    let x := x.meetData e r d.aA a
    (if d.hasB then x.meetData e r d.aB b else x).vector e r d
  | 9 => x.move e r d
  | 10 => x.publish e r d
  | _ => x

/-! ## Commit -/

/-- The cycles of a descriptor of the quads have passed (R123, R182): its rounds, and 200. -/
def Side.quadDone (x : Side) (r : Run) (units cycles : Nat) : Bool :=
  decide (units ≤ 4 * r.round) && decide (5 * (ceilDiv units 4 * cycles + 200) ≤ 3 * (x.mt - r.issueMt))

/-- The descriptor has run its course: every round is written, every page delivered, and its cycles have passed. -/
def Side.descDone (x : Side) (e : Nat) (r : Run) (d : Desc) : Bool :=
  let a := x.hdrIn r.stall e d.aA
  let o := x.hdrIn r.stall e d.aO
  if d.op = 1 || d.op = 2 then x.quadDone r (d.unitCount a o) (d.unitCycles a)
  else if d.op = 6 || d.op = 7 then
    let n := x.attnDims e r d
    x.quadDone r n.1 n.2 && decide ((x.walk e r d).length ≤ r.pages)
  else decide (5 * descCycles d a (x.hdrIn r.stall e d.aB) o d.hasB ≤ 3 * (x.mt - r.issueMt))

/-- The flags that a run has met, as header flags. -/
def Run.flags (r : Run) : Nat :=
  (if r.chk then fChk else 0) + (if r.par then fPar else 0) + (if r.win then fWin else 0) + (if r.late then fLate else 0)

/-- A further copy of a template is issued (R347); none after the last. -/
def Side.moreCopies (x : Side) (e : Nat) (r : Run) (d : Desc) : Bool :=
  d.template && decide (r.copy + 1 < (x.copies e r d).length)

/-- The commit point (R113): flags, the ladder at the last commit that writes the tensor (R215), signals; then the next
descriptor. -/
def Side.finishDesc (x : Side) (e : Nat) (r : Run) (d : Desc) (inherited : Nat) : Side :=
  let r := ((x.eng e).run).getD r
  let fl := inherited ||| r.flags
  let x := x.markOut e r d fl
  let more := x.moreCopies e r d
  let x := if d.last && !more && d.hasOut && x.winOk r.stall d.aO 128 true then x.ladder e r.stall d.aO d.tag else x
  let x := x.count Ct.TE_DESC_DONE e
  if more then
    let again := { Run.first r.stall r.off r.count r.bend r.num r.served with idx := r.idx, copy := r.copy + 1 }
    ((x.setTe e 0).modEng e fun s => { s with run := some again }).bsqSettle r.stall
  else
    let x := x.signalDesc r d (r.late || fl / 8 % 2 == 1)
    x.endDesc e r

/-- The flags of the operands of a descriptor that commits. -/
def Side.inherited (x : Side) (e : Nat) (r : Run) (d : Desc) : Nat :=
  (if d.takesA then hFlags (x.hdrIn r.stall e d.aA) else 0)
    ||| (if d.hasB && d.op != 10 then hFlags (x.hdrIn r.stall e d.aB) else 0)

/-- An average pooling descriptor's RQ_PARAM (R365). -/
def Side.avgBad (x : Side) (e : Nat) (r : Run) (d : Desc) : Bool :=
  avgRqBad (x.me.tiles.sram e).byte d (x.hdrIn r.stall e d.aA) (x.hdrIn r.stall e d.aO)

/-- The descriptor that an engine runs, and that has run its course, commits (R113); a refused one completes (R364). -/
def Side.commitDesc (x : Side) (e : Nat) : Side :=
  match (x.eng e).run with
  | none => x
  | some r =>
    let d := x.desc r
    match r.refused with
    | some (cause, operand, mark) => if 200 ≤ 3 * (x.mt - r.issueMt) then x.descFault e r d cause operand mark else x
    | none =>
    if !r.started || x.teState e != 1 || !x.descDone e r d then x
    else if x.avgBad e r d then x.descFault e r d 0x13 5 true
    else (x.descEffect e r d (!x.moreCopies e r d)).finishDesc e r d (x.inherited e r d)

/-- DESCRIPTOR_COMMIT (R113). -/
def execDescriptorCommit (n : Now) (d : Ch) (e : Fin 8) (s : State) : Host.Outcome State Fault Refusal :=
  onLive n d (fun x => x.commitDesc e) s

/-- The engines of a channel whose descriptors commit in the cycle of the command before: the commits at the front of the
queue, among what else falls in the cycle, as long as no time passes on this die. DEDUCED, note 149. -/
def sameCommits (d : Ch) : List Instr → List (Fin 8)
  | .descriptorCommit n c e :: t => if n.on d = 0 then (if c = d then [e] else []) ++ sameCommits d t else []
  | .workUnitDone n _ _ _ :: t | .listBudgetEnd n _ _ :: t | .frameStart n _ :: t | .slotStart n _ :: t =>
    if n.on d = 0 then sameCommits d t else []
  | _ => []

/-- A commit that falls in the cycle of a stop or of the slot-0 clear takes effect first (R324, R374). -/
def Side.commitFirst (x : Side) (l : List (Fin 8)) : Side := if x.live then l.foldl (fun y e => y.commitDesc e) x else x

/-! ## Overruns and stops -/

/-- WCET_OVERRUN (R125). -/
def execWcetOverrun (n : Now) (d : Ch) (e : Fin 8) (s : State) : Host.Outcome State Fault Refusal :=
  onLive n d (fun x =>
    match (x.eng e).run with
    | some r =>
      if r.started && x.teState e == 1 && !r.overrun && decide (5 * (x.desc r).wcet < 3 * (x.mt - r.issueMt)) then
        ((x.count Ct.TE_WCET_OVERRUN e).raise Ev.TE_WCET_OVERRUN e).modEng e fun s => { s with run := s.run.map fun t => { t with overrun := true } }
      else x
    | none => x) s

/-- LIST_BUDGET_END (R324). -/
def execListBudgetEnd (n : Now) (d : Ch) (e : Fin 8) (s : State) : Host.Outcome State Fault Refusal :=
  onLive n d (fun x =>
    let x := x.commitFirst (sameCommits d s.pending)
    if ((x.eng e).run).any x.budgetOver then x.stopList e else x) s

/-- ENGINE_STOP_DRAINED (R115, R319): the engine is IDLE and a waiting launch proceeds. -/
def execEngineStopDrained (n : Now) (d : Ch) (e : Fin 8) (s : State) : Host.Outcome State Fault Refusal :=
  onLive n d (fun x => if x.teState e = 2 then (x.setTe e 0).promote e else x) s

/-- SERVE_WINDOW_END (R333, R334): a descriptor that still runs is stopped and its step discarded. -/
def execServeWindowEnd (n : Now) (d : Ch) (e : Fin 8) (s : State) : Host.Outcome State Fault Refusal :=
  onLive n d (fun x =>
    match (x.eng e).run with
    | some r =>
      if !r.served || (x.serveLeft r.stall e).isSome then x
      else if r.started && x.teState e == 1 then
        (((x.count Ct.BSQ_WINDOW_STOPS r.stall).raise Ev.BSQ_WINDOW_STOP r.stall).discardStep r.stall).bsqSettle r.stall
      else x.modEng e fun s => { s with run := s.run.map fun t => { t with unfit := false } }
    | none => x) s

/-! ## Launch -/

/-- One LIST entry is launched (R318 to R320): a list whose budget ended at this instant is stopped first. -/
def Side.launchList (x : Side) (st e : Nat) (w : Word × Word) : Side :=
  let off := w.2.toNat * 128
  let head := word (x.loftWord (x.planBase st + off))
  let r := Run.first st (off + 64) (fld head 31 16) (fld w.1 12 2) (x.rdN Reg.CAD_FRAME) false
  let x := if ((x.eng e).run).any x.budgetOver then x.stopList e else x
  let x := x.count Ct.PSQ_LISTS_LAUNCHED st
  if x.teState e = 0 && (x.eng e).run.isNone then x.modEng e fun s => { s with run := some r }
  else ((x.count Ct.PSQ_LAUNCH_DELAYED st).raise Ev.PSQ_LAUNCH_DELAY st).modEng e fun s => { s with next := some r }

/-- The lists of slot k (R318): slot 0 first clears the scoreboards of the fixed stalls (R322). -/
def Side.launchLists (x : Side) (k : Nat) : Side :=
  (List.range 8).foldl (fun x st =>
    let x := if k = 0 && !x.served st then x.clearSb st else x
    if x.served st || !(x.psq st == 2 || (x.psq st == 3 && !(x.stl st).drained)) then x
    else
      (x.engines st).foldl (fun x e =>
        let w := x.planEntry st k e
        if fld w.1 1 0 = 1 then x.launchList st e w else x) x) x

end Sys2Proof.Machine
end

