-- ==== Sys2Proof/Machine/Batch.lean ====
section
/-!
DEFINITION. The batch sequencer: sequences and their pages (R263 to R267, R338), submission (R388, R389), the forming of
a step (R341 to R347), its commit, retirement and abort (R155, R257 to R262, R348 to R353).
-/

namespace Sys2Proof.Machine

/-! ## Sequences -/

/-- A list in the order of a strict comparison, equal members as they come. -/
def insertBy (lt : Nat → Nat → Bool) (a : Nat) : List Nat → List Nat
  | [] => [a]
  | b :: t => if lt b a || !lt a b then b :: insertBy lt a t else a :: b :: t
def sortBy (lt : Nat → Nat → Bool) (l : List Nat) : List Nat := l.foldl (fun o a => insertBy lt a o) []

/-- STATE of a sequence: 0 FREE, 1 QUEUED, 2 PREFILL, 3 DECODE, 4 PREEMPTED, 5 RECOMPUTE (R338). -/
def Side.putState (x : Side) (st i v : Nat) : Side := x.putSqf st i 0 2 0 v

/-- PRIORITY, ADMIT_STEP, PREEMPT_STEP, PROMPT_LEN. -/
def Side.seqPrio (x : Side) (st i : Nat) : Nat := x.sqf st i 0 15 8
def Side.seqAdmit (x : Side) (st i : Nat) : Nat := x.sq64 st i 16
def Side.seqOrder (x : Side) (st i : Nat) : Nat := x.sq64 st i 18
def Side.promptLen (x : Side) (st i : Nat) : Nat := x.sqf st i 3 17 0

/-- a comes before b: higher priority, then earlier admission, then earlier submission. -/
def Side.ahead (x : Side) (st a b : Nat) : Bool :=
  let pa := x.seqPrio st a
  let pb := x.seqPrio st b
  if pa != pb then decide (pb < pa)
  else if x.seqAdmit st a != x.seqAdmit st b then decide (x.seqAdmit st a < x.seqAdmit st b)
  else decide (x.seqOrder st a < x.seqOrder st b)

/-- BSQ_STAT's counts of resident and QUEUED sequences. -/
def Side.updBsq (x : Side) (st : Nat) : Side :=
  let res := (x.seqsIn st [2, 3, 5]).length
  let q := (x.seqsIn st [1]).length
  x.wr (Reg.BSQ_STAT.inst st) (setFld (setFld (x.rd (Reg.BSQ_STAT.inst st)) 16 8 res) 25 17 q)

/-- The accepted SEQ_SUBMIT command of a sequence: it completes with the sequence's final record. -/
def Side.seqCmd (x : Side) (st i : Nat) : Option (Nat × Cmd) :=
  (List.range 17).findSome? fun f => ((x.fn f).accepted.find? fun c =>
    c.op == 4 && c.handed && c.w 2 % 8 == st && bits (c.w 2) 15 8 == i).map fun c => (f, c)

/-- The detail words of a STEP or SEQ_FINAL record (R713). -/
def Side.seqDetail (x : Side) (st i step : Nat) : List Word :=
  [word (x.sqw st i 24), word (x.sqw st i 25), pack [(0, i), (8, x.sqf st i 23 3 0), (12, x.sqf st i 0 22 20)],
   word (x.nCtx st i), word (x.sqw st i 4)] ++ words64 step ++ [0]

/-- The number of the last committed step. -/
def Side.stepNum (x : Side) (st : Nat) : Nat := x.rd64 (Reg.BSQ_STEP_NUM.inst st)

/-- A STEP record of a sequence; its ring is signalled at the end of the burst (R348). -/
def Side.stepRecord (x : Side) (st i step : Nat) : Side :=
  match x.seqCmd st i with
  | some (f, c) => x.putCompletion f 1 c.ring c.op c.id 0 0 (x.seqDetail st i step)
  | none => x

/-- The final record of a sequence: the command that submitted it completes. -/
def Side.finalRecord (x : Side) (st i step status : Nat) : Side :=
  match x.seqCmd st i with
  | some (f, c) =>
    (x.putCompletion f 2 c.ring c.op c.id status 0 (x.seqDetail st i step)).modFn f fun s => { s with
      accepted := s.accepted.filter fun k => !(k.ring == c.ring && k.id == c.id)
      done := rememberId s.done c.ring c.id }
  | none => x

/-- Signal the completion rings of some functions, each once. -/
def Side.signalAll (x : Side) (l : List Nat) : Side := l.eraseDups.foldl Side.signalCq x

/-- The functions whose commands some sequences belong to. -/
def Side.seqFns (x : Side) (st : Nat) (l : List Nat) : List Nat := l.filterMap fun i => (x.seqCmd st i).map (·.1)

/-! ## Pages of a sequence -/

/-- A sequence leaves a page: the page is freed when no other sequence's list names it, else those that are left share it,
and its OWNER is the lowest of them, in whatever state the page is (R263, R265). -/
def Side.dropShare (x : Side) (st i p : Nat) : Side :=
  match (x.sharers st p).filter (· != i) with
  | [] => x.freePage st p
  | l =>
    let w := x.pword st p
    x.putPword st p (if w % 8 = 2 then sharedWord w l else (setFld (word w) 15 8 (l.headD 0)).toNat)

/-- Every page of a sequence is freed and its entries are closed (R237). -/
def Side.freeSeq (x : Side) (st i : Nat) : Side :=
  (x.entriesOf st i).foldl (fun y e =>
    let p := y.getEntry st e.2.2
    if pageTier p = 3 then y
    else
      let y := (y.dropShare st i p).putEntry st e.2.2 noPage
      if pageTier p = 2 && y.pstate st p = 0 then y.modStl st fun s => { s with crc := s.crc.drop p } else y) x

/-- A sequence leaves the table with a status and a reason (R349, R350): its pages are freed, its entry is FREE, its final
record is written. -/
def Side.endSeq (x : Side) (st i step status reason : Nat) : Side :=
  let x := (x.putSqf st i 0 31 24 status).putSqf st i 0 22 20 reason
  let x := x.finalRecord st i step status
  ((x.freeSeq st i).putState st i 0).updBsq st

/-- The pages of a step that belong to one sequence are trimmed. -/
def Side.trimSeq (x : Side) (st i : Nat) : Side :=
  match (x.stl st).step with
  | some t =>
    (x.trimAlloc st (t.alloc.filter fun a => a.1 == i)).modStl st fun s => { s with step := s.step.map fun t => { t with alloc := t.alloc.filter fun a => a.1 != i } }
  | none => x

/-- A swap of a sequence stops: the pages it has reserved or copied are freed (R282). -/
def Side.dropSwap (x : Side) (st : Nat) : Side :=
  match (x.stl st).swap with
  | none => x
  | some w =>
    let x := (w.left ++ w.copied).foldl (fun y m =>
      let y := if y.pstate st m.2.1 = 3 then y.putPword st m.2.1 (y.pword st m.2.1 / 8 * 8 + 1) else y
      y.putPword st m.2.2 0) x
    let x := x.modStl st fun s => { s with swap := none }
    (List.range 4).foldl (fun y u =>
      if y.field (Reg.PDMA_STAT.inst u) 6 4 = st && y.flag (Reg.PDMA_STAT.inst u) 7 && y.field (Reg.PDMA_STAT.inst u) 1 0 = 2 then
        y.setField (Reg.PDMA_STAT.inst u) 1 0 0 else y) x

/-- Spill and fill moves of a sequence are given up: their pages take back the state that the targets were given, and the
targets are freed. -/
def Side.dropMoves (x : Side) (st i : Nat) : Side :=
  let mine := (x.stl st).moves.filter fun m => m.1 == i
  let x := mine.foldl (fun y m =>
    let y := if y.pstate st m.2.2.1 = 3 then (y.putPword st m.2.2.1 (y.pword st m.2.2.2)).reshare st m.2.2.1 else y
    y.putPword st m.2.2.2 0) x
  x.modStl st fun s => { s with moves := s.moves.filter fun m => m.1 != i }

/-- A sequence is ended from outside a step's commit: aborted, reset, removed, or lost with the shed (R282, R350). -/
def Side.cutSeq (x : Side) (st i status : Nat) : Side :=
  let x := if ((x.stl st).swap.map (·.seq)) == some i then x.dropSwap st else x
  let x := (x.dropMoves st i).trimSeq st i
  let x := x.modStl st fun s => { s with step := s.step.map fun t => { t with out := t.out.add i, gone := t.gone.add i } }
  let fs := x.seqFns st [i]
  ((x.endSeq st i (x.stepNum st) status 0).count Ct.BSQ_SEQ_ABORTED st).signalAll fs

/-! ## Submission (R388, R389) -/

/-- The parameters of a SEQ_SUBMIT command, as words 2 to 12 of its entry hold them. DEDUCED, note 73. -/
structure SeqReq where
  stall : Nat
  seq : Nat
  mask : Nat
  verify : Nat
  prio : Nat
  cand : Nat
  prefix_ : Nat
  cap : Nat
  prompt : Nat
  shareF : Nat
  share : Bool
  stop : Nat
  maxNew : Nat
  donor : Nat
  lb : Nat
  hist : Nat
  candAt : Nat
  tag : Nat
  reserved : Bool
deriving DecidableEq, Repr

/-- Read the parameters (DESIGN CHOICE, log: the spec gives the fields and no layout). DEDUCED, note 73. -/
def Cmd.seqReq (c : Cmd) : SeqReq :=
  let w2 := c.w 2
  let w8 := c.w 8
  { stall := w2 % 8, seq := bits w2 15 8, mask := bits w2 18 16, verify := bits w2 19 19, prio := bits w2 27 20, cand := bits w2 31 28
    prefix_ := bits (c.w 3) 17 0, cap := bits (c.w 3) 31 18, prompt := bits (c.w 4) 17 0, shareF := bits (c.w 4) 30 18
    share := bits (c.w 4) 31 31 == 1, stop := c.w 5, maxNew := bits (c.w 6) 17 0, donor := bits (c.w 6) 25 18
    lb := c.w 7 + 2 ^ 32 * bits w8 7 0, hist := c.w 9 + 2 ^ 32 * bits w8 15 8, candAt := c.w 10 + 2 ^ 32 * bits w8 23 16
    tag := c.w64 11
    reserved := bits w2 7 3 != 0 || bits (c.w 6) 31 26 != 0 || bits w8 31 24 != 0 || c.w 13 != 0 || c.w 14 != 0 || c.w 15 != 0 }

/-- The first cause that refuses a submission (R388, R389); 0 when none does. -/
def Side.seqCause (x : Side) (q : SeqReq) : Nat :=
  let st := q.stall
  let okCap := decide (32 ≤ q.cap) && decide (q.cap ≤ 8192) && q.cap % 32 == 0
  if x.seqState st q.seq != 0 then 1
  else if 4 < q.mask || q.prompt < q.prefix_ then 2
  else if q.prompt = 0 || 16 * q.cap < q.prompt || q.maxNew = 0 || 131072 < q.maxNew then 3
  else if !okCap then 4
  else if !(spaceOf q.lb == 1 || spaceOf q.lb == 2) || q.lb % 128 != 0 || !x.winOk st q.lb (128 + x.pgLayers st * q.cap * 4) true then 5
  else if spaceOf q.hist != 2 || !x.winOk st q.hist (64 * q.cap) true then 6
  else if q.candAt != 0 && (!(spaceOf q.candAt == 1 || spaceOf q.candAt == 2) || !x.winOk st q.candAt 32 false) then 7
  else if q.share && (q.shareF = 0 || !(x.seqsIn st [2, 3, 5]).contains q.donor || x.nCtx st q.donor < 16 * q.shareF
      || q.prompt ≤ 16 * q.shareF || q.cap < q.shareF) then 8
  else if 8 < q.cand then 9
  else if q.reserved then 10 else 0

/-- Write the entry of a submission: QUEUED, with its first pending token. -/
def Side.putSeq (x : Side) (q : SeqReq) : Side :=
  let st := q.stall
  let first := if q.share then 16 * q.shareF else 0
  let pend := bytesNat (x.spGet st 0 (q.hist + 4 * first) 4)
  let w0 := pack [(0, 1), (4, q.mask), (7, q.verify), (8, q.prio), (16, q.cand)]
  let ws := [w0, 0, word q.prefix_, word q.prompt, word pend, word q.stop, word q.maxNew, 0] ++ words64 q.lb ++ [word q.cap]
    ++ words64 q.hist ++ words64 q.candAt ++ [pack [(0, q.shareF), (13, q.donor), (21, nat1 q.share)]] ++ [0, 0]
    ++ words64 (x.stl st).submits ++ [0, 0, 0, 0] ++ words64 q.tag ++ List.replicate 6 0
  x.spPut st 0 (x.seqAddr st q.seq) (wordsBytes ws)

/-- A submission that passed its checks: its command is handed on, its entry is QUEUED. -/
def Side.takeSeq (r : CmdRef) (c : Cmd) (q : SeqReq) (x : Side) : Side :=
  let x := x.modFn r.fn fun s => { s with
    accepted := s.accepted.map fun k => if k.ring == c.ring && k.id == c.id then { k with handed := true } else k }
  ((x.putSeq q).modStl q.stall fun s => { s with submits := s.submits + 1 }).updBsq q.stall

/-- A submission that fails check k: recorded, counted, raised. -/
def Side.refuseSeq (r : CmdRef) (c : Cmd) (q : SeqReq) (k : Nat) (x : Side) : Side :=
  let x := x.wr (Reg.BSQ_SEQ_FAULT.inst q.stall) (pack [(0, k), (8, q.seq)])
  ((x.count Ct.BSQ_SEQ_REFUSED q.stall).raise Ev.BSQ_SEQ_REFUSED q.stall).complete r.fn c 5

/-- A sequence of a stall that serves sequences can be named (R388). -/
def Side.seqExists (x : Side) (st i : Nat) : Bool := x.psq st != 0 && x.served st && decide (i < x.seqMax st)

/-- SEQ_SUBMIT (R388, R389). -/
def execSeqSubmit (n : Now) (d : Ch) (r : CmdRef) (s : State) : Host.Outcome State Fault Refusal :=
  onLive n d (fun x => x.withCmd r 0x04 fun c x =>
    let q := c.seqReq
    if c.handed then x
    else if !x.seqExists q.stall q.seq then x.complete r.fn c 5 4
    else if x.seqCause q != 0 then x.refuseSeq r c q (x.seqCause q)
    else x.takeSeq r c q) s

/-- SEQ_ABORT (R282, R350, R351): word 2 names the stall and the sequence as in SEQ_SUBMIT. -/
def execSeqAbort (n : Now) (d : Ch) (r : CmdRef) (s : State) : Host.Outcome State Fault Refusal :=
  onLive n d (fun x => x.withCmd r 0x05 fun c x =>
    let st := c.w 2 % 8
    let i := bits (c.w 2) 15 8
    if !x.seqExists st i then x.complete r.fn c 5 4
    else if x.seqState st i = 0 then x.complete r.fn c 7
    else (x.cutSeq st i 6).complete r.fn c 0) s

/-! ## Forming a step -/

/-- What forming a step has gathered. -/
structure Form where
  x : Side
  rows : Nat
  seqs : List StepSeq
  alloc : List (Nat × Nat × Nat)

/-- The longest context of a sequence (R261, R387). -/
def Side.ctxMax (x : Side) (st i : Nat) : Nat := min 131072 (16 * x.seqCap st i)

/-- The pages that r rows of a sequence add in each layer (R264): first and how many. -/
def Side.newPages (x : Side) (st i r : Nat) : Nat × Nat :=
  let n := x.nCtx st i
  (pagesOf n, pagesOf (n + r) - pagesOf n)

/-- One page is allocated (R264). -/
def Side.allocPage (x : Side) (st i layer : Nat) : Option (Side × Nat) :=
  ((x.lowestFree st 0).orElse fun _ => x.lowestFree st 1).map fun p => (x.putPword st p (pwordOf 1 0 i 0 layer), p)

/-- The new pages of a sequence, layer by layer, with the list entries that will name them once the step commits (R385);
none when they do not fit. -/
def Side.allocSeq (x : Side) (st i r : Nat) : Option (Side × List (Nat × Nat × Nat)) :=
  let np := x.newPages st i r
  let want := (List.range (x.pgLayers st)).flatMap fun l => (List.range np.2).map fun k => (l, np.1 + k)
  if x.freePages st 0 + x.freePages st 1 < want.length then none
  else
    some (want.foldl (fun (o : Side × List (Nat × Nat × Nat)) w =>
      match o.1.allocPage st i w.1 with
      | some (y, p) => (y, o.2 ++ [(i, y.entryOf st i w.1 w.2, p)])
      | none => o) (x, []))

/-- A sequence may take part in a step: no page of it lies in the shed, is poisoned or is moving (R232, R284). -/
def Side.eligible (x : Side) (st i : Nat) : Bool :=
  !(x.entriesOf st i).any fun e =>
    let p := x.getEntry st e.2.2
    pageTier p == 2 || x.pstate st p == 4 || x.pstate st p == 3

/-- The rows would write a SHARED page (R266). -/
def Side.writesShared (x : Side) (st i : Nat) : Bool :=
  let n := x.nCtx st i
  n % 16 != 0 && (List.range (x.pgLayers st)).any fun l => x.pstate st (x.getEntry st (x.entryOf st i l (n / 16))) == 2

/-- BSQ_STEP_ROWS. -/
def Side.rowsMax (x : Side) (st : Nat) : Nat := x.field (Reg.BSQ_STEP_ROWS.inst st) 10 0

/-- Add r rows of a sequence to the step, when there is room; the flag says that it was added. -/
def Form.add (f : Form) (st i r c : Nat) (prefill : Bool) : Form × Bool :=
  if f.x.rowsMax st < f.rows + r || decide (255 ≤ f.seqs.length) then (f, false)
  else match f.x.allocSeq st i r with
    | none => (f, false)
    | some (y, l) =>
      ({ x := y, rows := f.rows + r, alloc := f.alloc ++ l
         seqs := f.seqs ++ [{ seq := i, pos := y.nCtx st i, rows := r, cand := c, prefill := prefill, repair := none }] }, true)

/-- A sequence whose rows would write a SHARED page completes WINDOW_FAULT before the step starts (R266). -/
def Form.refuse (f : Form) (st i : Nat) : Form :=
  let fs := f.x.seqFns st [i]
  { f with x := (f.x.endSeq st i (f.x.stepNum st) 5 0).signalAll fs }

/-- The candidates of a sequence's next step (R261, R387). -/
def Side.candOf (x : Side) (st i : Nat) : Nat := min (x.sqf st i 0 19 16) (x.ctxMax st i - x.nCtx st i - 1)

/-- Stage 2 of R341. -/
def Form.decode (f : Form) (st i : Nat) : Form :=
  if !f.x.eligible st i then f
  else if f.x.writesShared st i then f.refuse st i
  else
    let c := f.x.candOf st i
    let r := f.add st i (1 + c) c false
    if r.2 then r.1 else { f with x := f.x.count Ct.BSQ_DEFERRED st }

/-- Rows of the next prefill chunk of a sequence, given the rows already taken. -/
def Side.chunkRows (x : Side) (st i rows : Nat) : Nat :=
  min (min (x.promptLen st i - x.nCtx st i) (x.field (Reg.BSQ_PREFILL_CHUNK.inst st) 10 0)) (x.rowsMax st - rows)

/-- A prefill chunk is large enough (R341). -/
def Side.chunkOk (x : Side) (st i r : Nat) : Bool := decide (0 < r) && (decide (16 ≤ r) || r == x.promptLen st i - x.nCtx st i)

/-- Stage 3 of R341. -/
def Form.prefill (f : Form) (st i : Nat) : Form × Bool :=
  if !f.x.eligible st i then (f, false)
  else if f.x.writesShared st i then (f.refuse st i, false)
  else
    let r := f.x.chunkRows st i f.rows
    if !f.x.chunkOk st i r then (f, false)
    else
      let a := f.add st i r 0 true
      if a.2 then a else ({ f with x := f.x.count Ct.BSQ_DEFERRED st }, false)

/-- The poisoned pages of a sequence at its lowest poisoned position: page index and layers (R287). -/
def Side.poisonedAt (x : Side) (st i : Nat) : Option (Nat × List Nat) :=
  let l := (x.entriesOf st i).filter fun e => x.pstate st (x.getEntry st e.2.2) == 4
  ((l.map (·.2.1)).min?).map fun p => (p, (l.filter fun e => e.2.1 == p).map (·.1))

/-- The sequence whose token history recomputes a page (R288): of several that share it the lowest, its OWNER (R263). -/
def Side.repairBy (x : Side) (st i p l : Nat) : Bool :=
  (x.sharers st (x.getEntry st (x.entryOf st i l p))).head? == some i

/-- The token history of the positions of a page is poisoned (R289). -/
def Side.histBad (x : Side) (st i p : Nat) : Bool :=
  x.spBad st 0 (x.sq64 st i 11 % 2 ^ 40 + 64 * p) (4 * validSlots (x.nCtx st i) p)

/-- A re-prefill (R286 to R289): its rows and the fresh pages, whose entries are rewritten at the commit. -/
def Form.repair (f : Form) (st i : Nat) : Form :=
  match f.x.poisonedAt st i with
  | none => f
  | some (p, ls) =>
    let r := validSlots (f.x.nCtx st i) p
    if !(ls.all fun l => f.x.repairBy st i p l) then f
    else if f.x.histBad st i p then
      let fs := f.x.seqFns st [i]
      { f with x := (f.x.endSeq st i (f.x.stepNum st) 4 0).signalAll fs }
    else if f.x.rowsMax st < f.rows + r || decide (255 ≤ f.seqs.length) then f
    else if f.x.freePages st 0 + f.x.freePages st 1 < ls.length then { f with x := f.x.count Ct.BSQ_DEFERRED st }
    else
      let a := ls.foldl (fun (o : Side × List (Nat × Nat × Nat)) l =>
        match o.1.allocPage st i l with
        | some (y, q) => (y, o.2 ++ [(i, y.entryOf st i l p, q)])
        | none => o) (f.x, [])
      { x := a.1.count Ct.BSQ_REPREFILLS st, rows := f.rows + r, alloc := f.alloc ++ a.2
        seqs := f.seqs ++ [{ seq := i, pos := 16 * p, rows := r, cand := 0, prefill := false, repair := some p }] }

/-- Effective priority of a QUEUED sequence (R344). -/
def Side.effPrio (x : Side) (st i : Nat) : Nat :=
  let age := x.field (Reg.BSQ_AGE_STEPS.inst st) 15 0
  if age = 0 then x.seqPrio st i else min 255 (x.seqPrio st i + x.sqf st i 22 15 0 / age)

/-- The QUEUED sequences, first to be admitted first (R343). -/
def Side.queue (x : Side) (st : Nat) : List Nat :=
  sortBy (fun a b => if x.effPrio st a = x.effPrio st b then decide (x.seqOrder st a < x.seqOrder st b) else decide (x.effPrio st b < x.effPrio st a)) (x.seqsIn st [1])

/-- The first F pages of a donor become shared (R265). -/
def Side.sharePages (x : Side) (st i : Nat) : Side :=
  let donor := x.sqf st i 15 20 13
  (List.range (x.pgLayers st)).foldl (fun y l => (List.range (x.sqf st i 15 12 0)).foldl (fun y p =>
    let pg := y.getEntry st (y.entryOf st donor l p)
    let w := y.pword st pg
    let h := y.sharers st pg
    let w := sharedWord (setFld (word w) 2 0 2).toNat (if h.headD i < i then h ++ [i] else i :: h)
    (y.putPword st pg w).putEntry st (y.entryOf st i l p) pg) y) x

/-- The donor still holds the pages that a sequence shares, outside the shed. DEDUCED, note 69. -/
def Side.donorOk (x : Side) (st i : Nat) : Bool :=
  let donor := x.sqf st i 15 20 13
  let f := x.sqf st i 15 12 0
  bits (x.sqw st i 15) 21 21 == 0
    || ((x.seqsIn st [2, 3, 5]).contains donor && decide (16 * f ≤ x.nCtx st donor)
        && (List.range (x.pgLayers st)).all fun l => (List.range f).all fun p =>
            let pg := x.getEntry st (x.entryOf st donor l p)
            decide (pageTier pg < 2) && (x.pstate st pg == 1 || x.pstate st pg == 2))

/-- The batch sequencer admits a sequence (R385): list head, every entry closed, shared pages, PREFILL. DEDUCED, note 69. -/
def Side.admitSeq (x : Side) (st i step : Nat) : Side :=
  let lb := x.sq64 st i 8 % 2 ^ 40
  let cap := x.seqCap st i
  let share := bits (x.sqw st i 15) 21 21 == 1
  let f := x.sqf st i 15 12 0
  let head := [pack [(0, 1), (8, i), (16, x.pgLayers st - 1)], word cap, if share then word f else 0] ++ List.replicate 29 (0 : Word)
  let x := x.spPut st 0 lb (wordsBytes head ++ (List.replicate (x.pgLayers st * cap) (natBytes 4 noPage)).flatten)
  let x := if share then (x.sharePages st i).putSqw st i 1 (16 * f) else x
  ((x.putState st i 2).putSq64 st i 16 step).count Ct.BSQ_SEQ_ADMITTED st

/-- The pages of the first chunk of r rows, in all layers. -/
def Side.firstPages (x : Side) (st r : Nat) : Nat := x.pgLayers st * pagesOf r

/-- Stage 4 of R341: admissions, one after another, while R343 allows; k bounds them. -/
def Form.takeIn (f : Form) (st step : Nat) : Nat → Form
  | 0 => f
  | k + 1 =>
    match f.x.queue st with
    | [] => f
    | i :: _ =>
      let first := if bits (f.x.sqw st i 15) 21 21 = 1 then 16 * f.x.sqf st i 15 12 0 else 0
      let r := min (min (f.x.promptLen st i - first) (f.x.field (Reg.BSQ_PREFILL_CHUNK.inst st) 10 0)) (f.x.rowsMax st - f.rows)
      let ok := f.x.field (Reg.BSQ_STAT.inst st) 2 0 == 1 && decide ((f.x.seqsIn st [2, 3, 5]).length < f.x.seqMax st)
        && (f.x.seqsIn st [4]).isEmpty && decide (f.x.rdN (Reg.BSQ_LOFT_HIGH.inst st) + f.x.firstPages st r ≤ f.x.freePages st 1)
      if !f.x.donorOk st i then (f.refuse st i).takeIn st step k
      else if !ok || r = 0 || !(decide (16 ≤ r) || r == f.x.promptLen st i - first) || decide (255 ≤ f.seqs.length)
          || decide (f.x.freePages st 0 + f.x.freePages st 1 < f.x.firstPages st r) then f
      else
        let g := { f with x := f.x.admitSeq st i step }
        ((g.prefill st i).1).takeIn st step k

/-- QUEUED sequences that are left wait one step longer; the boundary is counted, and the first of a run raised (R343,
R344). -/
def Side.heldBack (x : Side) (st : Nat) : Side :=
  let q := x.seqsIn st [1]
  if q.isEmpty then x.modStl st fun s => { s with held := false }
  else
    let x := q.foldl (fun y i => y.putSqw st i 22 (min 65535 (y.sqf st i 22 15 0 + 1))) x
    let x := x.count Ct.BSQ_ADMIT_HELD st
    let x := if (x.stl st).held then x else x.raise Ev.BSQ_ADMIT_HOLD st
    x.modStl st fun s => { s with held := true }

/-- The bucket of a step: the lowest index whose rows suffice. DEDUCED, note 74. -/
def Side.bucketFor (x : Side) (st rows : Nat) : Option Nat :=
  (List.range 8).find? fun k => decide (rows ≤ x.field ((Reg.BSQ_BUCKET.inst st).el 4 k) 10 0)

/-- The batch sequencer writes the segment map of a step for each attention descriptor of its program (R247, R342).
DESIGN CHOICE, note 59. -/
def Side.putSegMap (x : Side) (st e first count : Nat) (t : Step) : Side :=
  (List.range count).foldl (fun y k =>
    let d := y.descAt st (first + 64 * k)
    if (d.op = 6 || d.op = 7) && !d.srcStatic then y.physPut 0 e (128 * d.n 48 2) (wordsBytes t.segMap) else y) x

/-- Offset of the first descriptor of a step's program, and how many run: a step that only recomputes pages ends before the
attention of the first layer that none of them needs (R286, R287). DEDUCED, note 146. -/
def Side.stepProg (x : Side) (st : Nat) (t : Step) : Nat × Nat :=
  let off := x.loftWord (x.planBase st + 32 + 4 * t.bucket) * 128
  let n := fld (word (x.loftWord (x.planBase st + off))) 31 16
  let ends (k : Nat) : Bool :=
    let d := x.descAt st (off + 64 + 64 * k)
    (d.op == 6 || d.op == 7) && !t.seqs.any fun q => x.layerRuns st q d.layer
  (off + 64, if t.seqs.all (·.repair.isSome) then max 1 (((List.range n).find? ends).getD n) else n)

/-- A step's program starts on one engine: the segment map is written before the first descriptor (R342), and what the
engine carried for an earlier step is gone. -/
def Side.startOn (st : Nat) (t : Step) (x : Side) (e : Nat) : Side :=
  let p := x.stepProg st t
  let x := (x.modEng e fun s => { s with kv := [], tags := [] }).putSegMap st e p.1 p.2 t
  let r := Run.first st p.1 p.2 0 t.num true
  if x.teState e = 0 && (x.eng e).run.isNone then x.modEng e fun s => { s with run := some r }
  else x.modEng e fun s => { s with next := some r }

/-- Start a step (R346): the scoreboard is cleared at the boundary (R322), and its program starts on each engine of the stall
that is not fenced. DEDUCED, note 74. -/
def Side.startStep (x : Side) (st : Nat) (t : Step) : Side :=
  let x := (x.clearSb st).modStl st fun s => { s with step := some t }
  (x.stepEngines st).foldl (Side.startOn st t) x

/-- Every engine that runs the step's program is done with it. -/
def Side.stepRan (x : Side) (st : Nat) (t : Step) : Bool := !t.done.isEmpty && (x.stepEngines st).all t.done.contains

/-- Every function's completion ring has room for its records of the step (R716). -/
def Side.cqFits (x : Side) (st : Nat) (l : List Nat) : Bool :=
  let fs := x.seqFns st l
  fs.eraseDups.all fun f =>
    match (x.fn f).ring 4 with
    | some r => decide (x.ringFill f 4 + (x.fn f).accepted.length + fs.count f ≤ 2 ^ r.log2)
    | none => false

/-- The next step of a stall, formed at a step boundary (R341). -/
def Side.formStep (x : Side) (st : Nat) : Side :=
  let step := x.stepNum st + 1
  let order := sortBy (x.ahead st)
  let f : Form := { x := x, rows := 0, seqs := [], alloc := [] }
  let f := (order (x.seqsIn st [5])).foldl (fun f i => f.repair st i) f
  let f := (order (x.seqsIn st [3])).foldl (fun f i => f.decode st i) f
  let f := (order (x.seqsIn st [2])).foldl (fun f i => (f.prefill st i).1) f
  let f := f.takeIn st step 256
  let y := (f.x.heldBack st).updBsq st
  if f.seqs.isEmpty then y
  else if !y.cqFits st (f.seqs.map (·.seq)) then x.countRm Ct.RM_CQ_WAITS
  else match y.bucketFor st f.rows with
    | none => y.trimAlloc st f.alloc
    | some b =>
      y.startStep st { num := step, seqs := f.seqs, rows := f.rows, bucket := b, alloc := f.alloc, out := [], again := false, chk := false,
                         par := false, win := false, nonfin := false, lost := [], done := [], gone := [], moved := [] }

/-! ## Commit -/

/-- The ladder of the tensors that a step moved stands again as at its start (R212, R215): the first state kept of each. -/
def Side.restoreLadder (x : Side) (st : Nat) (t : Step) : Side :=
  t.moved.foldr (fun m y =>
    let h := y.hdr st m.1.1 m.1.2
    y.putHdr st m.1.1 m.1.2 (h.set 7 (setFld (setFld (hw h 7) 11 9 m.2.1) 27 20 m.2.2))) x

/-- The outputs of a step's program on an engine are written anew when it runs again: the first write of the second run
clears their flags and sums (R155, R379). -/
def Side.reopenOuts (st : Nat) (t : Step) (x : Side) (e : Nat) : Side :=
  let p := x.stepProg st t
  (List.range p.2).foldl (fun y k =>
    let d := y.descAt st (p.1 + 64 * k)
    let h := y.hdr st e d.aO
    if d.hasOut && y.winOk st d.aO 128 true && hw h 19 == word t.num then y.putHdr st e d.aO (h.set 19 (~~~word t.num)) else y) x

/-- The step did not pass: its outputs are discarded, its pages are trimmed, and it runs once more (R155, R430).
DEDUCED, note 72. -/
def Side.repeatStep (x : Side) (st e : Nat) (t : Step) : Side :=
  let x := (x.stepEngines st).foldl (Side.reopenOuts st t) (x.restoreLadder st t)
  let x := (x.trimAlloc st t.alloc).count Ct.TE_RETRIES e
  let a := t.seqs.foldl (fun (o : Side × List (Nat × Nat × Nat)) q =>
    if t.out.contains q.seq then o
    else match q.repair with
      | some p => match o.1.poisonedAt st q.seq with
        | some (_, ls) => ls.foldl (fun (o : Side × List (Nat × Nat × Nat)) l => match o.1.allocPage st q.seq l with
          | some (y, g) => (y, o.2 ++ [(q.seq, y.entryOf st q.seq l p, g)])
          | none => o) o
        | none => o
      | none => match o.1.allocSeq st q.seq q.rows with
        | some (y, l) => (y, o.2 ++ l)
        | none => o) (x, [])
  a.1.startStep st { t with alloc := a.2, again := true, chk := false, par := false, win := false, nonfin := false, done := [], moved := [] }

/-- The sequences of a step that a record of it reports: not those that were cut (R350), nor those that stay for a repair
(R285). -/
def Step.ending (t : Step) : List StepSeq :=
  t.seqs.filter fun q => !t.gone.contains q.seq && (!t.out.contains q.seq || t.lost.contains q.seq)

/-- Every sequence of a step that may not commit completes with a status (R141, R155, R299, R430), one whose pages could not
be walked with WINDOW_FAULT (R230, R233). DEDUCED, note 72. -/
def Side.failStep (x : Side) (st : Nat) (t : Step) (status : Nat) : Side :=
  let l := t.ending.map (·.seq)
  let fs := x.seqFns st l
  let x := (x.trimAlloc st t.alloc).clearSb st
  let x := l.foldl (fun y i => y.endSeq st i t.num (if t.lost.contains i then 5 else status) 0) x
  (x.modStl st fun s => { s with step := none }).signalAll fs

/-- The accepted count of R259: the candidates equal to the outputs before them. DEDUCED, note 68. -/
def acceptGreedy : List Nat → List Nat → Nat
  | c :: cs, o :: os => if c = o then 1 + acceptGreedy cs os else 0
  | _, _ => 0

/-- The candidates at CAND_ADDR; none when the plan's draft descriptors make them (R258, R388). DEDUCED, note 68. -/
def Side.candTokens (x : Side) (st i c : Nat) : Option (List Nat) :=
  let a := x.sq64 st i 13 % 2 ^ 40
  if a = 0 then none else some ((List.range c).map fun k => bytesNat (x.spGet st 0 (a + 4 * k) 4))

/-- Write tokens into the history of a sequence from a position on (R715). -/
def Side.putHist (x : Side) (st i p : Nat) (l : List Nat) : Side :=
  x.spPut st 0 (x.sq64 st i 11 % 2 ^ 40 + 4 * p) (l.flatMap (natBytes 4))

/-- The state words of the pages that positions [a, b) of a sequence lie in take their valid counts (R263). -/
def Side.setValid (x : Side) (st i a b : Nat) : Side :=
  (List.range (x.pgLayers st)).foldl (fun y l => (List.range (pagesOf b - a / 16)).foldl (fun y k =>
    let p := a / 16 + k
    let pg := y.getEntry st (y.entryOf st i l p)
    if pageTier pg = 3 then y else y.putPword st pg (setFld (word (y.pword st pg)) 7 3 (validSlots b p)).toNat) y) x

/-- A sequence grows to n positions: its list names the pages that the step allocated up to there, those wholly beyond are
freed (R260, R290, R385). -/
def Side.growTo (x : Side) (st i from_ n : Nat) (alloc : List (Nat × Nat × Nat)) : Side :=
  let keep := (List.range (x.pgLayers st)).flatMap fun l => (List.range (pagesOf n)).map fun p => x.entryOf st i l p
  let x := x.trimAlloc st (alloc.filter fun a => a.1 == i && !keep.contains a.2.1)
  let x := (alloc.filter fun a => a.1 == i && keep.contains a.2.1).foldl (fun y a => y.putEntry st a.2.1 a.2.2) x
  let lb := x.sq64 st i 8 % 2 ^ 40
  let x := (x.putSqw st i 1 n).spPut st 0 (lb + 8) (natBytes 4 (pagesOf n))
  x.setValid st i from_ n

/-- Emitted tokens of a step in order, those after a STOP_TOKEN discarded: how many stand, and the reason to retire, LENGTH
once their count reaches MAX_NEW (R349). DEDUCED, note 68. -/
def Side.emitted (x : Side) (st i : Nat) (l : List Nat) : Nat × Nat :=
  let stop := x.sqw st i 5
  let room := x.sqf st i 6 17 0 - x.sqf st i 7 17 0
  let s := (l.findIdx? fun t => stop != 0xFFFFFFFF && t == stop).map (· + 1)
  match s with
  | some k => (k, 1)
  | none => (l.length, if room ≤ l.length then 2 else 0)

/-- A sequence retires or goes on after its emitted tokens (R349): `reason` 1 STOP, 2 LENGTH, 3 CTX_FULL. -/
def Side.afterStep (x : Side) (st i num reason : Nat) : Side :=
  let full := decide (x.ctxMax st i ≤ x.nCtx st i)
  let why := if reason != 0 then reason else if full then 3 else 0
  if why = 0 then x.stepRecord st i num
  else
    let x := if why = 3 then x.raise Ev.BSQ_CTX_FULL st else x
    (x.endSeq st i num 0 why).count Ct.BSQ_SEQ_RETIRED st

/-- The commit of a decode row set (R257 to R261). DEDUCED, note 68. -/
def Side.commitDecode (x : Side) (st num : Nat) (q : StepSeq) (o : SeqOut) (alloc : List (Nat × Nat × Nat)) : Side :=
  let i := q.seq
  let n := x.nCtx st i
  let tensor := x.sqf st i 0 7 7 = 1
  let x := if tensor && decide (q.cand < o.tensor) then x.count Ct.BSQ_VERIFY_CLAMP st else x
  let cands := ((x.candTokens st i q.cand).getD o.cands).take q.cand
  let a := if tensor then min o.tensor q.cand else acceptGreedy cands o.tokens
  let out := (o.tokens ++ List.replicate (q.rows - o.tokens.length) 0).take q.rows
  let em := x.emitted st i (out.take (a + 1))
  let a' := min a (em.1 - 1)
  let x := (x.countN Ct.BSQ_CAND_OFFERED st q.cand).countN Ct.BSQ_CAND_ACCEPTED st a'
  let x := x.putHist st i n (x.sqw st i 4 :: out.take a')
  let x := x.growTo st i n (n + 1 + a') alloc
  let x := (x.putSqw st i 4 (out.getD a' 0)).putSqw st i 7 (x.sqf st i 7 17 0 + (a' + 1))
  (x.putSqw st i 23 a').afterStep st i num em.2

/-- The commit of a prefill chunk (R339). -/
def Side.commitPrefill (x : Side) (st num : Nat) (q : StepSeq) (o : SeqOut) (alloc : List (Nat × Nat × Nat)) : Side :=
  let i := q.seq
  let n := x.nCtx st i
  let x := x.growTo st i n (n + q.rows) alloc
  let n' := n + q.rows
  if n' < x.promptLen st i then
    let t := bytesNat (x.spGet st 0 (x.sq64 st i 11 % 2 ^ 40 + 4 * n') 4)
    (x.putSqw st i 4 t).afterStep st i num 0
  else
    let t := o.tokens.getLastD 0
    let em := x.emitted st i [t]
    (((x.putState st i 3).putSqw st i 4 t).putSqw st i 7 (x.sqf st i 7 17 0 + 1)).afterStep st i num em.2

/-- A recomputed page takes the place of the poisoned one (R286): in the list of every sequence that holds it. -/
def Side.commitRepair (x : Side) (st num : Nat) (q : StepSeq) (alloc : List (Nat × Nat × Nat)) : Side :=
  let x := (alloc.filter fun a => a.1 == q.seq).foldl (fun y a =>
    let old := y.getEntry st a.2.1
    let w := y.pword st old
    let holders := y.sharers st old
    let fresh := withPageState w (if holders.length ≤ 1 then 1 else 2)
    let y := y.putPword st a.2.2 (if holders.length ≤ 1 then (setFld (word fresh) 15 8 (holders.headD q.seq)).toNat else sharedWord fresh holders)
    let y := y.putPword st old (withPageState w 5)
    holders.foldl (fun y j => (y.entriesOf st j).foldl (fun y e => if y.getEntry st e.2.2 = old then y.putEntry st e.2.2 a.2.2 else y) y) y) x
  let ready := (x.seqsIn st [5]).filter fun j => !x.seqHas st j 4
  let x := ready.foldl (fun y j => y.putState st j (if y.nCtx st j < y.promptLen st j then 2 else 3)) x
  x.stepRecord st q.seq num

/-- The sequences of a step commit in segment order (R348). -/
def Side.commitSeqs (x : Side) (st : Nat) (t : Step) (outs : List SeqOut) : Side :=
  t.seqs.foldl (fun y q =>
    if t.gone.contains q.seq then y
    else if t.lost.contains q.seq then (y.trimAlloc st (t.alloc.filter fun a => a.1 == q.seq)).endSeq st q.seq t.num 5 0
    else if t.out.contains q.seq then y.trimAlloc st (t.alloc.filter fun a => a.1 == q.seq)
    else
      let o := (outs.find? fun o => o.seq == q.seq).getD { seq := q.seq, tokens := [], tensor := 0, cands := [] }
      match q.repair with
      | some _ => y.commitRepair st t.num q t.alloc
      | none => if q.prefill then y.commitPrefill st t.num q o t.alloc else y.commitDecode st t.num q o t.alloc) x

/-- Sequences that hold a poisoned page wait for its recomputation (R284). -/
def Side.markRecompute (x : Side) (st : Nat) : Side :=
  (x.seqsIn st [2, 3]).foldl (fun y i => if y.seqHas st i 4 then y.putState st i 5 else y) x

/-- The step commits: its records as one burst, its number and counters (R348). -/
def Side.commitStep (x : Side) (st : Nat) (t : Step) (outs : List SeqOut) : Side :=
  let fs := x.seqFns st (t.ending.map (·.seq))
  let x := x.commitSeqs st t outs
  let x := x.wr64 (Reg.BSQ_STEP_NUM.inst st) t.num
  let x := x.wr (Reg.BSQ_STEP_LAST.inst st) (pack [(0, t.rows), (11, t.bucket), (14, t.seqs.length)])
  let x := (x.count Ct.BSQ_STEPS st).countN Ct.BSQ_STEP_ROWS_CNT st t.rows
  let x := (x.modStl st fun s => { s with step := none }).markRecompute st
  ((x.clearSb st).updBsq st).signalAll fs

end Sys2Proof.Machine
end

