-- ==== Sys2Proof/Machine/MemoryTiers.lean ====
section
/-!
DEFINITION. The memory tiers: accesses of the SRAMs and their parity (R399 to R406, R430 to R432), loft completions and
errors (R410 to R416, R433 to R436), zeroing and wiping (R425 to R428), patrol scrubs (R437 to R441), bands (R443 to
R445).
-/

namespace Sys2Proof.Machine

/-! ## The loft's errors -/

/-- An upset changes a cell of the DRAM: without the inline code its data bit is another from then on (R413). -/
def Side.flipDram (x : Side) (c : DramCell) : Side :=
  if x.inline then x.modMem fun m => { m with cells := flipCell m.cells (cellNo c) }
  else match dramData false c.x16 c.row c.byte with
    | some a => x.modMem fun m => { m with loft := m.loft.put a (m.loft.get a ^^^ BitVec.ofNat 8 (2 ^ c.bit.val)) }
    | none => x

/-- What a byte of a DRAM page holds (R408, R409): a data byte or a check byte, with the cells that read wrong changed;
the unused bytes are zero. -/
def Side.dramGet (x : Side) (x16 row o : Nat) : Byte :=
  let wrong := x.me.mem.cells.filter fun k => k / 8 == (row * 16 + x16) * 2048 + o
  let held : Byte := match dramData x.inline x16 row o with
    | some a => x.me.mem.loft.get a
    | none => match (if x.inline then dramCheck x16 row o else none) with
      | some (b, i) => if x.me.mem.poison.contains b then Config.poisonByte i else Config.checkByte (x.loftGet (64 * b + 8 * i) 8)
      | none => 0
  wrong.foldl (fun v k => v ^^^ BitVec.ofNat 8 (2 ^ (k % 8))) held

/-- LOFT_BURST_RETRY (R416): a burst with an uncorrectable link error is retried once; a retry that fails makes its block
uncorrectable. -/
def execLoftBurstRetry (n : Now) (d : Ch) (block : Nat) (ok : Bool) (s : State) : Host.Outcome State Fault Refusal :=
  onLive n d (fun x =>
    let x := x.count Ct.LOFT_LINK_RETRIES
    if ok then x else x.uncorrectable block false) s

/-- WRITEBACK_ISSUE (R433, R440): the oldest block of the write-back queue is rewritten; the write-back of a block that has
been written since its read is dropped. -/
def execWritebackIssue (n : Now) (d : Ch) (s : State) : Host.Outcome State Fault Refusal :=
  onLive n d (fun x =>
    match x.me.mem.wb with
    | [] => x
    | b :: t =>
      (x.modMem fun m => if (wrongWords m.cells b).isEmpty then { m with wb := t } else { m with
        wb := t, loftFixed := m.loftFixed.put b x.mt, cells := cellsLeft m.cells b b }).showWb) s

/-! ## SRAM accesses -/

/-- Bytes of an SRAM take wrong parity: only bytes of valid lines hold any. DEDUCED, note 81. -/
def Sram.upset (r : Sram) (l : List Nat) : Sram :=
  { r with bad := (l.filter fun b => r.valid.contains (b / 64)).foldl NatSet.add r.bad }

/-- The bytes of a set that an upset leaves counted: not those that it makes wrong anew (R440). -/
def stillSeen (seen bad : NatSet) (from_ : Nat) (l : List Nat) : NatSet :=
  seen.filter fun b => !(l.map (from_ + ·)).contains b || (bad.map (from_ + ·)).contains b

/-- The same in the yard or a tile buffer of the die. A byte upset again is a new error (R440). DEDUCED, note 81. -/
def Side.upset (x : Side) (r : RamSel) (l : List Nat) : Side :=
  match r with
  | .yard => x.modMem fun m => { m with yard := m.yard.upset l, yardSeen := stillSeen m.yardSeen m.yard.bad 0 l }
  | .tile e =>
    let t := x.me.tiles.sram e
    let x := x.modMem fun m => { m with yardSeen := stillSeen m.yardSeen t.bad (tileFrom e) l }
    { x with me := { x.me with tiles := x.me.tiles.put e (t.upset l) } }

/-- An access of a tile buffer: only its own engine reaches it, on behalf of the stall that holds the engine (R111). -/
def Side.tileAccess (x : Side) (e : Fin 8) (q : YardReq) : Side :=
  let x := x.upset (.tile e) q.flips
  if q.m.val != e.val || !x.flag (Reg.TE_STAT.inst e) 7 then x
  else match q.write with
    | some l => x.physPut 0 e q.addr (l.take q.len)
    | none => (x.meet (x.field (Reg.TE_STAT.inst e) 6 4) e q.addr q.len).1

/-- A bank of the yard serves an access that its master's bridle lets through (R295, R447). -/
def Side.bankAccess (x : Side) (q : YardReq) : Side :=
  let b := if q.m.val = 8 then 12 else q.m.val
  let r : MemReq := ⟨false, q.addr, q.len, q.write⟩
  (x.upset .yard q.flips).through b r fun x =>
    (x.modMem fun m => { m with bankLast := Tbl.put m.bankLast (q.addr / bankBytes) q.m.val }).yardServe b r

/-- The accesses of one bank that the queue holds for this fabric cycle: the yard accesses at its front with no time before
them. DEDUCED, note 129. -/
def bankCycle (d : Ch) (bank : Nat) : List Instr → List YardReq
  | .yardAccess n e m .yard addr len write flips :: t =>
    if n.on d != 0 then []
    else if e = d && addr / bankBytes = bank then ⟨m, addr, len, write, flips⟩ :: bankCycle d bank t
    else bankCycle d bank t
  | _ => []

/-- Of the masters that hold a request for a bank, the next one's in round-robin order (R456). -/
def Side.bankNext (x : Side) (bank : Nat) (l : List YardReq) : Option YardReq :=
  let last := Tbl.get 8 x.me.mem.bankLast bank
  (List.range 9).findSome? fun k => l.find? fun q => q.m.val == (last + 1 + k) % 9

/-- The bank serves those of `l` whose turn comes before that of q, then q (R456). -/
def Side.bankServe (x : Side) (l : List YardReq) (q : YardReq) : Nat → Side
  | 0 => x.bankAccess q
  | n + 1 =>
    match x.bankNext (q.addr / bankBytes) (q :: l) with
    | none => x.bankAccess q
    | some r =>
      if r == q then x.bankAccess q
      else ((x.bankAccess r).modMem fun m => { m with yardEarly := m.yardEarly ++ [r] }).bankServe (l.erase r) q n

/-- An access of the yard takes its turn among those of its fabric cycle; `now` says that it is of the cycle of the access
before it. -/
def Side.bankTurn (x : Side) (now : Bool) (l : List YardReq) (q : YardReq) : Side :=
  let early := if now then x.me.mem.yardEarly else []
  if early.contains q then x.modMem fun m => { m with yardEarly := early.erase q }
  else
    let l := l.filter fun r => !early.contains r
    (x.modMem fun m => { m with yardEarly := early }).bankServe l q l.length

/-- YARD_ACCESS (R295, R399 to R406, R430, R431, R456): one access of 1 to 128 bytes. Masters 0–7 are the engines, 8 the
general DMA. `addr` is a byte of the yard of the die, or of the tile buffer; `flips` are bytes that an upset has changed. -/
def execYardAccess (n : Now) (d : Ch) (m : Fin 9) (r : RamSel) (addr len : Nat) (write : Option (List Byte))
    (flips : List Nat) (s : State) : Host.Outcome State Fault Refusal :=
  onLive n d (fun x =>
    match r with
    | .tile e => x.tileAccess e ⟨m, addr, len, write, flips⟩
    | .yard => x.bankTurn (n.on d == 0) (bankCycle d (addr / bankBytes) s.pending) ⟨m, addr, len, write, flips⟩) s

/-- A mirror line has been fetched again. -/
def Side.refetched (line : Nat) (srcOk : Bool) (x : Side) : Side :=
  let x := x.modMem fun m => { m with refetch := m.refetch.del line }
  match x.mirrorOf line with
  | none => x
  | some (_, src) => if srcOk then (x.refetchLine line src).1 else x.uncorrectable src false

/-- MIRROR_REFETCH_DONE (R432): the line is rewritten from its source block, or the source is uncorrectable and handled as
sealed content (R435). -/
def execMirrorRefetchDone (n : Now) (d : Ch) (line : Nat) (srcOk : Bool) (s : State) : Host.Outcome State Fault Refusal :=
  onLive n d (fun x =>
    if !x.me.mem.refetch.contains line then x
    else x.refetched line srcOk) s

/-! ## Zeroing and wiping -/

/-- The first unit of the wipe order is zero: writes that waited for it are performed (R427); the last unit ends the wipe.
DEDUCED, note 79. -/
def Side.unitWiped (x : Side) : Side :=
  let x := match x.me.mem.wipe with
    | (u, _) :: _ => ((x.modMem fun m => { m with wipe := wipeDrop m.wipe u }).runWaiting).count ⟨T.GDMA, 1, 0xFFFFFFFF⟩
    | [] => x
  x.wipeShow

/-- No bridled master waits for the loft arbiter: the wipe engine may have it (R449). -/
def Side.loftFree (x : Side) : Bool := ports.all fun b => (x.bridle b).out.isEmpty

/-- LOFT_UNIT_WIPED (R426 to R428, R449): the first unit of the wipe order has been zeroed, which it is not while a bridled
master has a request outstanding. DEDUCED, note 170. -/
def execLoftUnitWiped (n : Now) (d : Ch) (s : State) : Host.Outcome State Fault Refusal :=
  onLive n d (fun x => if x.loftFree then x.unitWiped else x) s

/-- YARD_ZERO_DONE (R425): every bank has been zeroed. -/
def execYardZeroDone (n : Now) (d : Ch) (s : State) : Host.Outcome State Fault Refusal :=
  onLive n d (fun x =>
    if x.me.mem.zeroing.isEmpty then x
    else ((x.modMem fun m => { m with zeroing := [] }).setFlag Reg.YARD_STAT 1 false).raise Ev.YARD_ZERO_DONE) s

/-! ## Patrol scrubs -/

/-- The page of the stall that holds yard byte b of the die. -/
def Side.pageOfByte (x : Side) (st b : Nat) : Option Nat := (x.yardOff st b).bind (x.pageAt st)

/-- The yard scrub reads a line with an error (R430): cleared, re-fetched, poisoned or recorded by its kind. -/
def Side.scrubLine (x : Side) (line byte : Nat) : Side :=
  match x.bankOwner (line / 131072) with
  | none => (x.yardFound 0 0 line byte true).modMem fun m => { m with yard := m.yard.invalidate (64 * line) 64 }
  | some st =>
    match x.mirrorOf line with
    | some _ => (x.yardFound 1 st line byte true).modMem fun m => { m with refetch := m.refetch.add line }
    | none => match x.pageOfByte st (64 * line) with
      | some p => (x.yardFound 2 st line byte true).poisonPage st p
      | none => x.yardFound (if x.served st then 4 else 3) st line byte true

/-- A patrol scrub has rewritten line k of a page in QUARANTINE with zero: the page is FREE when all its lines are rewritten
(R438, R439). DEDUCED, note 71. -/
def Side.scrubbedLine (x : Side) (st p k : Nat) : Side :=
  let x := x.modStl st fun s => if s.scrubbed.contains (p, k) then s else { s with scrubbed := (p, k) :: s.scrubbed }
  if ((x.stl st).scrubbed.filter fun e => e.1 == p).length < ceilDiv (x.pgStride st) 64 then x
  else (x.modStl st fun s => { s with scrubbed := s.scrubbed.filter fun e => e.1 != p }).putPword st p 0

/-- A line of a page in QUARANTINE is zeroed (R438). DEDUCED, note 71. -/
def Side.scrubQuarantine (x : Side) (st line : Nat) : Side :=
  match x.yardOff st (64 * line) with
  | none => x
  | some o => match x.pageAt st o with
    | none => x
    | some p =>
      if x.pstate st p != 5 then x
      else (x.physPut 1 0 (64 * line) (List.replicate 64 0)).scrubbedLine st p
        ((o - (x.tierBase st 0 + pageIx p * x.pgStride st)) / 64)

/-- The yard scrub reads a line. -/
def Side.yardScrub (line : Nat) (flips : List Nat) (x : Side) : Side :=
  let bank := line / 131072
  let x := (x.upset .yard (flips.filter fun b => b / 64 == line)).setField Reg.YARD_STAT 12 8 bank
  let x := match x.me.mem.yard.bad.find? fun b => b / 64 == line && x.me.mem.yard.valid.contains line with
    | some b => x.scrubLine line (b % 64)
    | none => x
  let x := match x.bankOwner bank with
    | some st => x.scrubQuarantine st line
    | none => x
  let top := ((List.range 32).filter fun b => (x.bankOwner b).isSome).foldl max 0
  if line = top * 131072 + 131071 then x.count Ct.YARD_SCRUB_PASSES else x

/-- YARD_PATROL_SCRUB (R437, R438, R440, R441): the scrub reads one line of a held bank that is not being zeroed; `flips`
are the bytes of the line that an upset has changed. The pass ends with the last line of the last held bank. -/
def execYardPatrolScrub (n : Now) (d : Ch) (line : Nat) (flips : List Nat) (s : State) : Host.Outcome State Fault Refusal :=
  onLive n d (fun x =>
    let bank := line / 131072
    if !x.flag Reg.YARD_CTRL 0 || 32 ≤ bank || x.me.mem.zeroing.contains bank then x
    else x.yardScrub line flips) s

/-- The stall and the loft page that hold a loft byte: stall, page, first byte of the page. -/
def Side.loftPageAt (x : Side) (a : Nat) : Option (Nat × Nat × Nat) :=
  (List.range 8).findSome? fun st =>
    let base := (x.loftWin st).1 + x.tierBase st 1
    let n := x.pgStride st
    if x.psq st != 0 && n != 0 && decide (base ≤ a) && decide (a < base + x.tierPages st 1 * n) then
      some (st, pageNo 1 ((a - base) / n), base + (a - base) / n * n)
    else none

/-- The loft scrub reads a block: a context page in which it finds an uncorrectable one is POISON (R284); a block of a page
in QUARANTINE is rewritten with zero (R439). -/
def Side.loftScrub (block : Nat) (link : Bool) (x : Side) : Side :=
  let known := x.me.mem.poison.contains block
  let x := (if link then x.linkErr true block else x).blockRead true block
  let x := match x.loftPageAt (64 * block) with
    | some (st, p, a) =>
      if x.pstate st p = 5 then (x.loftPut (64 * block) (List.replicate 64 0)).scrubbedLine st p ((64 * block - a) / 64)
      else if !known && x.me.mem.poison.contains block then x.poisonPage st p
      else x
    | none => x
  if block + 1 = x.rdN Reg.LOFT_CAP * 32768 then x.count Ct.LOFT_SCRUB_PASSES else x

/-- LOFT_PATROL_SCRUB (R433, R434, R439, R441): the scrub reads one block, under the inline code. The pass ends with the last usable block. -/
def execLoftPatrolScrub (n : Now) (d : Ch) (block : Nat) (e : LoftErr) (s : State) :
    Host.Outcome State Fault Refusal :=
  onLive n d (fun x =>
    let x := e.flips.foldl Side.flipDram x
    if !x.flag Reg.LOFT_CTRL 0 || !x.inline then x
    else x.loftScrub block (e.link.contains block)) s

/-! ## Bands -/

/-- The band in force changes (R444). DEDUCED, note 50. -/
def Side.setBand (x : Side) (b : Nat) : Side :=
  let x := (x.setField Reg.LOFT_STAT 3 2 b).wrN Reg.LOFT_DERATE (deliverable x.inline b)
  ((x.modMem fun m => { m with bandLow := none }).count Ct.LOFT_BAND_CHANGES).raise Ev.LOFT_BAND

/-- The loft packages ask for a band: a higher one is taken at once, a lower one after 1 s. -/
def Side.bandPolled (band : Fin 5) (x : Side) : Side :=
  let high := band.val == 4
  let x := x.setFlag Reg.LOFT_STAT 6 high
  let x := if high then x.raise Ev.LOFT_TEMP_HIGH else x
  let b := min 3 band.val
  let now := x.field Reg.LOFT_STAT 3 2
  if now < b then x.setBand b
  else if b = now then x.modMem fun m => { m with bandLow := none }
  else
    match x.me.mem.bandLow with
    | none => x.modMem fun m => { m with bandLow := some (x.mt, b) }
    | some (t, k) =>
      if t + 1000000000 ≤ x.mt then x.setBand (max k b) else x.modMem fun m => { m with bandLow := some (t, max k b) }

/-- The band that the warmest package requests (R419). -/
def Mr4.band (r : Mr4) : Fin 5 := max (max r.p0 r.p1) (max r.p2 r.p3)

/-- MR4_POLL (R419, R444, R445): the refresh-rate fields of the four packages are read; no answer of any changes nothing.
DESIGN CHOICE, note 167. -/
def execMr4Poll (n : Now) (d : Ch) (fields : Mr4) (s : State) : Host.Outcome State Fault Refusal :=
  onLive n d (fun x =>
    if Mr4.band fields = 0 then x else x.bandPolled (Mr4.band fields)) s

/-- DQS_TRACKING (R418): the pause of one x16 channel leaves nothing behind. -/
def execDqsTracking (n : Now) (d : Ch) (_x16 : Fin 16) (s : State) : Host.Outcome State Fault Refusal :=
  onLive n d id s

end Sys2Proof.Machine
end

