-- ==== Sys2Proof/Machine/Activate.lean ====
section
/-!
DEFINITION. What an admission gives a stall and a removal takes from it (R294, R302, R306, R309), how a plan takes effect
and replaces another (R218, R303, R308, R314, R428), and what a frame start does to the stalls (R314 to R316).
-/

namespace Sys2Proof.Machine

/-! ## Plan images (R381 to R383) -/

/-- Word k of a structure of the loft. -/
def Side.lword (x : Side) (a k : Nat) : Word := word (x.loftWord (a + 4 * k))

/-- The plan-table entry of slot k and engine e of the plan image at a loft address. -/
def Side.entryAtPlan (x : Side) (base k e : Nat) : Word × Word :=
  let a := base + 128 + (k * 8 + e) * 8
  (word (x.loftWord a), word (x.loftWord (a + 4)))

/-- SLOTS and ENGINE_MASK of a plan header. -/
def Side.planSlots (x : Side) (base : Nat) : Nat := fld (x.lword base 3) 10 0
def Side.planMask (x : Side) (base : Nat) : Nat := fld (x.lword base 3) 23 16

/-- The LIST entries of a plan: slot, engine, BEND, byte offset of the list. -/
def Side.planLists (x : Side) (base : Nat) : List (Nat × Nat × Nat × Nat) :=
  (List.range (x.planSlots base)).flatMap fun k => (List.range 8).filterMap fun e =>
    let w := x.entryAtPlan base k e
    if fld w.1 1 0 = 1 then some (k, e, fld w.1 12 2, w.2.toNat * 128) else none

/-- The step programs of a plan: byte offsets. -/
def Side.planProgs (x : Side) (base : Nat) : List Nat :=
  (List.range 8).filterMap fun k => let w := (x.lword base (8 + k)).toNat; if w = 0 then none else some (w * 128)

/-- DESC_COUNT of the list or program at an offset of a plan, and the offsets of its descriptors. -/
def Side.listCount (x : Side) (base off : Nat) : Nat := fld (x.lword (base + off) 0) 31 16
def Side.listDescs (x : Side) (base off : Nat) : List Nat := (List.range (x.listCount base off)).map fun k => off + 64 + 64 * k

/-! ## Pages -/

/-- A page is assigned to a stall and locked (R306, R869). -/
def Side.takePage (x : Side) (t i st inst : Nat) : Side :=
  (x.setField (headReg t i Reg.OWNER) 12 4 (st + 8 + 256 * inst)).setFlag (headReg t i Reg.LOCK) 0 true

/-- A page leaves its stall: its LOCK clears (R872). -/
def Side.leavePage (x : Side) (t i : Nat) : Side :=
  (x.setField (headReg t i Reg.OWNER) 12 4 0).setFlag (headReg t i Reg.LOCK) 0 false

/-- The virtual function that a stall is mapped to, 0 for none (R870). -/
def Side.stallFn (x : Side) (st : Nat) : Nat := ((List.range 17).find? fun f => f != 0 && x.mappedStall f == some st).getD 0

/-- Members of a mask of n bits. -/
def members (n m : Nat) : List Nat := (List.range n).filter m.testBit

/-! ## Taking -/

/-- The paging registers of a stall (R222 to R231). -/
def Side.putPaging (x : Side) (st : Nat) (p : PageCfg) : Side :=
  let x := (x.wrN (Reg.BSQ_PAGE_STRIDE.inst st) p.stride).wr (Reg.BSQ_PAGE_GEOM.inst st) p.geom
  let x := (x.wr (Reg.BSQ_ROPE_CFG.inst st) p.rope).wrN (Reg.BSQ_ROPE_FREQ.inst st) p.ropeFreq
  let x := (x.wrN (Reg.BSQ_YARD_PBASE.inst st) p.yardBase).wrN (Reg.BSQ_YARD_PAGES.inst st) p.yardPages
  let x := (x.wr64 (Reg.BSQ_LOFT_PBASE.inst st) p.loftBase).wrN (Reg.BSQ_LOFT_PAGES.inst st) p.loftPages
  let x := (x.wr64 (Reg.BSQ_SHED_PBASE.inst st) p.shedBase).wrN (Reg.BSQ_SHED_PAGES.inst st) p.shedPages
  let x := (x.wrN (Reg.BSQ_ATTN_PAGES.inst st) p.attnPages).wr64 (Reg.BSQ_SEQ_TABLE.inst st) p.seqTable
  (List.range 8).foldl (fun y k => y.wrN ((Reg.BSQ_BUCKET.inst st).el 4 k) (p.buckets.getD k 0)) x

/-- The resource registers of a stall (R294, R300). -/
def Side.putResources (x : Side) (q : AdmitReq) : Side :=
  let st := q.stall.val
  let x := (x.setFlag (Reg.PSQ_STAT.inst st) 3 q.served).wr (Reg.PSQ_CFG.inst st) (pack [(0, nat1 q.served), (1, nat1 q.duplex)])
  let x := (x.wrN (Reg.PSQ_ENGINES.inst st) (q.engines % 256)).wrN (Reg.PSQ_YARD_BANKS.inst st) (q.banks % 2 ^ 32)
  let x := x.wr (Reg.PSQ_LOFT_RGN.inst st) (pack [(0, q.loftBase % 65536), (16, q.loftUnits % 65536)])
  let x := (x.wr (Reg.PSQ_EXPORT.inst st) q.export_).wr (Reg.PSQ_IMPORT.inst st) (q.import_ &&& 0xF#32)
  let x := (x.wr64 (Reg.PSQ_SHED_BASE.inst st) q.shedBase).wr64 (Reg.PSQ_SHED_SIZE.inst st) q.shedSize
  let x := x.wr64 (Reg.PSQ_PLAN_BASE.inst st) q.planBase
  match q.paging with
  | some p => x.putPaging st p
  | none => x

/-- An engine joins a stall; of a fixed stall, its decode faults drive the FAULT pin (R732, R741). -/
def Side.takeEngine (x : Side) (st inst : Nat) (served : Bool) (e : Nat) : Side :=
  let x := (x.setField (Reg.TE_STAT.inst e) 7 4 (st + 8)).takePage T.TE e st inst
  let x := x.setFlag (headReg T.TE e Reg.EVT_PIN) Ev.TE_DESC_FAULT.bit (!served)
  x.setFlag (headReg T.TE e Reg.EVT_ROUTE) 9 (!served)

/-- A page DMA unit joins a stall (R238). -/
def Side.takePdma (x : Side) (st inst u : Nat) : Side :=
  (x.setField (Reg.PDMA_STAT.inst u) 7 4 (st + 8)).takePage T.PDMA u st inst

/-- The bridles of a stall take the plan's values (R450). -/
def Side.takeBridles (x : Side) (st inst : Nat) (l : List BridleCfg) : Side :=
  (l.foldl (fun y c => (y.putBridle c).takePage T.BRDL c.inst st inst) x.accrueAll).updBridles

/-- Entry k of the mirror table (R404). -/
def Side.putMirror (x : Side) (st k : Nat) (m : MirrorCfg) : Side :=
  let x := x.wr ((Reg.YARD_MIR_LINE : Reg).el 0x10 k) (pack [(0, m.line % 131072), (17, m.bank % 32), (22, st), (31, 1)])
  (x.wrN ((Reg.YARD_MIR_SRC : Reg).el 0x10 k) (m.src % 2 ^ 30)).wrN ((Reg.YARD_MIR_LEN : Reg).el 0x10 k) (m.lines % 2 ^ 18)

/-- Mirror entry k belongs to a stall. -/
def Side.mirrorOwned (x : Side) (st k : Nat) : Bool :=
  x.flag ((Reg.YARD_MIR_LINE : Reg).el 0x10 k) 31 && x.field ((Reg.YARD_MIR_LINE : Reg).el 0x10 k) 24 22 == st

/-- The mirror entries that are free. -/
def Side.freeMirrors (x : Side) : List Nat := (List.range 32).filter fun k => !x.flag ((Reg.YARD_MIR_LINE : Reg).el 0x10 k) 31

/-- Every resource of a configuration is the stall's (R306). -/
def Side.takeAll (x : Side) (q : AdmitReq) : Side :=
  let st := q.stall.val
  let inst := x.stallFn st
  let x := ((x.putResources q).takePage T.PSQ st st inst).takePage T.BSQ st st inst
  let x := (members 8 q.engines).foldl (fun y e => y.takeEngine st inst q.served e) x
  let x := (members 4 q.pdmas).foldl (fun y u => y.takePdma st inst u) x
  x.takeBridles st inst q.bridles

/-! ## Giving up -/

/-- The yard bytes of a range of banks are lost: no line is valid (R424). -/
def Side.dropBanks (x : Side) (b n : Nat) : Side :=
  x.modMem fun m => { m with
    yardSeen := m.yardSeen.delRange (b * bankBytes) (n * bankBytes)
    yardFixed := m.yardFixed.filter fun e => decide (e.1 < b * 131072) || decide ((b + n) * 131072 ≤ e.1)
    yard := {
      cells := m.yard.cells.zero (b * bankBytes) (n * bankBytes)
      valid := m.yard.valid.delRange (b * 131072) (n * 131072)
      bad := m.yard.bad.delRange (b * bankBytes) (n * bankBytes) } }

/-- An engine leaves its stall: its tile buffer and accumulators hold nothing (R112). -/
def Side.leaveEngine (x : Side) (e : Nat) : Side :=
  let x := { x with me := { x.me with tiles := x.me.tiles.drop e, accs := x.me.accs.filter fun b => b.1 / 8 != e } }
  let x := (x.modEng e fun s => { s with run := none, next := none, kv := [], tags := [] }).setField (Reg.TE_STAT.inst e) 7 4 0
  let x := (x.setFlag (headReg T.TE e Reg.EVT_PIN) Ev.TE_DESC_FAULT.bit false).setFlag (headReg T.TE e Reg.EVT_ROUTE) 9 false
  x.leavePage T.TE e

/-- A page DMA unit leaves its stall. -/
def Side.leavePdma (x : Side) (u : Nat) : Side :=
  (x.setField (Reg.PDMA_STAT.inst u) 7 4 0).leavePage T.PDMA u

/-- Bridles leave G (R472). -/
def Side.leaveBridles (x : Side) (l : List Nat) : Side :=
  (l.foldl (fun y b => (y.clearBridle b).leavePage T.BRDL b) x.accrueAll).updBridles

/-- The units of [b, b+n) outside [b', b'+n'). -/
def rangeMinus (b n b' n' : Nat) : List (Nat × Nat) :=
  let lo := min (b + n) b'
  let hi := max b (b' + n')
  if b' + n' ≤ b || b + n ≤ b' || n' = 0 then (if n = 0 then [] else [(b, n)])
  else (if b < lo then [(b, lo - b)] else []) ++ if hi < b + n then [(hi, b + n - hi)] else []

/-- What one configuration names and another does not is released (R302): engines, banks, page DMA units, bridles, loft
units that the general DMA then zeroes. -/
def Side.release (x : Side) (q : AdmitReq) (keepE keepB keepP : Nat) (keepR : List Nat) (b' n' : Nat) : Side :=
  let x := ((members 8 q.engines).filter fun e => !keepE.testBit e).foldl Side.leaveEngine x
  let x := ((members 32 q.banks).filter fun b => !keepB.testBit b).foldl (fun y b => y.dropBanks b 1) x
  let x := ((members 4 q.pdmas).filter fun u => !keepP.testBit u).foldl Side.leavePdma x
  let x := x.modMem fun m => { m with gdmaZero := m.gdmaZero ++ rangeMinus q.loftBase q.loftUnits b' n' }
  x.leaveBridles ((q.bridles.map (·.inst)).filter fun b => !keepR.contains b)

/-- The mirrors of a stall end, but for some entries. -/
def Side.dropMirrors (x : Side) (st : Nat) (keep : List Nat) : Side :=
  ((List.range 32).filter fun k => x.mirrorOwned st k && !keep.contains k).foldl (fun y k =>
    (((y.wr ((Reg.YARD_MIR_LINE : Reg).el 0x10 k) 0).wr ((Reg.YARD_MIR_SRC : Reg).el 0x10 k) 0).wr
      ((Reg.YARD_MIR_LEN : Reg).el 0x10 k) 0).modMem fun m => { m with mirrorPending := m.mirrorPending.del k }) x

/-- The PSQ and BSQ pages of a stall that is EMPTY name no resource and no plan; ADMIT_RESULT stays. DEDUCED, note 77. -/
def Side.blankStall (x : Side) (st : Nat) : Side :=
  let x := x.wr (Reg.PSQ_STAT.inst st) (x.rd (Reg.PSQ_STAT.inst st) &&& 0xFF00#32)
  let x := (List.range 15).foldl (fun y k => y.wr (Reg.PSQ_CFG.inst st + 4 * k) 0) x
  let x := (List.range 12).foldl (fun y k => y.wr (Reg.BSQ_PAGE_STRIDE.inst st + 4 * k) 0) x
  let x := (List.range 10).foldl (fun y k => y.wr (Reg.BSQ_SEQ_TABLE.inst st + 4 * k) 0) x
  (((x.wr (Reg.BSQ_STAT.inst st) 0).wr (Reg.BSQ_ATTN_PAGES.inst st) 0x40).leavePage T.PSQ st).leavePage T.BSQ st

/-- The sequences of a stall that `sel` picks complete with a status. -/
def Side.cutStallSeqs (x : Side) (st status : Nat) (sel : Nat → Bool) : Side :=
  ((x.seqsIn st [1, 2, 3, 4, 5]).filter sel).foldl (fun x i => x.cutSeq st i status) x

/-- A stall gives everything up and enters EMPTY (R302, R309). -/
def Side.emptyStall (x : Side) (st : Nat) : Side :=
  let x := match (x.stl st).cfg with
    | some q => x.release q 0 0 0 [] 0 0
    | none => x
  (((x.dropMirrors st []).clearSb st).blankStall st).modStl st fun _ => StallSt.zero

/-! ## Taking effect -/

/-- INIT_ENTRY into ENTRY and NEXT of the header at an address, RELAX_CNT zero (R218). A header in a sealed region is not
written. DEDUCED, note 78. -/
def Side.resetLadder (x : Side) (st e a : Nat) : Side :=
  let h := x.hdr st e a
  if spaceOf a ≤ 2 && x.winOk st a 128 true && fld (hw h 0) 7 0 == 1 then
    let i := fld (hw h 7) 5 3
    x.putHdr st e a (h.set 7 (setFld (setFld (setFld (hw h 7) 8 6 i) 11 9 i) 27 20 0))
  else x

/-- The headers that a descriptor names. DEDUCED, note 78. -/
def Side.resetDesc (x : Side) (st e : Nat) (d : Desc) : Side :=
  let x := if d.takesA then x.resetLadder st e d.aA else x
  let x := if d.hasB && d.op != 10 then x.resetLadder st e d.aB else x
  if d.hasOut then x.resetLadder st e d.aO else x

/-- The ladder state of every tensor of a stall's plan (R218). -/
def Side.resetLadders (x : Side) (st : Nat) : Side :=
  let base := x.planBase st
  let runs := (x.planLists base).map (fun (l : Nat × Nat × Nat × Nat) => (l.2.1, l.2.2.2))
    ++ (x.planProgs base).map fun o => (((x.engines st).head?).getD 0, o)
  runs.foldl (fun y r => (y.listDescs base r.2).foldl (fun z o => z.resetDesc st r.1 (z.descAt st o)) y) x

/-! ## What the driver may write (R218, R642) -/

/-- The loft address of the word that holds ENTRY, NEXT and RELAX_CNT, for each header in the loft that a stall's plan
names. -/
def Side.ladderWords (x : Side) (st : Nat) : List Nat :=
  let base := x.planBase st
  let offs := (x.planLists base).map (fun (l : Nat × Nat × Nat × Nat) => l.2.2.2) ++ x.planProgs base
  (offs.flatMap (x.listDescs base)).flatMap fun o =>
    let d := x.descAt st o
    (((if d.takesA then [d.aA] else []) ++ (if d.hasB && d.op != 10 then [d.aB] else []) ++ if d.hasOut then [d.aO] else []).filter
      fun a => spaceOf a == 2 && x.winOk st a 128 false).map fun a => x.loftPhys st a + 28

/-- Bytes of the driver reach the loft; the ladder state of the tensors of admitted plans stays as it is (R218).
DEDUCED, note 78. -/
def Side.driverPut (x : Side) (a : Nat) (l : List Byte) : Side :=
  let ws := ((List.range 8).filter fun st => x.psq st != 0).flatMap x.ladderWords
  (ws.filter fun w => decide (w < a + l.length) && decide (a < w + 4)).foldl (fun y w =>
    let old := word (x.loftWord w)
    let new := word (y.loftWord w)
    y.loftPut w (wordBytes ((new &&& 0xF00FF03F#32) ||| (old &&& 0x0FF00FC0#32)))) (x.loftWrite a l)

/-- The stall for which the master of a bridle writes the loft, with its code in PSQ_WF_INFO (R298). -/
def Side.stallOfPort (x : Side) (b : Nat) : Option (Nat × Nat) :=
  if b < 8 then (if x.flag (Reg.TE_STAT.inst b) 7 then some (x.field (Reg.TE_STAT.inst b) 6 4, b) else none) else none

/-- A master's loft write reaches the controller: one into a sealed region is not performed (R420), and is a window fault of
the engine's stall (R298); the driver and the control processors leave the ladder state of admitted plans as it is
(R218). DESIGN CHOICE, note 152. -/
def Side.portWrite (x : Side) (b a : Nat) (l : List Byte) : Side :=
  if x.inSeal a l.length then
    match x.stallOfPort b with
    | some (st, m) => x.windowFault st m (loftAddr (a - (x.loftWin st).1)) true
    | none => x
  else if 18 ≤ b then x.driverPut a l
  else x.loftWrite a l

/-- The oldest outstanding request of a bridle has its data or has been written. -/
def Side.loftDone (b : Fin 20) (link : List Nat) (r : MemReq) (t : Nat) (rest : List (MemReq × Nat)) (x : Side) : Side :=
  let x := x.modBridle b fun s => { s with out := rest, busy := false }
  let near := link.filter fun k => decide (r.addr / 64 ≤ k) && decide (64 * k < r.addr + r.len)
  let x := near.foldl (fun x k => x.linkErr false k) x
  let x := match r.write with
    | some l => x.portWrite b r.addr (l.take r.len)
    | none => (x.loftMeet r.addr r.len).1
  ((x.latency b (x.mt - t)).arbitrate).showPort b

/-- LOFT_REQUEST_COMPLETE (R410, R414 to R416, R433 to R436, R459, R460): the oldest outstanding request of the bridle that
the arbiter serves. DEDUCED,
note 130. DESIGN CHOICE, notes 130, 131. -/
def execLoftRequestComplete (n : Now) (d : Ch) (b : Fin 20) (e : LoftErr) (s : State) :
    Host.Outcome State Fault Refusal :=
  onLive n d (fun x =>
    let x := e.flips.foldl Side.flipDram x
    match (x.bridle b).out with
    | [] => x
    | (r, t) :: rest => if (x.bridle b).busy then Side.loftDone b e.link r t rest x else x) s

/-- A write of the driver comes to bridle 18 (R447, R642). Until the first CHAN_CFG gives the bridle a RATE it lets every
request of the driver through, for an image is read from the loft before that. DESIGN CHOICE, note 152. -/
def Side.hostWrite (x : Side) (a : Nat) (l : List Byte) : Side :=
  let r : MemReq := ⟨true, a, l.length, some l⟩
  if x.brRate 18 = 0 then (x.passBridle 18 r).driverPut a l
  else x.through 18 r fun y => y.driverPut a l

/-- APERTURE_WRITE (R642 to R645): dropped when poisoned or failing ECRC, outside the window or in a sealed region. -/
def execApertureWrite (n : Now) (d : Ch) (fn : Fin 17) (off : Nat) (bytes : List Byte) (ep ecrcOk : Bool) (s : State) :
    Host.Outcome State Fault Refusal :=
  onAny n d (fun x =>
    if !x.hostReach then x
    else if ep then x.apertureError fn 2 true off Ct.IOV_POISONED
    else if !ecrcOk then x.apertureError fn 3 true off Ct.IOV_POISONED
    else if !x.live || x.winSize fn < off + bytes.length || x.sealed (x.winBase fn + off) bytes.length then
      x.apertureError fn 1 true off Ct.IOV_OUT_OF_WINDOW
    else x.hostWrite (x.winBase fn + off) bytes) s

/-- The digest of the sealed plan of a stall (R788). -/
def Side.planDigest (x : Side) (st : Nat) : List Word :=
  match x.me.hbx.seals.find? fun e => e.kind == 3 && e.base + 512 == x.planBase st with
  | some e => (e.digest ++ List.replicate 12 0).take 12
  | none => List.replicate 12 0

/-- The plan of a stall is in force from this frame on: PSQ_PLAN_ID, PSQ_FROM_FRAME, its record (R848). -/
def Side.showPlan (x : Side) (st : Nat) : Side :=
  let id := x.lword (x.planBase st) 1
  let f := x.rd64 Reg.CAD_FRAME
  let x := (x.wr (Reg.PSQ_PLAN_ID.inst st) id).wrN (Reg.PSQ_FROM_FRAME.inst st) (f % 2 ^ 32)
  x.record 0x06 st ([word st, id] ++ words64 f ++ x.planDigest st)

/-- The batch sequencer of a served stall that begins to run (R335, R336, R345). -/
def Side.startBsq (x : Side) (st : Nat) : Side := x.setField (Reg.BSQ_STAT.inst st) 2 0 (x.serveState st)

/-- Every loft unit of a stall is zeroed, and every mirror of it filled (R428). -/
def Side.storeReady (x : Side) (st : Nat) : Bool :=
  let b := x.field (Reg.PSQ_LOFT_RGN.inst st) 15 0
  let n := x.field (Reg.PSQ_LOFT_RGN.inst st) 31 16
  (x.me.mem.wipe.all fun r => decide (r.1 + r.2 ≤ b) || decide (b + n ≤ r.1))
    && !(x.me.mem.mirrorPending.any fun k => x.mirrorOwned st k)

/-- A stall has configuration q, whose activation frame has come. -/
def Side.planDue (x : Side) (q : Option AdmitReq) : Bool := q.any fun c => decide (c.fAct ≤ x.rd64 Reg.CAD_FRAME)

/-- ARMED becomes RUNNING at slot 0 of the activation frame; in SAFE the stall is HALTED (R314, R733). DEDUCED, note 28. -/
def Side.activate (x : Side) (st : Nat) : Side :=
  if !(x.planDue (x.stl st).cfg && x.storeReady st) then x
  else
    let x := x.showPlan st
    if x.safeState = 2 then
      let x := (x.setField (Reg.PSQ_STAT.inst st) 2 0 4).setField (Reg.PSQ_STAT.inst st) 18 16 2
      (if x.served st then x.setField (Reg.BSQ_STAT.inst st) 2 0 4 else x).raise Ev.PSQ_HALT st
    else
      let x := x.setField (Reg.PSQ_STAT.inst st) 2 0 2
      if x.served st then x.startBsq st else x

/-- The mirror entries that a configuration names. -/
def Side.mirrorsOf (x : Side) (q : AdmitReq) : List Nat :=
  (List.range 32).filter fun k =>
    let w := x.rd ((Reg.YARD_MIR_LINE : Reg).el 0x10 k)
    q.mirrors.any fun m => m.bank == fld w 21 17 && m.line == fld w 16 0
      && m.lines == x.field ((Reg.YARD_MIR_LEN : Reg).el 0x10 k) 17 0 && m.src == x.field ((Reg.YARD_MIR_SRC : Reg).el 0x10 k) 29 0

/-- A replacement takes effect (R308): sequences, pages and ladder state are not carried over; what only the old plan
named is released. DEDUCED, note 76. -/
def Side.switchPlan (x : Side) (st : Nat) : Side :=
  match (x.stl st).cfg, (x.stl st).repl with
  | some old, some q =>
    let x := if x.served st then x.cutStallSeqs st 6 fun _ => true else x
    let x := x.release old q.engines q.banks q.pdmas (q.bridles.map (·.inst)) q.loftBase q.loftUnits
    let x := ((x.dropMirrors st (x.mirrorsOf q)).takeAll q).modStl st fun s => { StallSt.zero with cfg := some q, submits := s.submits, winFrame := s.winFrame }
    let x := ((x.clearSb st).resetLadders st).setFlag (Reg.PSQ_STAT.inst st) 4 false
    let x := if x.served st then x.updBsq st else x
    ((x.showPlan st).count Ct.PSQ_PLAN_SWITCHES st).raise Ev.PSQ_PLAN_SWITCH st
  | _, _ => x

/-- A replacement that is due switches, unless a step of the old plan still runs (R308). -/
def Side.switchIfDue (x : Side) (st : Nat) : Side :=
  if x.planDue (x.stl st).repl && (x.stl st).step.isNone && (x.psq st == 2 || x.psq st == 4) then x.switchPlan st else x

/-- BLK_CTRL.QUIESCE of a stall's PSQ page. -/
def Side.psqQuiesce (x : Side) (st : Nat) : Bool := x.flag (headReg T.PSQ st Reg.BLK_CTRL) 1

/-- What a frame boundary does to a fixed stall: QUIESCE, its end, the end of a DRAINING frame (R309, R316). In safe state a
stall whose QUIESCE has ended stays HALTED, now by safe state (R314). -/
def Side.stallEdge (x : Side) (st : Nat) : Side :=
  if x.served st then x
  else if x.psq st = 2 && x.psqQuiesce st then
    ((x.setField (Reg.PSQ_STAT.inst st) 2 0 4).setField (Reg.PSQ_STAT.inst st) 18 16 3).raise Ev.PSQ_HALT st
  else if x.psq st = 4 && x.field (Reg.PSQ_STAT.inst st) 18 16 == 3 && !x.psqQuiesce st then
    if x.safeState = 2 || x.safeState = 3 then x.setField (Reg.PSQ_STAT.inst st) 18 16 2
    else (x.setField (Reg.PSQ_STAT.inst st) 2 0 2).setField (Reg.PSQ_STAT.inst st) 18 16 0
  else if x.psq st = 3 then x.modStl st fun s => { s with drained := true }
  else x

/-- What the start of a frame does to one stall (R308, R314 to R316). -/
def Side.stallFrame (x : Side) (st : Nat) : Side :=
  let x := ((if x.psq st = 1 then x.activate st else x).switchIfDue st).stallEdge st
  if x.psq st = 2 then x.count Ct.PSQ_FRAMES_RUN st else x

/-- The same for all. -/
def Side.stallFrames (x : Side) : Side := (List.range 8).foldl Side.stallFrame x

/-! ## The end of a removal, and the zeroing of its units -/

/-- The current frame or step of a DRAINING stall has completed (R309). -/
def Side.drainOver (x : Side) (st : Nat) : Bool :=
  if x.served st then (x.stl st).step.isNone else (x.stl st).drained || x.cadSrc == 0

/-- The engines of a stall stop what they still run. -/
def Side.stopStall (x : Side) (st : Nat) : Side :=
  (x.engines st).foldl (fun y e => if (y.eng e).run.isSome then (if x.served st then y.dropRun e else y.stopList e) else y) x

/-- A removed stall becomes EMPTY (R309, R741): sequences still in the table complete ABORTED, or PARITY_POISON when a fenced
unit removed it; the command of the removal completes. DEDUCED, note 77. -/
def Side.drainEnd (st : Nat) (x : Side) : Side :=
  let who := (x.stl st).remover
  let x := x.stopStall st
  let x := if x.served st then x.cutStallSeqs st (if who.isSome then 6 else 4) fun _ => true else x
  let x := (x.dropSwap st).emptyStall st
  match who with
  | none => x
  | some (f, ring, id) =>
    match x.accepted f ring id with
    | some c => x.complete f c 0
    | none => x

/-- STALL_DRAIN_END (R309, R741): the removal that a command asked for is FP-PLAN's to commit (R310). -/
def execStallDrainEnd (n : Now) (d : Ch) (st : Fin 8) (s : State) : Host.Outcome State Fault Refusal :=
  onLive n d (fun x =>
    if x.psq st != 3 || !x.drainOver st || ((x.stl st).remover.isSome && !x.pairUp 1) then x else x.drainEnd st) s

/-- The general DMA has zeroed one unit of a removed stall. DEDUCED, note 79. -/
def Side.gdmaZeroed (u k : Nat) (t : List (Nat × Nat)) (x : Side) : Side :=
  let x := ((x.accrue 12).pay 12 true 8192 0x200000).zeroLoft (u * 0x200000) 0x200000
  let x := x.modMem fun m => { m with gdmaZero := if k ≤ 1 then t else (u + 1, k - 1) :: t }
  (x.count ⟨T.GDMA, 1, 0xFFFFFFFF⟩ 0).countBy ⟨T.GDMA, 0, 0xFFFFFFFF⟩ 0 32768

/-- GDMA_UNIT_ZEROED (R302): the next unit of a removed stall is zeroed, when the general DMA has a share. -/
def execGdmaUnitZeroed (n : Now) (d : Ch) (s : State) : Host.Outcome State Fault Refusal :=
  onLive n d (fun x =>
    match x.me.mem.gdmaZero with
    | [] => x
    | (u, k) :: t =>
      if x.brRate 12 = 0 then x
      else x.gdmaZeroed u k t) s

end Sys2Proof.Machine
end

