-- ==== Sys2Proof/Machine/Companion.lean ====
section
/-!
DEFINITION. The commands of the companion bus (R607 to R633).
-/

namespace Sys2Proof.Machine

/-- A write is accepted, posted, held or refused (R614, R620, R626). -/
def Side.nearWrite (x : Side) (i off : Nat) (bytes : List Byte) : Side :=
  match (if x.cbbOn then x.winAt off bytes.length else none) with
  | none => x.noWindow i
  | some w =>
    if x.winRefuses w i off bytes.length true then x.noWindow i
    else if x.semBlocks (x.cbbWin Reg.CBB_WIN_FAR w 29 28) i then x.cbbRetry i
    else if x.cbbWin Reg.CBB_WIN_CFG w 5 5 = 1 then
      x.modCbb fun b => { b with queue := b.queue ++ [x.cbbReq .open_ w i off bytes.length bytes] }
    else if x.me.cbb.posted < 16 then
      (x.modCbb fun b => { b with queue := b.queue ++ [x.cbbReq .posted w i off bytes.length bytes] }).emit (.nearDone i [])
    else
      (x.count Ct.CBB_WQ_FULL).modCbb fun b => { b with held := b.held ++ [x.cbbReq .posted w i off bytes.length bytes] }

/-- A read or atomic takes a read buffer and is retried (R621). -/
def Side.allocate (x : Side) (r : CbbReq) : Side :=
  match x.me.cbb.freeBuf with
  | none => x.cbbRetry r.init
  | some k =>
    (x.modCbb fun b => { b with
      queue := b.queue ++ [{ r with buf := some k }]
      bufs := b.bufs.put k { init := r.init, off := r.off, len := r.len, fill := none }
      sem := if r.sem && !b.sem.any (fun e => e.1 == r.cs) then b.sem.put r.cs (r.init, x.mt) else b.sem }).cbbRetry r.init

/-- A read is refused or retried (R614, R621, R626). -/
def Side.nearRead (x : Side) (i off len : Nat) : Side :=
  match (if x.cbbOn then x.winAt off len else none) with
  | none => x.noWindow i
  | some w =>
    if x.winRefuses w i off len false then x.noWindow i
    else if x.semBlocks (x.cbbWin Reg.CBB_WIN_FAR w 29 28) i then x.cbbRetry i
    else x.allocate (x.cbbReq .read w i off len [])

/-- An atomic on a naturally aligned word, under the LOCK mode of its window (R624, R625). -/
def Side.nearAtomic (x : Side) (i : Fin 6) (off : Nat) (op : AtomicOp) : Side :=
  match (if x.cbbOn then x.winAt off 4 else none) with
  | none => x.noWindow i
  | some w =>
    let mode := x.cbbWin Reg.CBB_WIN_CFG w 4 3
    if x.winRefuses w i off 4 true || off % 4 != 0 then x.noWindow i
    else if mode = 0 || mode = 3 then (x.count Ct.CBB_ATOMIC_REFUSED).emit (.nearError i)
    else if x.semBlocks (x.cbbWin Reg.CBB_WIN_FAR w 29 28) i then x.cbbRetry i
    else
      let r := x.cbbReq (.atomic op) w i off 4 []
      x.allocate { r with cblock := mode == 1, sem := mode == 2 && x.me.cbb.holder r.cs != some i.val }

/-- A reissued request (R622): a filled buffer that matches in initiator, address and size delivers its data or its
error and is freed; one still to be filled is retried; a request that has none is taken as R621 says. -/
def Side.nearReissue (x : Side) (i off len : Nat) : Side :=
  let mine := x.me.cbb.bufs.filter fun e => e.2.init == i && e.2.off == off && e.2.len == len
  match mine.findSome? fun e => e.2.fill.map fun f => (e.1, f) with
  | some (k, data, err, _) =>
    let x := x.modCbb fun c => { c with bufs := c.bufs.drop k }
    if err then (x.emit (.nearDone i (List.replicate len 0))).emit (.nearError i) else x.emit (.nearDone i data)
  | none => if mine.isEmpty then x.nearRead i off len else x.cbbRetry i

/-- The bridge takes a request. -/
def Side.takeNear (x : Side) (q : NearReq) : Side :=
  match q.op with
  | .write bytes => x.nearWrite q.init q.off bytes
  | .read len => x.nearRead q.init q.off len
  | .atomic op => x.nearAtomic q.init q.off op
  | .reissue len => x.nearReissue q.init q.off len

/-- A request of channel d is added to those of its cycle, one of the other channel is passed over. -/
def mineOr (d e : Ch) (q : NearReq) (l : List NearReq) : List NearReq := if e = d then q :: l else l

/-- The requests that reach a channel's bridge with the first of a queue: the near requests at its front, of either
channel, as long as no time passes on this die. DEDUCED, note 129. -/
def sameCycle (d : Ch) : List Instr → List NearReq
  | .cbbNearWrite n e i off bytes :: t => if n.on d = 0 then mineOr d e ⟨i, off, .write bytes⟩ (sameCycle d t) else []
  | .cbbNearRead n e i off len :: t => if n.on d = 0 then mineOr d e ⟨i, off, .read len⟩ (sameCycle d t) else []
  | .cbbAtomic n e i off op :: t => if n.on d = 0 then mineOr d e ⟨i, off, .atomic op⟩ (sameCycle d t) else []
  | .cbbReadReissue n e i off len :: t => if n.on d = 0 then mineOr d e ⟨i, off, .reissue len⟩ (sameCycle d t) else []
  | _ => []

/-- The requests of a list in ascending initiator number, those of one initiator in their order. -/
def byInit (l : List NearReq) : List NearReq := (List.range 6).flatMap fun i => l.filter fun q => q.init.val == i

/-- The requests that were taken before their turn. -/
def Side.setEarly (x : Side) (l : List NearReq) : Side :=
  { x with me := { x.me with cbb := { x.me.cbb with early := l } } }

/-- A request reaches the bridge (R628): those of lower initiators that come in the same fabric cycle are taken before
it, and it is not taken again when it was taken so. `now` says that no time has passed before it, `with_` are the
requests queued behind it in its cycle. DEDUCED, note 129. -/
def Side.nearTurn (x : Side) (now : Bool) (with_ : List NearReq) (q : NearReq) : Side :=
  let early := if now then x.me.cbb.early else []
  if early.contains q then x.setEarly (early.erase q)
  else
    let first := (with_.filter fun r => decide (r.init.val < q.init.val)).filter fun r => !early.contains r
    let x := (byInit first).foldl Side.takeNear (x.setEarly (early ++ first))
    x.takeNear q

/-- CBB_NEAR_WRITE (R620, R628). -/
def execCbbNearWrite (n : Now) (d : Ch) (i : Fin 6) (off : Nat) (bytes : List Byte) (s : State) :
    Host.Outcome State Fault Refusal :=
  onLive n d (fun x => x.nearTurn (n.on d == 0) (sameCycle d s.pending) ⟨i, off, .write bytes⟩) s

/-- CBB_NEAR_READ (R621, R628). -/
def execCbbNearRead (n : Now) (d : Ch) (i : Fin 6) (off len : Nat) (s : State) : Host.Outcome State Fault Refusal :=
  onLive n d (fun x => x.nearTurn (n.on d == 0) (sameCycle d s.pending) ⟨i, off, .read len⟩) s

/-- CBB_ATOMIC (R624, R625, R628). -/
def execCbbAtomic (n : Now) (d : Ch) (i : Fin 6) (off : Nat) (op : AtomicOp) (s : State) :
    Host.Outcome State Fault Refusal :=
  onLive n d (fun x => x.nearTurn (n.on d == 0) (sameCycle d s.pending) ⟨i, off, .atomic op⟩) s

/-- CBB_READ_REISSUE (R622, R628). -/
def execCbbReadReissue (n : Now) (d : Ch) (i : Fin 6) (off len : Nat) (s : State) : Host.Outcome State Fault Refusal :=
  onLive n d (fun x => x.nearTurn (n.on d == 0) (sameCycle d s.pending) ⟨i, off, .reissue len⟩) s

/-- CBCLK_x cycles in time: n bus cycles have passed in t ns when 5 × DIV × n ≤ 6 × t (R608). -/
def Side.busCycles (x : Side) (n t : Nat) : Bool := decide (5 * clampN 12 48 (x.field Reg.CBB_CTRL 13 8) * n ≤ 6 * t)

/-- Field [hi:lo] of the timing of chip select c. -/
def Side.csTiming (x : Side) (c hi lo : Nat) : Nat := x.field ((Reg.CBB_CS_TIMING : Reg).el 4 c) hi lo

/-- TURN idle cycles have passed after a cycle of another chip select or direction (R619). -/
def Side.farIdle (x : Side) (r : CbbReq) : Bool :=
  match x.me.cbb.last with
  | some (c, w, t) => if c = r.cs && w = r.writes then true else x.busCycles (x.csTiming r.cs 9 8) (x.mt - t)
  | none => true

/-- The data lanes of a request's next word cycle. -/
def CbbReq.cycleData (r : CbbReq) : Word :=
  match r.kind with
  | .atomic _ => toLanes r.cycleLanes r.data
  | _ => toLanes r.cycleLanes (r.data.drop r.pos)

/-- CBB_FAR_CYCLE_START (R609, R619): the head request's next word cycle. -/
def execCbbFarCycleStart (n : Now) (d : Ch) (s : State) : Host.Outcome State Fault Refusal :=
  onLive n d (fun x =>
    match x.me.cbb.queue, x.me.cbb.cycle with
    | r :: _, none =>
      if !x.farIdle r || !x.pageOn Reg.CBB_CTRL then x else
      (x.modCbb fun b => { b with cycle := some x.mt }).emit
        (.farCycle r.cs ((r.far + r.pos) / 4 * 4) r.cycleLanes (if r.writes then some r.cycleData else none) r.cblock)
    | _, _ => x) s

/-- The last cycle of a request has ended: a read buffer is filled, a write completes. DEDUCED, note 112. -/
def Side.farDone (x : Side) (r : CbbReq) (data : List Byte) : Side :=
  let x := if r.sem && x.me.cbb.holder r.cs == some r.init then x.modCbb fun b => { b with sem := b.sem.drop r.cs } else x
  let x := x.cbbPop
  match r.kind with
  | .posted => x
  | .open_ => if r.err then x.emit (.nearError r.init) else x.emit (.nearDone r.init [])
  | _ => match r.buf with
    | some k =>
      let b : CbbBuf := { init := r.init, off := r.off, len := r.len, fill := some (data, r.err, x.mt) }
      x.modCbb fun c => { c with bufs := c.bufs.put k b }
    | none => x

/-- A far cycle ends with the data sampled, or with an error of a cause; data sampled with an error is discarded (R611).
The remaining word cycles of the access follow; an atomic whose read met an error makes no write. -/
def Side.farCycleEnd (x : Side) (r : CbbReq) (data : Word) (cause : Nat) : Side :=
  let w := r.writes
  let x := x.modCbb fun b => { b with cycle := none, last := some (r.cs, w, x.mt) }
  let x := x.count (if w then Ct.CBB_FAR_WRITES else Ct.CBB_FAR_READS)
  let x := if cause = 0 then x else x.farError r cause
  let r := { r with err := r.err || cause != 0 }
  match r.kind with
  | .atomic op =>
    if r.second then x.farDone r r.got
    else
      let got := fromLanes data r.cycleLanes
      match (if r.err then none else atomicResult op (word (bytesNat got))) with
      | some v => x.modCbb fun b => { b with queue := { r with got := got, data := wordBytes v, second := true } :: b.queue.tail }
      | none => x.farDone r got
  | _ =>
    let got := r.got ++ (if w then [] else fromLanes data r.cycleLanes)
    let r' := { r with pos := r.pos + r.step, got := got }
    if r'.pos < r.len then x.modCbb fun b => { b with queue := r' :: b.queue.tail } else x.farDone r' got

/-- Bus cycles of a word cycle whose far side inserts `waits` (R609). -/
def Side.farLength (x : Side) (r : CbbReq) (waits : Nat) : Nat :=
  1 + x.csTiming r.cs 1 0 + x.csTiming r.cs 5 2 + (if x.csTiming r.cs 10 10 = 1 then waits else 0) + 1 + x.csTiming r.cs 7 6

/-- Bus cycles after which a cycle ends with an error of cause TIMEOUT (R610). -/
def Side.farLimit (x : Side) : Nat := clampN 16 65535 (x.field Reg.CBB_TIMEOUT 15 0)

/-- CBB_FAR_CYCLE_END (R609, R611): after 1 + SETUP + WAIT + w + 1 + HOLD bus cycles, fewer than CBB_TIMEOUT.
DEDUCED, note 112. -/
def execCbbFarCycleEnd (n : Now) (d : Ch) (waits : Nat) (data : Word) (err : Bool) (s : State) :
    Host.Outcome State Fault Refusal :=
  onLive n d (fun x =>
    match x.me.cbb.queue, x.me.cbb.cycle with
    | r :: _, some t =>
      if x.farLength r waits < x.farLimit && x.busCycles (x.farLength r waits) (x.mt - t) then x.farCycleEnd r data (if err then 2 else 0) else x
    | _, _ => x) s

/-- CBB_CYCLE_TIMEOUT (R610). -/
def execCbbCycleTimeout (n : Now) (d : Ch) (s : State) : Host.Outcome State Fault Refusal :=
  onLive n d (fun x =>
    match x.me.cbb.queue, x.me.cbb.cycle with
    | r :: _, some t =>
      if x.busCycles x.farLimit (x.mt - t) then x.farCycleEnd r 0 1 else x
    | _, _ => x) s

/-- What a read buffer holds: data, error, MT. -/
def Side.bufFill (x : Side) (buf : Nat) : Option (List Byte × Bool × Nat) :=
  (x.me.cbb.bufs.find? (fun e => e.1 == buf)).bind fun e => e.2.fill

/-- A request of a list claims read buffer `buf`. -/
def Side.nearClaims (x : Side) (buf : Nat) (l : List NearReq) : Bool :=
  x.me.cbb.bufs.any fun e => e.1 == buf &&
    l.any fun q => q.init.val == e.2.init && q.off == e.2.off && q.op == .reissue e.2.len

/-- CBB_RB_EXPIRY (R623): a claim that comes in the same cycle is served. DEDUCED, note 129. -/
def execCbbRbExpiry (n : Now) (d : Ch) (buf : Fin 8) (s : State) : Host.Outcome State Fault Refusal :=
  onLive n d (fun x =>
    match x.bufFill buf with
    | some (_, _, t) =>
      if t + clampN 1 1000 (x.field Reg.CBB_RB_HOLD 9 0) * 1000 ≤ x.mt && !x.nearClaims buf (sameCycle d s.pending) then
        ((x.modCbb fun c => { c with bufs := c.bufs.drop buf }).count Ct.CBB_RB_EXPIRED).raise Ev.CBB_RB_EXPIRED
      else x
    | none => x) s

/-- A read of CBB_SEM_c by an initiator (R626): GRANTED, and the semaphore's, which it takes when it is free. -/
def Side.semTake (x : Side) (i c : Nat) : Bool × Side :=
  match x.me.cbb.holder c with
  | none => (true, x.modCbb fun b => { b with sem := b.sem.put c (i, x.mt) })
  | some h => (h == i, x)

/-- The word of CBB_SEM_c: GRANTED, the holder, HELD. DEDUCED, note 112. -/
def Side.semWord (x : Side) (c : Nat) (granted : Bool) : Word :=
  pack [(0, nat1 granted), (1, (x.me.cbb.holder c).getD 0), (4, nat1 (x.me.cbb.holder c).isSome)]

/-- CBB_SEM_READ (R626): grants a semaphore that is free or already the reader's. -/
def execCbbSemRead (n : Now) (d : Ch) (i : Fin 6) (c : Fin 4) (s : State) : Host.Outcome State Fault Refusal :=
  onLive n d (fun x =>
    if !x.pageOn Reg.CBB_SEM then x.emit (.semRead i c false) else
    let r := x.semTake i c
    r.2.emit (.semRead i c r.1)) s

/-- CBB_SEM_RELEASE (R626): a write of 1 by the holder. -/
def execCbbSemRelease (n : Now) (d : Ch) (i : Fin 6) (c : Fin 4) (v : Word) (s : State) :
    Host.Outcome State Fault Refusal :=
  onLive n d (fun x =>
    if x.pageOn Reg.CBB_SEM && bit v 0 && x.me.cbb.holder c == some i.val then
      x.modCbb fun b => { b with sem := b.sem.drop c }
    else x) s

/-- The holder of a semaphore, and MT of its taking. -/
def Side.semTaken (x : Side) (c : Nat) : Option (Nat × Nat) := (x.me.cbb.sem.find? fun e => e.1 == c).map (·.2)

/-- Holder h of semaphore c releases it in the cycle of the command before: its release stands at the front of the queue,
among those of other semaphores, with no time of the die between them. DEDUCED, note 129. -/
def semReleases (d : Ch) (c h : Nat) : List Instr → Bool
  | .cbbSemRelease n e i k v :: t =>
    n.on d == 0 && ((e == d && k.val == c && i.val == h && bit v 0) || semReleases d c h t)
  | _ => false

/-- CBB_SEM_FORCED (R627): the holder's own release in the same cycle stands. -/
def execCbbSemForced (n : Now) (d : Ch) (c : Fin 4) (s : State) : Host.Outcome State Fault Refusal :=
  onLive n d (fun x =>
    match x.semTaken c with
    | some (h, t) =>
      if t + clampN 1 1000 (x.field Reg.CBB_SEM_MAX 9 0) * 1000 ≤ x.mt && !semReleases d c h s.pending then
        ((x.modCbb fun b => { b with sem := b.sem.drop c }).count Ct.CBB_SEM_FORCED).raise Ev.CBB_SEM_FORCED
      else x
    | none => x) s

/-- Two enabled windows overlap, or some window's far range leaves 2^28 (R615). -/
def Side.windowsBad (x : Side) : Bool :=
  let near := fun w => x.cbbWin Reg.CBB_WIN_NEAR w 11 0
  let size := fun w => x.cbbWin Reg.CBB_WIN_NEAR w 24 12
  (List.range 16).any fun w =>
    decide (4096 < x.cbbWin Reg.CBB_WIN_FAR w 27 16 + size w)
      || (List.range w).any fun v => x.winOn w && x.winOn v && decide (near w < near v + size v) && decide (near v < near w + size w)

/-- The place of a window register. -/
def windowReg (win : Nat) : WindowReg → Reg
  | .near => (Reg.CBB_WIN_NEAR : Reg).el 0x10 win
  | .far => (Reg.CBB_WIN_FAR : Reg).el 0x10 win
  | .cfg => (Reg.CBB_WIN_CFG : Reg).el 0x10 win

/-- CBB_WINDOW_WRITE (R615): applied, or ignored with its event. -/
def execCbbWindowWrite (n : Now) (d : Ch) (w : Init) (win : Fin 16) (r : WindowReg) (v : Word) (s : State) :
    Host.Outcome State Fault Refusal :=
  onLive n d (fun x => x.access w (windowReg win r) fun x =>
    let y := x.store (windowReg win r) (if r = .far then v &&& 0x3FFF0000#32 else v)
    if y.windowsBad then x.raise Ev.CBB_CFG_ERR else y) s

end Sys2Proof.Machine
end

