-- ==== Sys2Proof/Machine/Fusion.lean ====
section
/-!
DEFINITION. Fusion: cut-offs (R510 to R514), the projection (R515 to R524), the track stage (R525 to R527), the swap of
configuration banks (R478 to R485, R520) and FUS_CTRL.
-/

namespace Sys2Proof.Machine

/-! ## Cut-offs and launches, at a slot start -/

/-- pose(t) from a ring of records (R504). -/
def Side.pose (x : Side) (l : List PoseRec) (t : Int) : Option (Rig × Bool) := poseAt l (min 20000000 (x.rdN Reg.FUS_POSE_EXTRAP)) t

/-- A sample of sensor s is eligible for instant m (R512, R513), its T_END before the cut-off `cut`. -/
def Side.sampleEligible (x : Side) (m s : Nat) (cut : Int) (a : Sample) : Bool :=
  a.s == s && a.complete && !a.discarded && !a.unaligned && !a.fault && !(a.gone && x.kind s == 1)
    && decide ((a.tend : Int) < cut) && decide ((x.target m - a.ts).natAbs ≤ (x.sw s 3).toNat)
    && (x.pose x.me.fus.pose a.ts).isSome

/-- The sample nearest a time, the older on a tie; the list is newest first. -/
def nearest (t : Int) : List Sample → Option Sample
  | [] => none
  | a :: l =>
    match nearest t l with
    | some b => if (t - a.ts).natAbs < (t - b.ts).natAbs then some a else some b
    | none => some a

/-- The reason why an expected sensor does not contribute to instant m (R514), of those that samples show. -/
def Side.reasonOf (x : Side) (m s : Nat) : Nat :=
  let own := x.me.fus.samples.filter fun a => a.s == s
  let mine := own.filter fun a => a.instant == m
  if mine.head?.any (·.fault) then 3
  else if (nearest (x.target m) own).any fun a => (x.pose x.me.fus.pose a.ts).isNone then 4
  else if mine.head?.any fun a => !a.complete then 5
  else if mine.any (·.late) then 6
  else 7

/-- The cut-off of sensor s in the running frame (R512): a sample is selected, and the FOLDED ones it overtakes are
SUPERSEDED. -/
def Side.cutOff (x : Side) (s : Nat) : Side :=
  let m := x.rd64 Reg.CAD_FRAME
  if !(x.sen s).aligned then x.modSen s fun c => { c with reason := 2 }
  else
    match nearest (x.target m) (x.me.fus.samples.filter (x.sampleEligible m s (x.cut m s))) with
    | none => x.modSen s fun c => { c with reason := x.reasonOf m s }
    | some a =>
      let x := (x.modSen s fun c => { c with reason := 0 }).modFus fun u => { u with chosen := u.chosen.put s a.k }
      let x := x.reflag s a.k fun b => { b with selected := true }
      (x.me.fus.samples.filter fun b => b.s == s && b.folded && !b.selected && !b.superseded && decide (b.k < a.k)).foldl
        (fun y b => (y.reflag s b.k fun b => { b with superseded := true }).count Ct.FUS_SUPERSEDED) x

/-- T_tgt and the pose at it, for a stage that starts now. -/
def Side.newStage (x : Side) : Stage :=
  let n := x.rd64 Reg.CAD_FRAME
  let t := x.target n
  { n := n, tgt := t.toNat, pose := (x.pose x.me.fus.pose t).isSome, contrib := [], faults := [], ring := x.me.fus.pose }

/-- The projection launch (R505, R515): the samples selected at this instant's cut-offs contribute. -/
def Side.projLaunch (x : Side) : Side :=
  let g := x.newStage
  let x := x.count Ct.FUS_INSTANTS
  let x := (x.setFlag Reg.FUS_STAT 2 true).setFlag Reg.FUS_STAT 4 g.pose
  let ss := (List.range 32).filter fun s => x.kind s != 0 && x.kind s != 2 && x.expected s
  let x := ss.foldl (fun y s =>
    let c := y.sen s
    let chosen := y.me.fus.chosen.any fun c => c.1 == s
    if c.reason = 2 || (!chosen && c.reason == 0 && !c.aligned) then y.modSen s fun c => { c with reason := 2 }
    else if !g.pose then y.modSen s fun c => { c with reason := 4 }
    else if chosen then y
    else y.modSen s fun c => { c with reason := y.reasonOf g.n s }) x
  let contrib := if g.pose then x.me.fus.chosen.filter fun c => ss.contains c.1 && (x.sen c.1).reason == 0 else []
  let x := x.modFus fun u => { u with proj := some { g with contrib := contrib }, chosen := [] }
  if g.pose then x else (x.count Ct.FUS_NO_POSE_INSTANTS).raise Ev.FUS_NO_POSE

/-- What fusion does at the start of slot k (R99, R510, R515, R525). -/
def Side.fusSlot (x : Side) (k : Nat) : Side :=
  if !x.fusOn then x else
  let x := ((List.range 32).filter fun s => (x.kind s == 1 || x.kind s == 3) && x.expected s && x.sf s 0 26 17 == k).foldl
    Side.cutOff x
  let x := if x.pf 0 20 10 = k then x.projLaunch else x
  if bit (x.pw 1) 21 && x.pf 1 9 0 == k then
    (x.modFus fun u => { u with trk := some x.newStage }).setFlag Reg.FUS_STAT 3 true
  else x

/-- An accepted bank takes effect at a frame boundary (R478). -/
def Side.fusFrameStart (x : Side) : Side :=
  if x.me.fus.swap then
    ((x.setFlag Reg.FUS_STAT 0 !(x.flag Reg.FUS_STAT 0)).setFlag Reg.FUS_STAT 1 false).modFus fun u => { u with swap := false }
  else x

/-! ## The projection (R516 to R519) -/

/-- A contributing camera with what its feature map and its distortion grid say. -/
structure Cam where
  s : Nat
  ts : Int
  inv : Rig
  feat : Nat
  h : Hdr
  grid : Nat

/-- A feature map meets R517. -/
def Side.featOk (x : Side) (h : Hdr) : Bool :=
  fld (hw h 0) 7 0 == 1 && hLayout h == 0 && hC h == x.pf 3 28 20 && (hFmt h == 0 || hFmt h == 5)

/-- Lines of a position. -/
def lineCount (fmt c : Nat) : Nat := ceilDiv (c * (if fmt = 5 then 2 else 1)) 128

/-- A real feature value (R197, R217). -/
def Side.feature (x : Side) (m : Cam) (c xx yy : Nat) : Fv :=
  let at_ := m.feat + 128 + (yy * hW m.h + xx) * lineCount (hFmt m.h) (hC m.h) * 128
  if hFmt m.h = 5 then decodeFmt 5 (bytesNat (x.spGet x.fusStall 0 (at_ + 2 * c) 2))
  else
    let q := signed 8 (bytesNat (x.spGet x.fusStall 0 (at_ + c) 1))
    let z := signed 8 (hByte m.h 10 (hEntry m.h))
    ((fp32Of (hw m.h 9)).mulExact (.num 1 (hEntry m.h : Int))).mul (Fv.ofInt (q - z))

/-- Between two values. -/
def Fv.lerp (a b f : Fv) : Fv := (a.mul (Fv.one.sub f)).add (b.mul f)

/-- Bilinear over four taps. -/
def bilinear (v00 v10 v01 v11 fx fy : Fv) : Fv := (v00.lerp v10 fx).lerp (v01.lerp v11 fx) fy

/-- A tap index clamped to a size. -/
def tap (i : Int) (n : Nat) : Nat := (clampI 0 ((n : Int) - 1) i).toNat

/-- Feature value c at a position, taps clamped. -/
def Side.sampleFeature (x : Side) (m : Cam) (u v : Fv) (c : Nat) : Fv :=
  let ix := u.floor
  let iy := v.floor
  let f := fun (i j : Int) => x.feature m c (tap (ix + i) (hW m.h)) (tap (iy + j) (hH m.h))
  bilinear (f 0 0) (f 1 0) (f 0 1) (f 1 1) (u.sub (Fv.ofInt ix)) (v.sub (Fv.ofInt iy))

/-- Pixel coordinates of a ray by distortion grid g (R484, R516), none where the lens does not image it. -/
def Side.distort (x : Side) (g : Nat) (a b : Fv) : Option (Fv × Fv) :=
  let w := fun k => fp32Of (x.bankWord (x.bankAddr false + g) k)
  if !((w 0).le a && a.le (w 1) && (w 2).le b && b.le (w 3)) then none else
  let px := ((a.sub (w 0)).mul (Fv.ofInt 63)).div ((w 1).sub (w 0))
  let py := ((b.sub (w 2)).mul (Fv.ofInt 47)).div ((w 3).sub (w 2))
  let node := fun (i j : Int) (k : Nat) => w (32 + 2 * (64 * tap (py.floor + j) 48 + tap (px.floor + i) 64) + k)
  let fx := px.sub (Fv.ofInt px.floor)
  let fy := py.sub (Fv.ofInt py.floor)
  let v := fun k => bilinear (node 0 0 k) (node 1 0 k) (node 0 1 k) (node 1 1 k) fx fy
  if (List.range 2).any fun k => (node 0 0 k == .nan) || (node 1 0 k == .nan) || (node 0 1 k == .nan) || (node 1 1 k == .nan) then none
  else some (v 0, v 1)

/-- Where camera m sees point p at the row time that its shutter gives (R516), with whether a pose that it used was
extrapolated (R523). -/
def Side.seen (x : Side) (g : Stage) (m : Cam) (p : V3) : Nat → Int → Option (Fv × Fv) × Bool
  | 0, _ => (none, false)
  | n + 1, t =>
    match x.pose g.ring t, x.pose g.ring g.tgt with
    | some (pt, ext), some (pg, _) =>
      let q := ((m.inv.comp pt.inv).comp pg).map p
      let hit := if (fp32Of 0x3DCCCCCD).lt q.z then x.distort m.grid (q.x.div q.z) (q.y.div q.z) else none
      let hit := hit.filter fun uv => Fv.zero.le uv.1 && uv.1.lt (Fv.ofInt (x.sf m.s 10 13 0)) && Fv.zero.le uv.2
        && uv.2.lt (Fv.ofInt (x.sf m.s 10 27 14))
      if n = 0 then (hit, ext)
      else
        let r := x.seen g m p n (hit.elim t fun uv => m.ts + uv.2.floor * (x.sf m.s 7 23 8 : Nat))
        (r.1, ext || r.2)
    | _, _ => (none, false)

/-- The cameras that see a point, in sensor order, at most `left` (R516), with whether a pose used was extrapolated. -/
def Side.views (x : Side) (g : Stage) (p : V3) : List Cam → Nat → List (Cam × Fv × Fv) × Bool
  | [], _ => ([], false)
  | m :: l, left =>
    if left = 0 then ([], false)
    else
      let h := x.seen g m p (if x.sf m.s 7 23 8 = 0 then 1 else 2) m.ts
      let r := x.views g p l (if h.1.isSome then left - 1 else left)
      (h.1.toList.map (fun uv => (m, uv)) ++ r.1, h.2 || r.2)

/-- The values of cell (i, j) (R516), with whether a pose used was extrapolated. -/
def Side.cell (x : Side) (g : Stage) (cams : List Cam) (i j : Nat) : List Fv × Bool :=
  let at_ := fun (w k : Nat) => (fp32Of (x.pw w)).add ((Fv.ofInt k).mul (fp32Of (x.pw 4)))
  let seen := (List.range (x.pf 7 3 0)).map fun h =>
    x.views g ⟨at_ 5 i, at_ 6 j, fp32Of (x.pw (8 + h))⟩ cams (x.pf 7 6 4)
  let hits := seen.flatMap (·.1)
  let vals := (List.range (x.pf 3 28 20)).map fun c =>
    let sum := hits.foldl (fun a v =>
      let st := fp32Of (x.sw v.1.s 16)
      a.add (x.sampleFeature v.1 ((v.2.1.div st).sub Fv.half) ((v.2.2.div st).sub Fv.half) c)) Fv.zero
    if hits.isEmpty then Fv.zero else sum.div (Fv.ofInt hits.length)
  (vals, seen.any (·.2))

/-- The bytes of a grid position (R518), filled with pad channels (R171). -/
def gridLine (bf : Bool) (s : Fv) (l : List Fv) : List Byte :=
  let b := l.flatMap fun v =>
    if bf then natBytes 2 (convFloat 5 v).1 else natBytes 1 (clampI (-128) 127 (v.div s).toInt % 256).toNat
  b ++ List.replicate (ceilDiv b.length 128 * 128 - b.length) 0

/-- The flags of the stamp block (R523). DEDUCED, note 96. -/
def stampFlags (object extrap folded excluded noPose aid : Bool) : List (Nat × Nat) :=
  [(8, nat1 object), (9, nat1 extrap), (10, nat1 folded), (11, nat1 excluded), (12, nat1 noPose), (13, nat1 aid)]

/-- Write a stamp block (R522): into memory and to the recorder. -/
def Side.putStamp (x : Side) (unit at_ : Nat) (w : List Word) : Side :=
  (x.fusPut unit at_ (wordsBytes (w ++ List.replicate (32 - w.length) 0))).1.record 0x03 x.fusStall (w.take 16)

/-- The stamp block of a projection (R522 to R524); `rows`: a pose at a row time was extrapolated. -/
def Side.projStamp (x : Side) (g : Stage) (rows : Bool) : List Word :=
  let ss := g.contrib.filterMap fun c => x.me.fus.samples.find? fun a => a.s == c.1 && a.k == c.2
  let mask := fun (p : Sample → Bool) => ((ss.filter p).map fun a => 2 ^ a.s).sum
  let src := (List.range 32).filter fun s => x.kind s == 2 && x.expected s && g.pose
  let contrib := mask (fun _ => true) + (src.map (2 ^ ·)).sum
  let far := mask fun a => decide ((x.sw a.s 4).toNat < ((g.tgt : Int) - a.ts).natAbs)
  let folded := mask (·.folded)
  let used := g.tgt :: (ss.map fun a => a.ts.toNat)
  let ext := rows || (g.pose && used.any fun t => (x.pose g.ring t).any (·.2))
  let stale := x.flag Reg.FUS_STAT 5
  let newest := (g.ring.head?.map (·.t)).filter fun _ => g.pose
  let times := (ss.map (·.ts)) ++ newest.toList
  let old := if contrib = 0 then g.tgt else (times.foldl min (times.headD g.tgt)).toNat
  let reason := fun s => if !x.expected s then 1 else if x.kind s = 2 then (if g.pose then 0 else 4) else (x.sen s).reason
  [pack ((0, 1) :: stampFlags false (far != 0 || ext || stale) (folded != 0) (x.expectMask &&& contrib != x.expectMask)
      (!g.pose) stale), word g.n] ++ words64 g.tgt ++ words64 old
    ++ [word contrib, word x.expectMask, word folded, word far]
    ++ (List.range 4).map (fun k => pack ((List.range 8).map fun j => (4 * j, if x.kind (8 * k + j) = 0 then 1 else reason (8 * k + j))))
    ++ [x.bankWord (x.bankAddr false) 1, 0]

/-- A stage has begun its budget's end: the slot has started, or the frame is over. -/
def Side.stageOver (x : Side) (g : Stage) (bend : Nat) : Bool :=
  x.rd64 Reg.CAD_FRAME != g.n || decide (bend < x.me.cad.slot)

/-- End a projection: its stamp block, its scoreboard bit and what the page shows (R521, R522). -/
def Side.projEnd (x : Side) (g : Stage) (rows taint : Bool) : Side :=
  let w := x.projStamp g rows
  let x := (x.putStamp 1 (x.pAddr 19) w).signal x.fusStall (x.pf 2 3 0) (2 ^ x.pf 2 7 4) taint
  let x := (x.wr Reg.FUS_LAST_CONTRIB (w.getD 6 0)).wrN Reg.FUS_LAST_INSTANT (g.n % 2 ^ 32)
  (x.setFlag Reg.FUS_STAT 2 false).modFus fun u => { u with proj := none, stamp := w }

/-- The header of the grid (R518). -/
def Side.gridHdr (x : Side) (g : Stage) (flags : Nat) : Hdr :=
  let bf := x.pf 3 29 29 = 1
  let c := x.pf 3 28 20
  let h := x.pf 3 19 10
  let w := x.pf 3 9 0
  orFlags (hdrWords (if bf then 5 else 0) 0 h w c (h * w * lineCount (if bf then 5 else 0) c * 128)
    (if bf then 0x3F800000 else x.pw 16) 0 (if bf then 0 else 0x80) (if bf then 0 else 0x7F) g.n) flags

/-- The motion matrices (R519). -/
def Side.motion (x : Side) (g : Stage) : List Word :=
  (List.range 32).flatMap fun s =>
    match g.contrib.find? fun c => c.1 == s with
    | some c => match x.me.fus.samples.find? fun a => a.s == s && a.k == c.2 with
      | some a => match x.pose g.ring g.tgt, x.pose g.ring a.ts with
        | some (pg, _), some (pt, _) => ((pg.inv.comp pt).comp (x.extrinsic s)).codes
        | _, _ => List.replicate 16 0
      | none => List.replicate 16 0
    | none => List.replicate 16 0

/-- The feature map of a contributing camera, or its exclusion with reason WINDOW (R476, R514, R517), with the flags of the
header that was read. DEDUCED, note 95. -/
def Side.openFeature (x : Side) (g : Stage) (c : Nat × Nat) : Side × Option Cam × Nat :=
  let at_ := x.sAddr c.1 14
  let out := fun (y : Side) => y.modSen c.1 fun t => { t with reason := 3 }
  if !x.fusOk at_ 128 false then (out (x.fusFault 1 at_ false), none, 0) else
  let h := x.hdr x.fusStall 0 at_
  if !x.featOk h then (out x, none, hFlags h)
  else if !x.fusOk at_ (128 + hBytes h) false then (out (x.fusFault 1 at_ false), none, hFlags h)
  else match x.me.fus.samples.find? fun a => a.s == c.1 && a.k == c.2 with
    | some a =>
      (x, some { s := c.1, ts := a.ts, inv := (x.extrinsic c.1).inv, feat := at_, h := h, grid := 6528 + 24704 * x.sf c.1 0 10 7 },
        hFlags h)
    | none => (x, none, hFlags h)

/-- The projector reads a camera's feature map, its header and its data, and meets what is wrong in it (R430, R434).
DEDUCED, note 95. -/
def Side.meetFeature (x : Side) (m : Option Cam) : Side × Bool :=
  match m with
  | some m => x.meetBy 16 x.fusStall 0 m.feat (128 + hBytes m.h)
  | none => (x, false)

/-- A projection runs and commits (R430, R505, R515 to R524). -/
def Side.projCommit (g : Stage) (x : Side) : Side :=
  let r := (g.contrib.filter fun c => x.kind c.1 == 1).foldl (fun (y : Side × List Cam × Nat) c =>
    let z := y.1.openFeature g c
    let m := z.1.meetFeature z.2.1
    (m.1, y.2.1 ++ z.2.1.toList, y.2.2 ||| z.2.2 ||| (if m.2 then fPar else 0))) (x, [], 0)
  let x := r.1
  let cams := r.2.1
  let g : Stage := { g with contrib := g.contrib.filter fun c => (x.sen c.1).reason == 0 }
  let bf := x.pf 3 29 29 = 1
  let at_ := x.pAddr 17
  let flags := r.2.2 ||| (if g.pose then 0 else fLate)
  let bytes := hBytes (x.gridHdr g 0)
  let ok := x.fusOk at_ (128 + bytes) true
  let x := if ok then x else x.fusFault 1 at_ true
  let cells := if ok && g.pose then
      (List.range (x.pf 3 19 10)).flatMap fun j => (List.range (x.pf 3 9 0)).flatMap fun i =>
        let v := x.cell g cams i j
        [(gridLine bf (fp32Of (x.pw 16)) v.1, v.2)]
    else []
  let x := if cells.isEmpty then x else x.spPutBy 16 x.fusStall 0 (at_ + 128) (cells.flatMap (·.1))
  let x := if x.fusOk at_ 128 true then
      x.putHdr x.fusStall 0 at_ (x.gridHdr g (flags ||| (if ok then 0 else fWin))) else x
  let x := (x.fusPut 1 (x.pAddr 21) (wordsBytes (x.motion g))).1
  x.projEnd g (cells.any (·.2)) false

/-- PROJECTION_COMMIT (R430, R505, R515 to R524): the grid, the motion matrices, the stamp block and the scoreboard bit. -/
def execProjectionCommit (n : Now) (d : Ch) (s : State) : Host.Outcome State Fault Refusal :=
  onLive n d (fun x =>
    match x.me.fus.proj with
    | none => x
    | some g => if x.stageOver g (x.pf 0 31 21) then x else x.projCommit g) s

/-- A projection stops (R515). -/
def Side.projStop (g : Stage) (x : Side) : Side :=
  let at_ := x.pAddr 17
  let x := if x.fusOk at_ 128 true then x.putHdr x.fusStall 0 at_ (x.gridHdr g fLate) else x.fusFault 1 at_ true
  ((x.projEnd g false true).count Ct.FUS_PROJ_LATE).raise Ev.FUS_PROJ_LATE

/-- PROJECTION_BUDGET_END (R515): a projection that has not committed by PROJ_BEND stops. -/
def execProjectionBudgetEnd (n : Now) (d : Ch) (s : State) : Host.Outcome State Fault Refusal :=
  onLive n d (fun x =>
    match x.me.fus.proj with
    | none => x
    | some g => if !x.stageOver g (x.pf 0 31 21) then x else x.projStop g) s

/-! ## The track stage (R525 to R527) -/

/-- One track carried to T_tgt (R526), with |Δt|; none when it is dropped. -/
def Side.carry (x : Side) (g : Stage) (w : List Word) : Option (List Word × Nat) :=
  let t : Nat := (w.getD 2 0).toNat + 2 ^ 32 * (w.getD 3 0).toNat
  let dt : Int := (g.tgt : Int) - t
  match x.pose g.ring t, x.pose g.ring g.tgt with
  | some (pt, _), some (pg, _) =>
    if (x.pw 33).toNat < dt.natAbs then none else
    let s := seconds dt
    let f := fun k => fp32Of (w.getD k 0)
    let m := pg.inv.comp pt
    let p := m.map ⟨(f 4).add ((f 6).mul s), (f 5).add ((f 7).mul s), .zero⟩
    let v := m.rot ⟨f 6, f 7, .zero⟩
    let yaw := (f 8).add ((f 9).mul s)
    let turn := fp32Of (Config.atan2 m.r1.x.code32 m.r0.x.code32)
    some (w.take 2 ++ words64 g.tgt ++ [p.x.code32, p.y.code32, v.x.code32, v.y.code32, (yaw.add turn).code32]
      ++ (w.drop 9).take 5 ++ [satI32 dt, 0], dt.natAbs)
  | _, _ => none

/-- The stamp block of the track stage (R527): flags copied from the grid's block of the same instant. -/
def Side.trkStamp (x : Side) (g : Stage) (out : List (List Word × Nat)) (ins : List (List Word)) : List Word :=
  let grid := if (x.me.fus.stamp.getD 1 0) = word g.n then x.me.fus.stamp.getD 0 0 else 0
  let contrib := (out.map fun o => (o.1.getD 13 0).toNat).foldl (· ||| ·) 0
  let times := ins.map fun w => (w.getD 2 0).toNat + 2 ^ 32 * (w.getD 3 0).toNat
  let old := times.foldl min (times.headD g.tgt)
  let far := out.any fun o => decide (x.me.cad.period < o.2)
  [pack ((0, 1) :: stampFlags true far (bit grid 10) (bit grid 11) (bit grid 12) (bit grid 13)), word g.n] ++ words64 g.tgt
    ++ words64 old ++ [word contrib, word x.expectMask, 0, 0, 0, 0, 0, 0, x.bankWord (x.bankAddr false) 1, word out.length]

/-- End the track stage. -/
def Side.trkEnd (x : Side) (w : List Word) (taint : Bool) : Side :=
  let x := (x.putStamp 2 (x.pAddr 31) w).signal x.fusStall (x.pf 2 11 8) (2 ^ x.pf 2 15 12) taint
  (x.setFlag Reg.FUS_STAT 3 false).modFus fun u => { u with trk := none }

/-- The output header of the track stage (R527): a PACKED FP32 tensor with ACT_LEN the count of its tracks. -/
def trkHdr (h : Hdr) (count flags : Nat) (step : Nat) : Hdr :=
  let o := hdrWords 7 1 1 (hW h) 16 (ceilDiv (hW h * 64) 128 * 128) (hw h 9) 0 0 0 step
  orFlags ((o.set 0 (setBit (hw o 0) 20 true)).set 4 (word count)) flags

/-- The header of a track list is what R525 says. -/
def trkHdrOk (h : Hdr) : Bool :=
  hFmt h == 7 && hLayout h == 1 && hH h == 1 && hC h == 16 && decide (1 ≤ hW h) && decide (hW h ≤ 256)

/-- The track list at TRK_IN_ADDR lies in the stall's windows (R476): its header and, where that is what R525 says, its data. -/
def Side.trkInWin (x : Side) : Bool :=
  let a := x.pAddr 27
  let h := x.hdr x.fusStall 0 a
  x.fusOk a 128 false && (!trkHdrOk h || x.fusOk a (128 + 64 * hW h) false)

/-- The track list may be read and is what R525 says. A list that is not has no track. -/
def Side.trkInOk (x : Side) : Bool := x.trkInWin && trkHdrOk (x.hdr x.fusStall 0 (x.pAddr 27))

/-- The track stage runs and commits (R430, R525 to R527). -/
def Side.trkCommit (g : Stage) (x : Side) : Side :=
  let a := x.pAddr 27
  let o := x.pAddr 29
  let inOk := x.trkInOk
  let inWin := x.trkInWin
  let m := if inOk then x.meetBy 16 x.fusStall 0 a (128 + 64 * hW (x.hdr x.fusStall 0 a))
    else if inWin then x.meetBy 16 x.fusStall 0 a 128 else (x.fusFault 2 a false, false)
  let x := m.1
  let h : Hdr := if inOk then x.hdr x.fusStall 0 a else []
  let cnt := if !inOk then 0 else if hActEn h then min (hAct h) (hW h) else hW h
  let ins := (List.range cnt).map fun k => bytesWords (x.spGet x.fusStall 0 (a + 128 + 64 * k) 64)
  let res := ins.map fun w => (w, x.carry g w)
  let out := res.filterMap (·.2)
  let kept := (res.filter fun r => r.2.isSome).map (·.1)
  let x := x.countN Ct.FUS_TRACKS_DROPPED 0 (cnt - out.length)
  let ok := x.fusOk o (128 + 64 * out.length) true
  let x := if ok then x.spPutBy 16 x.fusStall 0 (o + 128) (wordsBytes (out.flatMap (·.1))) else x.fusFault 2 o true
  let flags := (if inWin then hFlags (x.hdr x.fusStall 0 a) else fWin) ||| (if ok then 0 else fWin) ||| (if m.2 then fPar else 0)
  let x := if x.fusOk o 128 true then
      x.putHdr x.fusStall 0 o (trkHdr h (if ok then out.length else 0) flags (g.n % 2 ^ 32)) else x
  x.trkEnd (x.trkStamp g out kept) false

/-- TRACK_COMMIT (R430, R525 to R527). -/
def execTrackCommit (n : Now) (d : Ch) (s : State) : Host.Outcome State Fault Refusal :=
  onLive n d (fun x =>
    match x.me.fus.trk with
    | none => x
    | some g => if x.stageOver g (x.pf 1 20 10) then x else x.trkCommit g) s

/-- The track stage stops (R515, R527). -/
def Side.trkStop (g : Stage) (x : Side) : Side :=
  let o := x.pAddr 29
  let h : Hdr := if x.trkInOk then x.hdr x.fusStall 0 (x.pAddr 27) else []
  let x := if x.fusOk o 128 true then x.putHdr x.fusStall 0 o (trkHdr h 0 (fLate ||| hFlags h) (g.n % 2 ^ 32)) else x.fusFault 2 o true
  ((x.trkEnd (x.trkStamp g [] []) true).count Ct.FUS_TRK_LATE)

/-- TRACK_BUDGET_END (R515, R527): a track stage that has not committed by TRK_BEND stops. -/
def execTrackBudgetEnd (n : Now) (d : Ch) (s : State) : Host.Outcome State Fault Refusal :=
  onLive n d (fun x =>
    match x.me.fus.trk with
    | none => x
    | some g => if !x.stageOver g (x.pf 1 20 10) then x else x.trkStop g) s

/-! ## The swap of configuration banks (R478 to R485, R520) -/

/-- A finite FP32 value at a word, and its magnitude's comparison with a limit. -/
def finW (w : Word) : Bool := (fp32Of w).finite
def within (w : Word) (lim : Fv) : Bool := finW w && (fp32Of w).abs.le lim

/-- Positive and finite. -/
def posW (w : Word) : Bool := finW w && Fv.zero.lt (fp32Of w)

/-- The bits that a sensor entry's kind uses, by word (R481). -/
def entryMask (kind k : Nat) : Nat :=
  match kind, k with
  | 1, 0 => 0x07FE07FF
  | 1, 7 => 0xFFFFFF
  | 1, 9 => 0xFF
  | 1, 10 => 0x0FFFFFFF
  | 1, 11 => 0x3F
  | 1, 12 | 1, 13 => 0
  | 1, 15 => 0xFF
  | 2, 0 => 0x1F
  | 2, 1 => 0xFFFFFFFF
  | 2, 17 => 0x1FFFF
  | 3, 0 => 0x07FFF807
  | 3, 7 => 0xFF
  | 3, 9 => 0xFF
  | 3, 10 => 0xFFFFFF
  | 3, 11 => 0x3FFFF
  | 3, 13 => 0x3FFFF
  | 1, k => if k ≤ 16 then 0xFFFFFFFF else 0
  | 2, k => if 18 ≤ k ∧ k ≤ 25 then 0xFFFFFFFF else 0
  | 3, k => if k ≤ 12 then 0xFFFFFFFF else 0
  | _, _ => 0

/-- The bits that the projection configuration uses, by word (R485). -/
def projMask (k : Nat) : Nat :=
  match k with
  | 0 => 0xFFFFFFFF
  | 1 => 0x3FFFFF
  | 2 => 0xFFFF
  | 3 => 0x3FFFFFFF
  | 7 => 0x7F
  | 33 => 0xFFFFFFFF
  | k => if k ≤ 16 then 0xFFFFFFFF else if k ≤ 32 then (if k % 2 = 1 then 0xFFFFFFFF else 0xFF) else 0

/-- The bank not in force as the checks read it: its words. -/
abbrev Bank := Nat → Word

/-- Words of entry s, extrinsic s, projection configuration, grid g. -/
def Bank.e (b : Bank) (s k : Nat) : Word := b (32 + 32 * s + k)
def Bank.ext (b : Bank) (s k : Nat) : Word := b (1056 + 16 * s + k)
def Bank.p (b : Bank) (k : Nat) : Word := b (1568 + k)
def Bank.g (b : Bank) (g k : Nat) : Word := b (1632 + 6176 * g + k)
def Bank.kind (b : Bank) (s : Nat) : Nat := fld (b.e s 0) 1 0
def Bank.expect (b : Bank) (s : Nat) : Bool := bit (b.e s 0) 2

/-- Check 0x03: reserved bits and unused fields are zero. -/
def Bank.reservedOk (b : Bank) : Bool :=
  (b 0 &&& 0xFFFFFF00) == 0 && ((List.range 28).all fun k => b (4 + k) == 0)
    && ((List.range 32).all fun s => (List.range 32).all fun k => (b.e s k &&& ~~~(word (entryMask (b.kind s) k))) == 0)
    && ((List.range 64).all fun k => (b.p k &&& ~~~(word (projMask k))) == 0)
    && ((List.range 16).all fun g => (List.range 28).all fun k => b.g g (4 + k) == 0)

/-- Check 0x04: a sensor entry breaks R481 or R482. -/
def Bank.sensorOk (b : Bank) (p s : Nat) : Bool :=
  let f := fun k hi lo => fld (b.e s k) hi lo
  let v := fun k => (b.e s k).toNat
  let drift := if v 5 = 0 then p else v 5
  let common := decide ((signed 32 (v 1)).natAbs ≤ 100000000)
  let timed := decide (v 2 ≤ 100000000) && decide (1000 ≤ v 3) && decide (v 3 ≤ 200000000) && decide (v 4 ≤ 200000000)
    && (v 5 == 0 || (decide (1000 ≤ v 5) && decide (v 5 ≤ p))) && (v 6 == 0 || (decide (100 ≤ v 6) && decide (v 6 < drift)))
    && decide (1 ≤ f 7 7 0)
  match b.kind s with
  | 0 => true
  | 1 => common && timed && decide (2 ≤ f 10 13 0) && decide (f 10 13 0 ≤ 8192) && f 10 13 0 % 2 == 0
      && decide (1 ≤ f 10 27 14) && decide (f 10 27 14 ≤ 8192) && !(planesOf (f 11 5 0) 2).isEmpty
      && finW (b.e s 16) && Fv.one.le (fp32Of (b.e s 16)) && (fp32Of (b.e s 16)).le (Fv.ofInt 64)
      && ((List.range 32).all fun o => o == s || b.kind o != 1 || fld (b.e o 0) 10 7 != f 0 10 7)
  | 2 => common && decide (f 0 4 3 ≤ 1) && decide (f 17 7 0 ≤ 4) && (decide (f 17 15 8 ≤ 14) || f 17 15 8 == 255)
      && posW (b.e s 18) && posW (b.e s 19) && (List.range 6).all fun k => finW (b.e s (20 + k))
  | _ => common && timed && decide (128 ≤ f 10 23 0) && decide (f 10 23 0 ≤ 16777088) && f 10 23 0 % 128 == 0
      && decide (2 ≤ f 11 4 0) && decide (f 11 4 0 ≤ 16) && decide (1 ≤ f 11 17 5) && decide (f 11 17 5 ≤ 4096)
      && decide (f 12 15 0 ≤ 1400) && decide (f 12 31 16 ≤ 1400) && decide (f 13 15 0 ≤ 1400)

/-- At most one pose source (R482). -/
def Bank.oneSource (b : Bank) : Bool := decide (((List.range 32).filter fun s => b.kind s == 2 && b.expect s).length ≤ 1)

/-- Check 0x05: R483. -/
def Bank.extOk (b : Bank) (s : Nat) : Bool :=
  let e := fun r c => fp32Of (b.ext s (4 * r + c))
  if b.kind s = 0 then (List.range 16).all fun k => b.ext s k == 0
  else b.ext s 12 == 0 && b.ext s 13 == 0 && b.ext s 14 == 0 && b.ext s 15 == 0x3F800000
    && ((List.range 12).all fun k => finW (b.ext s k))
    && ((List.range 3).all fun i => (List.range 3).all fun j =>
        let dot := ((e 0 i).mulExact (e 0 j)).addExact (((e 1 i).mulExact (e 1 j)).addExact ((e 2 i).mulExact (e 2 j)))
        (dot.addExact (if i = j then .num (-1) 0 else .zero)).abs.le (.num 1 (-12)))
    && ((List.range 3).all fun r => within (b.ext s (4 * r + 3)) (Fv.ofInt 100))

/-- Check 0x06: a grid that a camera names, and the projection fields (R484, R485). -/
def Bank.gridOk (b : Bank) (g : Nat) : Bool :=
  ((List.range 4).all fun k => within (b.g g k) (Fv.ofInt 16))
    && (fp32Of (b.g g 0)).lt (fp32Of (b.g g 1)) && (fp32Of (b.g g 2)).lt (fp32Of (b.g g 3))
    && ((List.range 6144).all fun k => finW (b.g g (32 + k)) || fp32Of (b.g g (32 + k)) == .nan)

/-- The ranges of the projection configuration (R485). -/
def Bank.projOk (b : Bank) : Bool :=
  let f := fun k hi lo => fld (b.p k) hi lo
  decide (1 ≤ f 3 9 0) && decide (f 3 9 0 ≤ 512) && decide (1 ≤ f 3 19 10) && decide (f 3 19 10 ≤ 512)
    && decide (1 ≤ f 3 28 20) && decide (f 3 28 20 ≤ 256)
    && finW (b.p 4) && (fp32Of 0x3C23D70A).le (fp32Of (b.p 4)) && (fp32Of (b.p 4)).le (Fv.ofInt 10)
    && within (b.p 5) (Fv.ofInt 1000) && within (b.p 6) (Fv.ofInt 1000)
    && decide (1 ≤ f 7 3 0) && decide (f 7 3 0 ≤ 8) && decide (1 ≤ f 7 6 4) && decide (f 7 6 4 ≤ 4)
    && ((List.range 8).all fun k => if k < f 7 3 0 then within (b.p (8 + k)) (Fv.ofInt 20) else b.p (8 + k) == 0)
    && (if f 3 29 29 = 1 then b.p 16 == 0 else posW (b.p 16))
    && (f 1 21 21 == 0 || (decide (1000000 ≤ (b.p 33).toNat) && decide ((b.p 33).toNat ≤ 500000000)))

/-- Check 0x07: the slot order of R485. -/
def Bank.slotOk (b : Bank) (n : Nat) : Bool :=
  let f := fun k hi lo => fld (b.p k) hi lo
  ((List.range 32).all fun s => (b.kind s != 1 && b.kind s != 3) || !b.expect s
      || (decide (f 0 9 0 ≤ fld (b.e s 0) 26 17) && decide (fld (b.e s 0) 26 17 ≤ f 0 20 10)))
    && decide (f 0 9 0 ≤ f 0 20 10) && decide (f 0 20 10 < f 0 31 21) && decide (f 0 31 21 ≤ n)
    && (f 1 21 21 == 0 || (decide (f 0 20 10 ≤ f 1 9 0) && decide (f 1 9 0 < f 1 20 10) && decide (f 1 20 10 ≤ n)))

/-- Check 0x08: a stage of `t` ns fits between two slots (R520). -/
def stageFits (p n first bend t : Nat) : Bool :=
  let w := bend * p / max 1 n - first * p / max 1 n
  decide (t + 122 ≤ w * 9999 / 10000)

/-- T_proj (R520); the size of a feature is judged by FORMAT of the maps, which the checks take as the larger. -/
def Bank.projTime (b : Bank) (rate : Nat) (feature : Nat) : Nat :=
  let f := fun k hi lo => fld (b.p k) hi lo
  let pts := f 3 9 0 * f 3 19 10 * f 7 3 0
  let pass := ((List.range 32).map fun s => if b.kind s = 1 ∧ b.expect s then (if fld (b.e s 7) 23 8 = 0 then 1 else 2) else 0).sum
  let lg := lineCount (if f 3 29 29 = 1 then 5 else 0) (f 3 28 20) * 128
  let bytes := pts * f 7 6 4 * 4 * feature + f 3 9 0 * f 3 19 10 * lg
  2000 + max (ceilDiv (pts * pass * 5) 192) (ceilDiv (bytes * 1000) (max 1 rate))

/-- Check 0x09: an address of the bank is 128-byte aligned and its range lies in the bound stall's windows. -/
def Side.rangeOk (x : Side) (a n : Nat) (write : Bool) : Bool := a % 128 == 0 && x.fusOk a n write

/-- An address pair of a bank. -/
def Bank.addr (b : Bank) (k : Nat) : Nat := ((b k).toNat + 2 ^ 32 * (b (k + 1)).toNat) % 2 ^ 40

/-- Bytes of a landing buffer. -/
def Bank.landingBytes (b : Bank) (s : Nat) : Nat :=
  let h := fld (b.e s 10) 27 14
  ((planesOf (fld (b.e s 11) 5 0) (fld (b.e s 10) 13 0)).map fun p => 128 + h * p.row).sum

/-- Check 0x09. -/
def Side.bankWindows (x : Side) (b : Bank) : Bool :=
  let f := fun k hi lo => fld (b.p k) hi lo
  let grid := 128 + f 3 9 0 * f 3 19 10 * lineCount (if f 3 29 29 = 1 then 5 else 0) (f 3 28 20) * 128
  ((List.range 32).all fun s =>
      match b.kind s with
      | 1 => x.rangeOk (b.addr (32 + 32 * s + 8)) (b.landingBytes s) true && x.rangeOk (b.addr (32 + 32 * s + 14)) 128 false
      | 3 => x.rangeOk (b.addr (32 + 32 * s + 8)) (fld (b.e s 10) 23 0 * fld (b.e s 11) 4 0) true
      | _ => true)
    && x.rangeOk (b.addr 1585) grid true && x.rangeOk (b.addr 1587) 128 true && x.rangeOk (b.addr 1589) 2048 true
    && x.rangeOk (b.addr 1591) 32768 true && x.rangeOk (b.addr 1593) 32 false
    && (f 1 21 21 == 0 || (x.rangeOk (b.addr 1595) 128 false && x.rangeOk (b.addr 1597) 128 true && x.rangeOk (b.addr 1599) 128 true))

/-- The first check of R480 that the bank not in force fails; 0 when it passes them all. DEDUCED, note 94. -/
def Side.swapCheck (x : Side) : Nat :=
  let base := x.bankAddr true
  let b : Bank := fun k => x.bankWord base k
  let p := x.me.cad.period
  let n := x.me.cad.slots
  let rate := x.rdN (Reg.BRDL_YARD_RATE.inst 16)
  let feat := ((List.range 32).map fun s => if b.kind s = 1 then
      lineCount (hFmt (x.hdr x.fusStall 0 (b.addr (32 + 32 * s + 14)))) (fld (b.p 3) 28 20) * 128 else 0).foldl max 0
  let f := fun k hi lo => fld (b.p k) hi lo
  if fld (b 0) 7 0 != 1 || (b 2).toNat != 401792 then 1
  else if crc32c (x.spGet x.fusStall 0 (base + 128) 401664) != b 3 then 2
  else if !b.reservedOk then 3
  else if !((List.range 32).all (b.sensorOk p) && b.oneSource) then 4
  else if !(List.range 32).all b.extOk then 5
  else if !(((List.range 32).all fun s => b.kind s != 1 || b.gridOk (fld (b.e s 0) 10 7)) && b.projOk) then 6
  else if !b.slotOk n then 7
  else if !(stageFits p n (f 0 20 10) (f 0 31 21) (b.projTime rate feat)
      && (f 1 21 21 == 0 || stageFits p n (f 1 9 0) (f 1 20 10) 11240)) then 8
  else if !(x.rangeOk base 401792 false && x.bankWindows b) then 9
  else if x.psq x.fusStall = 0 || x.flag (Reg.PSQ_STAT.inst x.fusStall) 3 then 10
  else 0

/-- FUS_SWAP (R478, R480): the bank not in force is checked at once; accepted, it takes effect at the next frame
boundary, and a second request replaces the first. -/
def execFusSwap (n : Now) (d : Ch) (w : Init) (v : Word) (s : State) : Host.Outcome State Fault Refusal :=
  onLive n d (fun x => x.access w Reg.FUS_SWAP fun x =>
    if !bit v 0 then x else
    let c := x.swapCheck
    let x := x.wrN Reg.FUS_SWAP_RESULT c
    let x := (x.setFlag Reg.FUS_STAT 1 (c == 0)).modFus fun u => { u with swap := c == 0 }
    if c = 0 then x else (x.count Ct.FUS_SWAPS_REFUSED).raise Ev.FUS_SWAP_REFUSED) s

/-- A write of FUS_CTRL (R486, R509, R742): EN stays 0 while the fusion block is fenced. -/
def Side.writeFusCtrl (x : Side) (v : Word) : Side :=
  let was := x.fusOn
  let en := bit v 0 && !x.flag Reg.SAFE_UNIT_FENCE 4
  let x := x.wr Reg.FUS_CTRL (word (nat1 en))
  if was == en then x else x.fusFresh

/-- FUS_ENABLE (R486, R509). -/
def execFusEnable (n : Now) (d : Ch) (w : Init) (v : Word) (s : State) : Host.Outcome State Fault Refusal :=
  onLive n d (fun x => x.access w Reg.FUS_CTRL fun x => x.writeFusCtrl v) s

end Sys2Proof.Machine
end

