-- ==== Sys2Proof/Machine/Gateway.lean ====
section
/-!
DEFINITION. The commands of the switch, the CAN controllers and the gateway (R576 to R606).
-/

namespace Sys2Proof.Machine

/-! ## Reception (R577, R584 to R586) -/

/-- The VID of a frame: an untagged one takes the default of IEEE 802.1Q. -/
def vidOf (f : EthFrame) : Nat := (f.tag.map (·.1)).getD 1

/-- The stream handle of a frame received on a port: the lowest valid entry that matches (R584). -/
def Side.streamOf (x : Side) (p : Nat) (f : EthFrame) : Option Nat :=
  let m := x.me.net.img
  (List.range 256).find? fun h =>
    let g := imgField m (imgStream h)
    g 0 0 0 == 1 && x.me.net.ok (imgStream h) && (p == 8 || (g 0 23 16).testBit p) && g 0 13 2 == vidOf f
      && imgMac m (imgStream h) 1 == (if g 0 1 1 = 1 then f.src else f.dst)

/-- Entries of a stream gate's list: up to the first without an interval, at most 32. -/
def sgateLen (m : Mem) (g : Nat) : Nat :=
  ((List.range 32).find? fun i => (imgWord m (imgSGate g i) 1).toNat == 0).getD 32

/-- The entry a stream gate stands at; a gate whose list does not run, or has no entry, is open. -/
def Side.sgateEntry (x : Side) (g : Nat) : Option Word :=
  match x.me.net.gates, x.me.net.pos.find? fun e => e.1 == 64 + g with
  | some m, some (_, i, _) => if sgateLen m g = 0 then none else some (imgWord m (imgSGate g i) 0)
  | _, _ => none

/-- A flow meter with its tokens accrued up to now (IEEE 802.1Qci): rates in kb/s, bursts in bytes; overflow of the
committed bucket runs over into the excess bucket when COUPLED. -/
def Side.meterNow (x : Side) (k : Nat) : MeterSt :=
  let w := imgWord x.me.net.img (imgMeter k)
  let cbs := fld (w 2) 15 0 * 8000000
  let ebs := fld (w 2) 31 16 * 8000000
  match x.me.net.meters.find? fun e => e.1 == k with
  | none => { c := cbs, e := ebs, at_ := x.mt }
  | some (_, s) =>
    let c := s.c + (w 0).toNat * (x.mt - s.at_)
    let e := s.e + (w 1).toNat * (x.mt - s.at_) + (if bit (w 3) 0 then c - cbs else 0)
    { c := min cbs c, e := min ebs e, at_ := x.mt }

/-- A frame of n bytes at a meter: whether it passes. PRESUMED, note 102. -/
def Side.meter (x : Side) (k n : Nat) : Bool × Side :=
  let s := x.meterNow k
  let b := n * 8000000
  let put := fun s : MeterSt => x.modNet fun t => { t with meters := t.meters.put k s }
  if b ≤ s.c then (true, put { s with c := s.c - b })
  else if b ≤ s.e then
    if bit (imgWord x.me.net.img (imgMeter k) 3) 1 then (false, put s) else (true, put { s with e := s.e - b })
  else (false, put s)

/-- A recovery function that takes any number. -/
def RecvSt.fresh : RecvSt := { last := 0, hist := [], any := true, at_ := 0 }

/-- The vector recovery algorithm of IEEE 802.1CB with a history of n numbers: the function after number `seq`, and
whether it passes. -/
def RecvSt.take (r : RecvSt) (n seq mt : Nat) : RecvSt × Bool :=
  let d := signed 16 (seq + 65536 - r.last)
  if r.any then ({ last := seq, hist := [true], any := false, at_ := mt }, true)
  else if (n : Int) ≤ d || d ≤ -(n : Int) then (r, false)
  else if 0 < d then
    ({ r with last := seq, hist := (true :: (List.replicate (d.toNat - 1) false ++ r.hist)).take n, at_ := mt }, true)
  else
    let k := (-d).toNat
    if r.hist.getD k false then (r, false)
    else
      let h := r.hist ++ List.replicate (k + 1 - r.hist.length) false
      ({ r with hist := h.set k true, at_ := mt }, true)

/-- What the checks of R586 leave of a frame on stream handle h: whether it passes and the gate's IPV. -/
def Side.filter (x : Side) (p h : Nat) (f : EthFrame) : Option (Option Nat) × Side :=
  let g := imgField x.me.net.img (imgStream h)
  let drop := fun y : Side => (none, y.count Ct.NET_QCI_DROPPED p)
  let sdu := match f.acf with | some a => acfPduSize a | none => f.body.length
  if g 4 15 0 < sdu then drop x else
  let gate := if g 4 31 24 = 0xFF then none else x.sgateEntry (g 4 31 24)
  if (gate.map fun w => !bit w 0).getD false then drop x else
  let r := if g 4 23 16 = 0xFF then (true, x) else x.meter (g 4 23 16) (wireBytes f)
  let x := r.2
  if !r.1 then drop x else
  let ipv := gate.map fun w => fld w 3 1
  if g 3 8 8 = 0 then (some ipv, x)
  else match f.rtag with
    | none => (none, x.count Ct.NET_CB_ELIMINATED 9)
    | some s =>
      let r := (Tbl.get RecvSt.fresh x.me.net.recv h).take (g 3 13 9 + 1) s x.mt
      let x := x.modNet fun t => { t with recv := t.recv.put h r.1 }
      if r.2 then (some ipv, x) else (none, x.count Ct.NET_CB_ELIMINATED 9)

/-- The egress ports the FDB gives (R578): the static entry, else the learned one, else every other external port. -/
def Side.fdbPorts (x : Side) (p : Nat) (f : EthFrame) : List Nat :=
  let m := x.me.net.img
  let key := (f.dst, vidOf f)
  let st := (List.range 1024).find? fun k =>
    imgField m (imgFdb k) 3 0 0 == 1 && x.me.net.ok (imgFdb k) && imgMac m (imgFdb k) 0 == f.dst
      && imgField m (imgFdb k) 1 27 16 == vidOf f
  let l := match st with
    | some k => maskPorts (imgField m (imgFdb k) 2 8 0)
    | none =>
      let hit : List Nat := x.me.net.fdb.filterMap fun (e : (Nat × Nat) × Nat × Nat) => if e.1 = key then some e.2.1 else none
      if hit.isEmpty then List.range 8 else hit
  l.filter fun q => q != p

/-- The ingress of a frame that enters the switch now (R44). -/
def Side.netIn (x : Side) (p : Nat) (st : Stamp) : NetIn :=
  { port := p, vt := st.vt, wt := if x.flag Reg.TIME_CTRL 1 then some x.me.time.wt.ns else none }

/-- Forward a frame by the FDB; at port 8 it is delivered to the receive queue. -/
def Side.bridge (x : Side) (p : Nat) (ipv : Option Nat) (f : EthFrame) (st : Stamp) : Side :=
  (x.fdbPorts p f).foldl (fun x q =>
    if q = 8 then x.rxq 0 p 0 (frameBytes f) st
    else x.enqueue q { frame := f, cls := clsOf ipv f, mask := 0, res := none, in_ := some (x.netIn p st), held := false }) x

/-- Learn the source address of a frame (R578): at most 8,192 entries. -/
def Side.learn (x : Side) (p : Nat) (f : EthFrame) : Side :=
  if !x.flag (Reg.NET_FDB_CFG.inst 9) 0 then x else
  let key := (f.src, vidOf f)
  x.modNet fun n =>
    let rest := n.fdb.filter fun e => e.1 != key
    if 8192 ≤ rest.length then n else { n with fdb := (key, p, x.mt) :: rest }

/-- An ACF frame at a listener (R599). -/
def Side.acfReceive (x : Side) (p l : Nat) (f : EthFrame) (st : Stamp) : Side :=
  let m := x.me.net.img
  let o := imgListener l
  match f.acf with
  | some a =>
    if imgField m o 0 0 0 = 1 && x.me.net.ok o && bytesNat (m.read (o + 4) 8) == a.stream && !a.overrun then
      a.msgs.foldl (fun x g => x.route (some (l, g.bus)) p g.frame st) x
    else x.count Ct.CANG_ACF_MALFORMED 16
  | none => x.count Ct.CANG_ACF_MALFORMED 16

/-- A frame of the command stream (R809): dropped and counted while FP-HOST is down; its bytes are an AUTH entry and its
EXT entry. The command waits for its AUTH check as function 17 of the model (0x7F of R806), ring 0. DEDUCED, note 110. -/
def Side.netCommand (x : Side) (f : EthFrame) : Side :=
  if !x.pairUp 0 then x.count Ct.HBX_NETCMD_DROPPED
  else
    let l := (List.range 16).map fun k => word (bytesNat ((f.body.drop (4 * k)).take 4))
    let ext := (List.range 16).map fun k => word (bytesNat ((f.body.drop (64 + 4 * k)).take 4))
    let w0 := l.getD 0 0
    let c : Cmd := { ring := 0, id := (l.getD 1 0).toNat, op := fld w0 7 0, auth := bit w0 8, words := l, ext := ext,
                     checked := false, handed := planOp (fld w0 7 0), fixed := false }
    let x := x.record 0x04 0 [pack [(0, c.op), (8, 0x3F), (16, nat1 c.auth)], word c.id, ext.getD 2 0, ext.getD 3 0,
      crc32c (wordsBytes l), 0, 0, 0]
    let cause := if c.op > 0x0F || extMissing l ext then 1 else if reservedBits l ext then 2 else if !planOp c.op then 3 else if !c.auth then 5 else 0
    if cause != 0 then x.complete 17 c 5 cause else x.modFn 17 fun s => { s with accepted := s.accepted ++ [c] }

/-- A frame for the receive queue, or for FP-HOST when its stream is the command stream (R809). -/
def Side.toLocal (x : Side) (p h : Nat) (f : EthFrame) (st : Stamp) : Side :=
  if x.flag Reg.HBX_NETCMD 16 && x.field Reg.HBX_NETCMD 7 0 == h then x.netCommand f else x.rxq 0 p h (frameBytes f) st

/-- A frame that passed its checks goes where its stream's ACTION says (R584, R585). -/
def Side.deliverFrame (x : Side) (p : Nat) (h : Option Nat) (ipv : Option Nat) (f : EthFrame) (st : Stamp) : Side :=
  match h with
  | none => x.bridge p ipv f st
  | some h =>
    match imgField x.me.net.img (imgStream h) 3 1 0 with
    | 0 => x.bridge p ipv f st
    | 1 => x.modNet fun n => { n with sensorIn := n.sensorIn ++ [(h, f, st, x.wt)] }
    | 2 => x.acfReceive p (imgField x.me.net.img (imgStream h) 3 7 2) f st
    | _ => x.toLocal p h f st

/-- A sound frame of legal size enters a switch that has an image: its source is learned, its stream found, its checks made
(R578, R582, R584 to R586). -/
def Side.switchFrame (p : Nat) (f : EthFrame) (par : Option Nat) (st : Stamp) (x : Side) : Side :=
  let x := (x.learn p f).imgParity par
  match x.streamOf p f with
  | none => x.deliverFrame p none none f st
  | some h =>
    match x.filter p h f with
    | (none, x) => x
    | (some ipv, x) => x.deliverFrame p (some h) ipv f st

/-- The base of the configured domain that a PTP message belongs to; none for any other domain or profile (R48, R49). -/
def Side.ptpBase (x : Side) (m : PtpMsg) : Option Bool := if m.gptp then x.baseOfDomain m.domain else none

/-- A copy of a frame goes to every master port of a domain. -/
def Side.toMasters (x : Side) (p : Nat) (wt : Bool) (f : EthFrame) (st : Stamp) : Side :=
  (List.range 8).foldl (fun (x : Side) q =>
    if q != p && x.portRole q wt == 3 then
      x.enqueue q { frame := f, cls := clsOf none f, mask := 0, res := none, in_ := some (x.netIn p st), held := false }
    else x) x

/-- A PTP message of a configured domain ends in the time engine, which relays what the slave port receives: the Sync,
two-step however it came (R41), and its Follow_Up after it (R48). -/
def Side.relayFrame (p : Nat) (wt : Bool) (m : PtpMsg) (f : EthFrame) (st : Stamp) (x : Side) : Side :=
  if x.portRole p wt != 2 || x.isGm wt then x
  else match m.kind with
    | .sync => (x.relaySync p wt m f).toMasters p wt { f with ptp := some (twoStepSync m) } st
    | .followUp => if x.followsSync p wt m then x.toMasters p wt f st else x
    | .event => x

/-- ETH_FRAME_RX (R577, R582, R584 to R586). -/
def execEthFrameRx (n : Now) (d : Ch) (p : Fin 9) (f : EthFrame) (fcsOk : Bool) (par : Option Nat) (s : State) :
    Host.Outcome State Fault Refusal :=
  onLive n d (fun x =>
    if !x.portUp p then x
    else if !fcsOk then (x.count Ct.NET_RX_FRAMES p).count Ct.NET_FCS_ERRORS p
    else if x.maxFrame p < wireBytes f then (x.count Ct.NET_RX_FRAMES p).count Ct.NET_OVERSIZE p
    else match f.ptp.bind fun m => (x.ptpBase m).map fun wt => (m, wt) with
      | some (m, wt) => (x.count Ct.NET_RX_FRAMES p).relayFrame p wt m f x.stamp
      | none =>
        if !x.netLoaded then x.count Ct.NET_RX_FRAMES p
        else (x.count Ct.NET_RX_FRAMES p).switchFrame p f par x.stamp) s

/-! ## Transmission (R588 to R594) -/

/-- What keeps the first frame of a class from starting: 0 nothing, 1 it cannot finish before its gate closes (R588),
2 its gate is closed, HOLD holds it (R589), or a frame is in transmission. -/
def Side.txBlock (x : Side) (p : Nat) (i : NetFrame) : Nat :=
  let e := x.express p i.cls
  let busy := match (x.port p).tx with
    | [] => false
    | [t] => !(e && !x.express p t.item.cls)
    | _ => true
  let g := x.gateOf p i.cls
  let whole := x.wireTime p (wireBytes i.frame)
  let len := if e then whole else min whole (x.fragTime p)
  if busy || !g.1 || (!e && x.flag (Reg.NET_PORT_STAT.inst p) 10) then 2
  else if (g.2.map fun t => decide (10 * t < len)).getD false then 1
  else 0

/-- The first queued frame of each class, highest class first (R578: strict priority). -/
def Side.heads (x : Side) (p : Nat) : List NetFrame :=
  ([7, 6, 5, 4, 3, 2, 1, 0] : List Nat).filterMap fun c => (x.port p).queue.find? fun i => i.cls == c

/-- Take the first frame of a class off a queue. -/
def takeCls (c : Nat) : List NetFrame → List NetFrame
  | [] => []
  | i :: t => if i.cls = c then t else i :: takeCls c t

/-- A PTP event message with its residence time added (R49, R50): `ps` in ps; the UDP checksum is zeroed for IPv4, the
two trailing bytes keep it right for IPv6. -/
def ptpResidence (m : PtpMsg) (ps : Int) : PtpMsg :=
  let new := addCorr m.corr ps
  let sum := fun v : BitVec 64 => ((List.range 4).map fun k => v.toNat / 65536 ^ k % 65536).sum
  { m with
    corr := new
    check := if m.carrier = 1 then 0
      else if m.carrier = 2 then BitVec.ofNat 16 ((m.check.toNat + sum m.corr + 4 * 65535 - sum new) % 65535)
      else m.check }

/-- The residence time in ps of a frame that entered port q at reading t of VT and leaves port p now (R44, R50). -/
def Side.residence (x : Side) (p q t : Nat) : Int :=
  x.egrStamp p false - (1000 * (t : Int) - x.field ((Reg.PORT_ING_LAT_PS : Reg).el 0x10 q) 19 0)

/-- A frame as it leaves a port: a Follow_Up of a configured domain is corrected by the relay (R48), a PTP event message of any
other domain or profile carries its residence time (R49). -/
def Side.egress (x : Side) (p : Nat) (i : NetFrame) : EthFrame :=
  match i.frame.ptp, i.in_ with
  | some m, some i' =>
    match x.ptpBase m with
    | some wt => if m.kind = .followUp then { i.frame with ptp := some (x.relayFollowUp p wt m) } else i.frame
    | none => if m.kind = .followUp then i.frame else { i.frame with ptp := some (ptpResidence m (x.residence p i'.port i'.vt)) }
  | _, _ => i.frame

/-- The Follow_Up of a Sync that came one-step joins the queue of the port that sends the Sync (R41, R48). -/
def Side.ownFollowUp (x : Side) (p : Nat) (wt : Bool) : Side :=
  match x.me.time.relay.find? fun e => e.1 == nat1 wt with
  | some (_, r) => match r.own with
    | some f => x.enqueue p { frame := f, cls := clsOf none f, mask := 0, res := none, in_ := some (x.netIn r.port x.stamp), held := false }
    | none => x
  | none => x

/-- A Sync of a configured domain that leaves a port is stamped for its Follow_Up (R44, R48). -/
def Side.stampSync (x : Side) (p : Nat) (f : EthFrame) : Side :=
  match f.ptp with
  | some m => match x.ptpBase m with
    | some wt => if m.kind = .sync then (x.relaySent p wt).ownFollowUp p wt else x
    | none => x
  | none => x

/-- The frame that a port starts now: of the highest class that may, the first. -/
def Side.txReady (x : Side) (p : Nat) : Option NetFrame := (x.heads p).find? fun i => x.txBlock p i == 0

/-- The frames that R588 holds ahead of it are counted, each once. -/
def Side.holdFrames (p : Nat) (x : Side) : Side :=
  let held := ((x.heads p).takeWhile fun i => x.txBlock p i != 0).filter fun i => x.txBlock p i == 1 && !i.held
  (x.countN Ct.NET_GATE_HELD p held.length).modPort p fun q => { q with
    queue := q.queue.map fun i => if held.contains i then { i with held := true } else i }

/-- A frame starts on a port; one that it pre-empts waits with what is left of it. -/
def Side.startFrame (p : Nat) (i : NetFrame) (x : Side) : Side :=
  let f := x.egress p i
  (x.stampSync p f).modPort p fun q => { q with
    queue := takeCls i.cls q.queue
    tx := { item := { i with frame := f }, left := x.wireTime p (wireBytes f), at_ := x.mt, stomp := false }
      :: q.tx.map fun t => { t with left := if t.paused then t.left else t.left - 10 * (x.mt - t.at_), at_ := x.mt } }

/-- ETH_FRAME_TX_START (R578, R588, R589): an express frame pre-empts a preemptable one. -/
def execEthFrameTxStart (n : Now) (d : Ch) (p : Fin 9) (s : State) : Host.Outcome State Fault Refusal :=
  onLive n d (fun x =>
    if !x.portUp p then x else
    match x.txReady p with
    | none => x.holdFrames p
    | some i => (x.holdFrames p).startFrame p i) s

/-- A frame has left its port, or at port 8 joins the queue of each of its egress ports (R577, R590, R594). -/
def Side.frameOut (p : Nat) (t : NetTx) (rest : List NetTx) (x : Side) : Side :=
  let x := x.modPort p fun q => { q with tx := rest.map fun u => { u with at_ := x.mt } }
  let x := x.count Ct.NET_TX_FRAMES p
  if p = 8 then
    if t.stomp then x else
    let r := x.stampResult t.item
    (maskPorts (t.item.mask % 256)).foldl (fun x q => x.enqueue q { r.1 with cls := clsOf none r.1.frame, mask := 0 }) r.2
  else x.emit (.ethTx p t.item.frame t.stomp)

/-- ETH_FRAME_TX_END (R577, R590, R594). -/
def execEthFrameTxEnd (n : Now) (d : Ch) (p : Fin 9) (s : State) : Host.Outcome State Fault Refusal :=
  onLive n d (fun x =>
    match (x.port p).tx with
    | [] => x
    | t :: rest => if t.paused || 10 * (x.mt - t.at_) < t.left then x else x.frameOut p t rest) s

/-! ## Gates, recovery, ageing, links -/

/-- The entry a gate list stands at, and MT of its start: of a port, or 64 + g of stream gate g. -/
def Side.gatePos (x : Side) (k : Nat) : Option (Nat × Nat) := (x.me.net.pos.find? fun e => e.1 == k).map (·.2)

/-- GATE_ENTRY_ADVANCE (R587, R102): after the last entry its states hold. -/
def execGateEntryAdvance (n : Now) (d : Ch) (p : Fin 8) (s : State) : Host.Outcome State Fault Refusal :=
  onLive n d (fun x =>
    match x.me.net.gates, x.gatePos p with
    | some m, some (i, t) =>
      let iv := (imgWord m (imgGate p i) 1).toNat
      if i + 1 < imgField m (imgGate p 0) 0 16 9 && decide (t + iv ≤ x.mt) then
        (x.modNet fun k => { k with pos := k.pos.put p (i + 1, t + iv) }).gatesMoved p
      else x
    | _, _ => x) s

/-- STREAM_GATE_ADVANCE (R578). -/
def execStreamGateAdvance (n : Now) (d : Ch) (g : Fin 64) (s : State) : Host.Outcome State Fault Refusal :=
  onLive n d (fun x =>
    match x.me.net.gates, x.gatePos (64 + g) with
    | some m, some (i, t) =>
      let iv := (imgWord m (imgSGate g i) 1).toNat
      if i + 1 < sgateLen m g && decide (t + iv ≤ x.mt) then
        x.modNet fun k => { k with pos := k.pos.put (64 + g) (i + 1, t + iv) }
      else x
    | _, _ => x) s

/-- CB_RECOVERY_RESET (R584): nothing was accepted for RESET_TIMEOUT. -/
def execCbRecoveryReset (n : Now) (d : Ch) (h : Fin 256) (s : State) : Host.Outcome State Fault Refusal :=
  onLive n d (fun x =>
    let r := Tbl.get RecvSt.fresh x.me.net.recv h
    if !r.any && decide (r.at_ + imgField x.me.net.img (imgStream h) 5 9 0 * 1000000 ≤ x.mt) then
      x.modNet fun k => { k with recv := k.recv.put h { r with any := true } }
    else x) s

/-- FDB_AGEING (R578): a learned entry whose ageing time has passed. -/
def execFdbAgeing (n : Now) (d : Ch) (mac vid : Nat) (s : State) : Host.Outcome State Fault Refusal :=
  onLive n d (fun x =>
    let age := clampN 1 3600 (x.field (Reg.NET_FDB_CFG.inst 9) 12 1) * 10 ^ 9
    x.modNet fun k => { k with fdb := k.fdb.filter fun e => !(e.1 == (mac, vid) && decide (e.2.2 + age ≤ x.mt)) }) s

/-- ETH_LINK_CHANGE (R606). -/
def execEthLinkChange (n : Now) (d : Ch) (p : Fin 8) (up verified : Bool) (s : State) : Host.Outcome State Fault Refusal :=
  onLive n d (fun x =>
    if !x.pageOn (Reg.NET_PORT_CFG.inst p) || (up && x.portMode p == 0) || x.flag (Reg.NET_PORT_STAT.inst p) 0 == up then x
    else ((x.setFlag (Reg.NET_PORT_STAT.inst p) 0 up).setFlag (Reg.NET_PORT_STAT.inst p) 1 (up && verified)).raise Ev.NET_LINK p) s

/-! ## The network image (R580 to R583) -/

/-- A load is requested (R580); it replaces one that is pending (R581). -/
def Side.requestImage (x : Side) : Side :=
  (x.modNet fun k => { k with next := none, load := some (x.rd64 (Reg.NET_IMG_ADDR.inst 9), false) }).setFlag (Reg.NET_STAT.inst 9) 1 true

/-- NET_IMG_LOAD (R580, R581). -/
def execNetImgLoad (n : Now) (d : Ch) (w : Init) (v : Word) (s : State) : Host.Outcome State Fault Refusal :=
  onLive n d (fun x => x.access w (Reg.NET_IMG_LOAD.inst 9) fun x => if bit v 0 then x.requestImage else x) s

/-- An image passed its checks: it waits for the next frame boundary; a reload of the bank in force makes its entries valid
again at once (R580, R582). -/
def Side.imageOk (a : Nat) (reload : Bool) (x : Side) : Side :=
  let x := (x.modNet fun k => { k with load := none }).wrN (Reg.NET_IMG_RESULT.inst 9) 0
  if reload then
    ((x.modNet fun k => { k with img := x.imgAt a, invalid := [] }).setFlag (Reg.NET_STAT.inst 9) 3 false).setFlag
      (Reg.NET_STAT.inst 9) 1 x.me.net.next.isSome
  else x.modNet fun k => { k with next := some (x.imgAt a, a) }

/-- An image failed check r: the bank in force stays. -/
def Side.imageBad (r : Nat) (reload : Bool) (x : Side) : Side :=
  let x := x.modNet fun k => { k with load := none }
  let x := (x.wrN (Reg.NET_IMG_RESULT.inst 9) r).setFlag (Reg.NET_STAT.inst 9) 1 x.me.net.next.isSome
  let x := if reload then x.setFlag (Reg.NET_STAT.inst 9) 3 true else x
  (x.count Ct.NET_IMG_REFUSED 9).raise Ev.NET_IMG_REFUSED 9

/-- NET_IMG_LOAD_DONE (R580, R582). -/
def execNetImgLoadDone (n : Now) (d : Ch) (s : State) : Host.Outcome State Fault Refusal :=
  onLive n d (fun x =>
    match x.me.net.load with
    | none => x
    | some (a, reload) =>
      let y := ((x.passBridle 17 ⟨true, a, imgBytes, none⟩).loftMeet a imgBytes).1
      if x.imgResult a = 0 then y.imageOk a reload else y.imageBad (x.imgResult a) reload) s

/-! ## CAN controllers (R595 to R597) -/

/-- Set a controller's state and error counters. DEDUCED, note 107. -/
def Side.setCan (x : Side) (c st tec rec : Nat) : Side := x.wr (Reg.CANG_STAT.inst c) (pack [(0, st), (2, tec), (10, rec)])

/-- TEC and REC of a controller. -/
def Side.tec (x : Side) (c : Nat) : Nat := x.field (Reg.CANG_STAT.inst c) 9 2
def Side.recErr (x : Side) (c : Nat) : Nat := x.field (Reg.CANG_STAT.inst c) 17 10

/-- The error state that counters give while the controller is on the bus (ISO 11898-1). -/
def canErrState (tec rec : Nat) : Nat := if 128 ≤ tec || 128 ≤ rec then 1 else 0

/-- CANG_CFG.MODE as it stands acts on its controller (R595): MODE 0 turns it off with its counters at zero; one that is off
becomes error-active in any other mode. DEDUCED, note 107. -/
def Side.canMode (x : Side) (c : Nat) : Side :=
  if x.field (Reg.CANG_CFG.inst c) 1 0 = 0 then
    (x.modNet fun k => { k with canOver := k.canOver.del c, recovering := k.recovering.del c }).setCan c 3 0 0
  else if x.canState c = 3 then x.setCan c 0 0 0
  else x

/-- REC after a frame received whole. -/
def recAfter (r : Nat) : Nat := if 127 < r then 127 else r - 1

/-- A frame becomes valid on a controller: stamped and routed; a success counts REC down (R596, R601). -/
def Side.canArrive (x : Side) (q : CanArrival) : Side :=
  let c := q.c.val
  if !x.canOn c || !x.canTakes c q.f then x else
  let r := recAfter (x.recErr c)
  (((x.setCan c (canErrState (x.tec c) r) (x.tec c) r).count Ct.CANG_RX_FRAMES c).imgParity q.par).route none c q.f x.stamp

/-- The CAN frames that the queue holds for this cycle: those at its front with no time before them. DEDUCED, note 129. -/
def canCycle (d : Ch) : List Instr → List CanArrival
  | .canFrameRx n e c f par :: t =>
    if n.on d != 0 then [] else if e = d then ⟨c, f, par⟩ :: canCycle d t else canCycle d t
  | _ => []

/-- Frames of one cycle are routed in the order of their controllers (R75, R603): those of lower controllers come before
this one, which is not routed again when it came so itself. `now` says that no time has passed before it. -/
def Side.canTurn (x : Side) (now : Bool) (l : List CanArrival) (q : CanArrival) : Side :=
  let keep := fun (x : Side) l => x.modNet fun k => { k with canEarly := l }
  let early := if now then x.me.net.canEarly else []
  if early.contains q then keep x (early.erase q)
  else
    let lower := (l.filter fun r => decide (r.c.val < q.c.val)).filter fun r => !early.contains r
    let first := (List.range 16).flatMap fun c => lower.filter fun r => r.c.val == c
    (first.foldl Side.canArrive (keep x (early ++ first))).canArrive q

/-- CAN_FRAME_RX (R596, R601, R603). -/
def execCanFrameRx (n : Now) (d : Ch) (c : Fin 16) (f : CanFrame) (par : Option Nat) (s : State) :
    Host.Outcome State Fault Refusal :=
  onLive n d (fun x => x.canTurn (n.on d == 0) (canCycle d s.pending) ⟨c, f, par⟩) s

/-- The queued frame of least identifier, the first of equals (R597), and the rest. -/
def takeLeast : List CanFrame → Option (CanFrame × List CanFrame)
  | [] => none
  | f :: t => match takeLeast t with
    | none => some (f, t)
    | some (g, r) => if canKey f ≤ canKey g then some (f, t) else some (g, f :: r)

/-- CAN_FRAME_TX (R596, R597): stamped at its start of frame; a success counts TEC down. -/
def execCanFrameTx (n : Now) (d : Ch) (c : Fin 16) (s : State) : Host.Outcome State Fault Refusal :=
  onLive n d (fun x =>
    if !x.canOn c then x else
    match takeLeast (x.canQueue c) with
    | none => x
    | some (f, rest) =>
      let t := x.tec c - 1
      (((x.modNet fun k => { k with canq := k.canq.put c rest }).setCan c (canErrState t (x.recErr c)) t (x.recErr c)).count
        Ct.CANG_TX_FRAMES c).emit (.canTx c f x.stamp)) s

/-- What a bus error adds to TEC and to REC. -/
def tecStep (e : CanErr) : Nat := if e = .tx then 8 else 0
def recStep (e : CanErr) : Nat := match e with | .tx => 0 | .rx => 1 | .rx8 => 8

/-- CAN_PROTOCOL_ERROR (R595, ISO 11898-1): 8 to TEC, or 1 or 8 to REC; a TEC past 255 makes the controller bus-off. -/
def execCanProtocolError (n : Now) (d : Ch) (c : Fin 16) (e : CanErr) (s : State) : Host.Outcome State Fault Refusal :=
  onLive n d (fun x =>
    if !x.canOn c then x else
    let t := x.tec c + tecStep e
    let r := min 255 (x.recErr c + recStep e)
    let x := if 255 < t then x.modNet fun k => { k with canOver := k.canOver.add c } else x
    x.setCan c (canErrState t r) (min 255 t) r) s

/-- CAN_BUS_OFF (R595, R606): the controller whose TEC passed 255. -/
def execCanBusOff (n : Now) (d : Ch) (c : Fin 16) (s : State) : Host.Outcome State Fault Refusal :=
  onLive n d (fun x =>
    if !x.canOn c || !x.me.net.canOver.contains c.val then x else
    let x := x.modNet fun k => { k with
      canOver := k.canOver.del c
      recovering := if x.flag (Reg.CANG_CFG.inst c) 3 then k.recovering.add c else k.recovering.del c }
    ((x.setField (Reg.CANG_STAT.inst c) 1 0 2).count Ct.CANG_BUS_OFFS c).raise Ev.CANG_BUS_OFF c) s

/-- CANG_RECOVER (R595): starts the recovery of a controller that is bus-off. -/
def execCangRecover (n : Now) (d : Ch) (w : Init) (c : Fin 16) (v : Word) (s : State) : Host.Outcome State Fault Refusal :=
  onLive n d (fun x => x.access w (Reg.CANG_RECOVER.inst c) fun x =>
    if bit v 0 && x.canState c == 2 then x.modNet fun k => { k with recovering := k.recovering.add c } else x) s

/-- BUS_OFF_RECOVERY_DONE (R595): back to error-active with its counters at zero. -/
def execBusOffRecoveryDone (n : Now) (d : Ch) (c : Fin 16) (s : State) : Host.Outcome State Fault Refusal :=
  onLive n d (fun x =>
    if x.canState c == 2 && x.me.net.recovering.contains c.val then
      (x.modNet fun k => { k with recovering := k.recovering.del c }).setCan c 0 0 0
    else x) s

/-- The messages that a talker collects. -/
def Side.acfWait (x : Side) (t : Nat) : Option AcfOpen := (x.me.net.acf.find? fun e => e.1 == t).map (·.2)

/-- ACF_MAX_WAIT_EXPIRY (R598). -/
def execAcfMaxWaitExpiry (n : Now) (d : Ch) (t : Fin 64) (s : State) : Host.Outcome State Fault Refusal :=
  onLive n d (fun x =>
    match x.acfWait t with
    | some a =>
      if a.at_ + (imgWord x.me.net.img (imgTalker t) 5).toNat ≤ x.mt then x.acfSend t else x
    | none => x) s

end Sys2Proof.Machine
end

