-- ==== Sys2Proof/Machine/Sha.lean ====
section
/-!
DEFINITION. SHA-384 (FIPS 180-4), which the signed containers, the key digests and the attestation name (R783, R785, R786,
R810).
-/

namespace Sys2Proof.Machine

/-- A word of the hash. -/
abbrev HWord := BitVec 64

/-- The greatest r below 2^72 with r^k not above m. -/
def rootOf (k m : Nat) : Nat :=
  (List.range 72).foldr (fun b r => if (r + 2 ^ b) ^ k ≤ m then r + 2 ^ b else r) 0

/-- The first 80 primes. -/
def shaPrimes : List Nat := (List.range 410).filter fun p => decide (2 ≤ p) && (List.range p).all fun q => q < 2 || p % q != 0

/-- The first 64 bits of the fraction of the k-th root of a number. -/
def rootFrac (k p : Nat) : HWord := BitVec.ofNat 64 (rootOf k (p * 2 ^ (64 * k)))

/-- The constants of the rounds, and the initial value of SHA-384: cube roots of the primes, square roots of the ninth to
sixteenth. -/
def shaRounds : List HWord := shaPrimes.map (rootFrac 3)
def shaInit : List HWord := ((shaPrimes.drop 8).take 8).map (rootFrac 2)

/-- Three rotations or shifts of a word, exclusive or. -/
def mix3 (r s : Nat) (t : HWord) (w : HWord) : HWord := w.rotateRight r ^^^ w.rotateRight s ^^^ t

/-- The next word of the schedule, the last 16 words given newest first. -/
def nextSched (l : List HWord) : HWord :=
  let w2 := l.getD 1 0
  let w15 := l.getD 14 0
  mix3 19 61 (w2 >>> 6) w2 + l.getD 6 0 + mix3 1 8 (w15 >>> 7) w15 + l.getD 15 0

/-- The schedule of a block of 16 words, newest first, extended by n words. -/
def schedule (l : List HWord) : Nat → List HWord
  | 0 => l
  | n + 1 => schedule (nextSched l :: l) n

/-- One round over the eight working words, with its constant and its schedule word. -/
def shaRound (v : List HWord) (kw : HWord × HWord) : List HWord :=
  match v with
  | [a, b, c, d, e, f, g, h] =>
    let choose := (e &&& f) ^^^ (~~~e &&& g)
    let most := (a &&& b) ^^^ (a &&& c) ^^^ (b &&& c)
    let t := h + mix3 14 18 (e.rotateRight 41) e + choose + kw.1 + kw.2
    [t + (mix3 28 34 (a.rotateRight 39) a + most), a, b, c, d + t, e, f, g]
  | l => l

/-- A block of 16 words is taken into the hash. -/
def shaBlock (v : List HWord) (m : List HWord) : List HWord :=
  let out := (shaRounds.zip (schedule m.reverse 64).reverse).foldl shaRound v
  v.zipWith (· + ·) out

/-- A number as n bytes, the highest first. -/
def beBytes (n v : Nat) : List Byte := ((List.range n).map fun k => BitVec.ofNat 8 (v / 2 ^ (8 * k))).reverse

/-- The padding of a message of n bytes. -/
def shaPad (n : Nat) : List Byte := 0x80#8 :: (List.replicate ((239 - n % 128) % 128) 0 ++ beBytes 16 (8 * n))

/-- The 48 bytes of the SHA-384 of a message. -/
def sha384 (l : List Byte) : List Byte :=
  let m := l ++ shaPad l.length
  let blk := fun k => (List.range 16).map fun j => (BitVec.ofNat 64 (beNat ((m.drop (128 * k + 8 * j)).take 8)) : HWord)
  let v := (List.range (m.length / 128)).foldl (fun v k => shaBlock v (blk k)) shaInit
  (v.take 6).flatMap fun w => beBytes 8 w.toNat

end Sys2Proof.Machine
end

