-- ==== Sys2Proof/Machine/Hatbox.lean ====
section
/-!
DEFINITION. The Hatbox: mailbox requests, signed containers, sealing, the life cycle, authenticated commands,
attestation, power claims and its restart (R777 to R819).
-/

namespace Sys2Proof.Machine

/-! ## Mailbox (R778 to R780) -/

/-- Change what the Hatbox holds. -/
def Side.modHbx (x : Side) (f : HbxSt → HbxSt) : Side := { x with me := { x.me with hbx := f x.me.hbx } }

/-- Word k of the request slot of pair p, and of its response slot. -/
def hbxReq (p k : Nat) : Reg := 0x500100 + 0x40 * p + 4 * k
def hbxResp (p k : Nat) : Reg := 0x500200 + 0x40 * p + 4 * k

/-- Word k of pair p's request. -/
def Side.arg (x : Side) (p k : Nat) : Nat := x.rdN (hbxReq p k)

/-- Words k and k + 1 of pair p's request as a 64-bit value. -/
def Side.arg64 (x : Side) (p k : Nat) : Nat := x.arg p k + 2 ^ 32 * x.arg p (k + 1)

/-- A code is a request that the pair may make (R780). -/
def requestOk (code p : Nat) : Bool :=
  (code == 1 && (p == 0 || p == 1)) || (code == 2 && p == 1) || code == 6
    || ([3, 4, 5, 7, 8].contains code && p == 0)

/-- The loft domain is what a request that reads or writes the loft uses (R817). -/
def requestUses (code : Nat) : NatSet := if code = 6 || code = 3 then [] else [18]

/-- The Hatbox takes the request at the head of its line. -/
def Side.startRequest (x : Side) : Side :=
  match x.me.hbx.waiting with
  | [] => x
  | p :: _ =>
    if x.me.hbx.busy || x.flag Reg.HBX_STAT 7 then x
    else (x.modHbx fun h => { h with busy := true, uses := requestUses (x.arg p 0 % 256), answer := none }).setFlag
      Reg.HBX_STAT 3 true

/-- The line with slot p, rung at MT t: behind the others, but before a higher slot that was rung in the same cycle (R779). -/
def queueSlot (rung : Tbl Nat) (t p : Nat) : List Nat → List Nat
  | [] => [p]
  | q :: l => if p < q && rung.any (fun e => e == (q, t)) then p :: q :: l else q :: queueSlot rung t p l

/-- Ring slot p: ignored while its previous request has not completed; the slots rung in one cycle are served in ascending
order, so that a request begun in this cycle stands back for a lower one (R779). -/
def Side.ringSlot (x : Side) (p : Nat) : Side :=
  if x.me.hbx.waiting.contains p then x
  else
    let l := queueSlot x.me.hbx.rung x.mt p x.me.hbx.waiting
    let first := l.head? == some p && x.me.hbx.answer.isNone
    let l := if first || x.me.hbx.waiting.isEmpty then l else x.me.hbx.waiting.take 1 ++ queueSlot x.me.hbx.rung x.mt p (x.me.hbx.waiting.drop 1)
    let x := (x.setFlag Reg.HBX_MB_DONE p false).modHbx fun h => { h with
      waiting := l, rung := h.rung.put p x.mt, busy := h.busy && !first }
    x.startRequest

/-- HATBOX_DOORBELL (R778, R779): a pair rings its own slot; any other bit or initiator is ignored. -/
def execHatboxDoorbell (n : Now) (d : Ch) (w : Init) (v : Word) (s : State) : Host.Outcome State Fault Refusal :=
  onLive n d (fun x => match w with
    | .pair p => if x.domOn 22 && bit v p then x.ringSlot p else x
    | _ => x) s

/-- Run a request's work: it is the one in service, from pair p, with the given code, and its work is not yet done. -/
def Side.serve (x : Side) (p code : Nat) (f : Side → Side) : Side :=
  if x.me.hbx.busy && x.me.hbx.waiting.head? == some p && x.me.hbx.answer.isNone && !x.flag Reg.HBX_STAT 7
      && x.arg p 0 % 256 == code && requestOk code p then f x else x

/-- The request in service has its answer. -/
def Side.answer (x : Side) (status result : Nat) (data : List Word := []) : Side :=
  x.modHbx fun h => { h with answer := some (status, result, data) }

/-- Mark the authenticated command that a request names as checked (R711). -/
def Side.markChecked (x : Side) (f ring id : Nat) : Side :=
  x.modFn f fun s => { s with accepted := s.accepted.map fun k =>
    if k.ring = ring && k.id = id then { k with checked := true } else k }

/-- The accepted command with a ring and CMD_ID. -/
def Side.findCmd (x : Side) (f ring id : Nat) : Option Cmd :=
  (x.fn f).accepted.find? fun k => k.ring == ring && k.id == id

/-- What FP-HOST does with the answer to a request it made for a ring command: an AUTH_CHECK that passed lets the command
run, any other answer completes it (R711, R712). -/
def Side.hostAnswer (x : Side) (code status result : Nat) : Side :=
  match x.me.hbx.forCmd with
  | none => x
  | some (f, ring, id) =>
    let x := x.modHbx fun h => { h with forCmd := none }
    match x.findCmd f ring id with
    | none => x
    | some c => if code = 3 && status = 0 then x.markChecked f ring id else x.complete f c status result

/-- Complete the request in service: the response is written, the pair is interrupted with COMPLETE (R782) and the next
request starts. -/
def Side.respond (x : Side) (p status result : Nat) (data : List Word) : Side :=
  let code := x.arg p 0 % 256
  let l := [pack [(0, status), (8, result)], x.rd (hbxReq p 1)] ++ (data ++ List.replicate 14 0).take 14
  let x := (List.range 16).foldl (fun x k => x.wr (hbxResp p k) (l.getD k 0)) x
  let x := ((x.setFlag Reg.HBX_MB_DONE p true).setFlag Reg.HBX_STAT 3 false).emit (.pairOrder p false)
  let x := x.modHbx fun h => { h with waiting := h.waiting.drop 1, busy := false, answer := none, uses := [] }
  (if p = 0 then x.hostAnswer code status result else x).startRequest

/-- HATBOX_REQUEST_DONE (R780): the request whose work is done completes; a reserved code, or one the pair may not
request, completes WINDOW_FAULT. -/
def execHatboxRequestDone (n : Now) (d : Ch) (s : State) : Host.Outcome State Fault Refusal :=
  onLive n d (fun x => match x.me.hbx.waiting with
    | [] => x
    | p :: _ =>
      if !x.me.hbx.busy || x.flag Reg.HBX_STAT 7 then x
      else match x.me.hbx.answer with
        | some (st, res, data) => x.respond p st res data
        | none => if requestOk (x.arg p 0 % 256) p then x else x.respond p 5 0 []) s

/-! ## Signed containers (R783 to R787) -/

/-- The fields of a container's head that its checks read. -/
structure Head where
  magic : Nat
  ver : Nat
  kind : Nat
  keySet : Nat
  keyIdx : Nat
  secVer : Nat
  flags : Nat
  payload : Nat
  hss : Nat
  serial : List Byte
  nonce : List Byte
  digest : List Byte
  /-- The reserved bytes. -/
  rest : List Byte
deriving DecidableEq, Repr

/-- The head of a container, from its first 512 bytes (R783). -/
def parseHead (l : List Byte) : Head :=
  let at_ (o n : Nat) := (l.drop o).take n
  { magic := bytesNat (at_ 0 4), ver := bytesNat (at_ 4 1), kind := bytesNat (at_ 5 1), keySet := bytesNat (at_ 6 1)
    keyIdx := bytesNat (at_ 7 1), secVer := bytesNat (at_ 8 4), flags := bytesNat (at_ 12 4)
    payload := bytesNat (at_ 16 8), hss := bytesNat (at_ 24 4), serial := at_ 32 12, nonce := at_ 44 32
    digest := at_ 80 48
    rest := at_ 28 4 ++ at_ 76 4 ++ at_ 128 64 ++ at_ 444 68 }

/-- The container as a whole lies inside the given size (R783, R786). -/
def Head.fits (h : Head) (size : Nat) : Bool := decide (512 + ceilDiv h.payload 128 * 128 + h.hss ≤ size)

/-- The life-cycle state accepts a key set (R796). -/
def lcAccepts (lc set : Nat) : Bool :=
  match set with
  | 0 => decide (lc < 4)
  | 1 => lc == 0 || lc == 1 || lc == 3
  | 2 => decide (lc < 4)
  | _ => false

/-- The life-cycle state (R795). -/
def Side.lc (x : Side) : Nat := x.me.fuses.lc

/-- The first check of R786 that fails before the signatures: FORMAT to BIND, with the keys that the engines know. -/
def Side.headResult (x : Side) (h : Head) (size kind : Nat) (needNonce : Bool) (keyKnown : Bool) : Nat :=
  let serial := (wordsBytes x.me.fuses.identity).drop 48
  let nonce := wordsBytes ((List.range 8).map fun k => x.rd (Reg.HBX_NONCE + 4 * k))
  let floor := if h.kind = 1 then x.me.fuses.fwFloor else if h.keySet = 2 then x.me.fuses.ownerFloor else 0
  let revoked := if h.keySet = 2 then x.me.fuses.revokedOwner else x.me.fuses.revokedVendor
  if h.magic != 0x4257534B || h.ver != 1 || h.rest.any (· != 0) || h.flags ≥ 4 || h.payload = 0 || h.payload > 2 ^ 36
      || !h.fits size then 1
  else if h.kind != kind || (if kind = 1 || kind = 7 then decide (h.keySet > 1) else h.keySet != 2) then 2
  else if !lcAccepts x.lc h.keySet then 3
  else if revoked.testBit h.keyIdx then 4
  else if !keyKnown || h.keyIdx > 3 then 5
  else if h.secVer < floor then 6
  else if (h.flags.testBit 1 && h.serial != serial.take 12) || (needNonce && (!h.flags.testBit 1 || !x.me.hbx.nonceDrawn || h.nonce != nonce))
    then 7
  else 0

/-- The payload of the container at a loft address has the digest that its head gives (R783, R786). -/
def Side.digestOk (x : Side) (base : Nat) (h : Head) : Bool := sha384 (x.loftGet (base + 512) h.payload) == h.digest

/-- The first check of R786 that the container at a loft address fails, REGION apart; `sig` is what the signature engines
find. -/
def Side.containerResult (x : Side) (base size kind : Nat) (needNonce : Bool) (sig : SigCheck) : Nat :=
  let h := parseHead (x.loftGet base 512)
  let r := x.headResult h size kind needNonce sig.keyKnown
  if r != 0 then r else if !x.digestOk base h then 8 else if !sig.ecdsa then 9 else if !sig.hss then 10 else 0

/-- A container is refused: counted and raised (R786, R819). -/
def Side.containerRefused (x : Side) : Side := (x.count Ct.HBX_VERIFY_FAIL).raise Ev.HBX_VERIFY_FAIL

/-- An accepted owner container with ROLLBACK_COMMIT raises the owner floor in FIELD (R787). -/
def Side.ownerCommit (x : Side) (h : Head) : Side :=
  if h.keySet = 2 && h.flags.testBit 0 && x.lc = 2 then
    { x with me := { x.me with fuses := { x.me.fuses with ownerFloor := max x.me.fuses.ownerFloor (min 64 h.secVer) } } }
  else x

/-! ## Sealing (R788, R789) -/

/-- A sealed-region entry that is free. -/
def Side.freeSeal (x : Side) : Option Nat := (List.range 8).find? fun k => x.field ((Reg.LOFT_SEAL : Reg).el 4 k) 31 16 == 0

/-- Units [b, b+n) overlap no sealed region. -/
def Side.notSealed (x : Side) (b n : Nat) : Bool :=
  (List.range 8).all fun k => unitsApart b n (x.sealUnits k).1 (x.sealUnits k).2

/-- A region that may be sealed (R786 REGION): 2 MiB aligned, overlapping no sealed region, inside the requester's
window. -/
def Side.regionOk (x : Side) (base bytes : Nat) : Bool :=
  base % 0x200000 == 0 && decide (0 < bytes) && x.notSealed (base / 0x200000) (ceilDiv bytes 0x200000)
    && decide (x.winBase 0 ≤ base) && decide (base + bytes ≤ x.winBase 0 + x.winSize 0)

/-- Enter a region in the seal table and in LOFT_SEAL (R420, R788). -/
def Side.sealRegion (x : Side) (e : SealEntry) : Side :=
  (x.wr ((Reg.LOFT_SEAL : Reg).el 4 e.slot) (pack [(0, e.base / 0x200000), (16, ceilDiv e.bytes 0x200000)])).modHbx
    fun h => { h with seals := h.seals ++ [e] }

/-- Remove a sealed region. -/
def Side.unsealSlot (x : Side) (k : Nat) : Side :=
  (x.wr ((Reg.LOFT_SEAL : Reg).el 4 k) 0).modHbx fun h => { h with seals := h.seals.filter fun e => e.slot != k }

/-- The container that a VERIFY request names is sealed and accepted, or refused (R786, R789). -/
def Side.verify (p : Fin 4) (sig : SigCheck) (x : Side) : Side :=
  let kind := x.arg p 2
  let base := x.arg64 p 3
  let size := x.arg64 p 5
  let w := x.rd (hbxReq p 7)
  let x := x.passBridle 19 ⟨true, base, size, none⟩
  let h := parseHead (x.loftGet base 512)
  let r := x.containerResult base size kind false sig
  match x.freeSeal with
  | some k =>
    if x.regionOk base size then
      if r = 0 then
        let e : SealEntry := { slot := k, kind := kind, base := base, bytes := size, digest := bytesWords h.digest
                               stall := if kind = 2 || kind = 3 then fld w 2 0 else 8
                               fixed := !bit w 3, pendingVerify := false }
        (((x.sealRegion e).ownerCommit h).count Ct.HBX_VERIFY_OK).answer 0 0
      else ((x.zeroLoft base (ceilDiv size 0x200000 * 0x200000)).containerRefused).answer 0x0A r
    else x.containerRefused.answer 0x0A (if r = 0 then 0x0B else r)
  | none => x.containerRefused.answer 0x0A (if r = 0 then 0x0B else r)

/-- VERIFY (R786, R789): the region is sealed before it is hashed; a refused container's seal is removed and its region
zeroed before the request completes. Arguments: word 2 KIND, words 3–4 base, words 5–6 bytes, word 7 [2:0] stall,
[3] served. -/
def execVerify (n : Now) (d : Ch) (p : Fin 4) (sig : SigCheck) (s : State) : Host.Outcome State Fault Refusal :=
  onLive n d (fun x => x.serve p 1 (Side.verify p sig)) s

/-- The sealed region that an UNSEAL request names is released, unless its stall is still there. -/
def Side.unsealFor (p : Fin 4) (x : Side) : Side :=
  let k := x.arg p 2
  let held := x.me.hbx.seals.any fun e => e.slot == k && e.stall != 8 && x.field (Reg.PSQ_STAT.inst e.stall) 2 0 != 0
  if held || k ≥ 8 then x.answer 5 0 else (x.unsealSlot k).answer 0 0

/-- UNSEAL (R780): releases a sealed region after the removal of its stall. Argument: word 2 the region. A region whose
stall is still there is not released. -/
def execUnseal (n : Now) (d : Ch) (p : Fin 4) (s : State) : Host.Outcome State Fault Refusal :=
  onLive n d (fun x => x.serve p 2 (Side.unsealFor p)) s

/-! ## Authenticated commands (R805 to R808) -/

/-- BOOTS: the burnt LMS block fuses (R807). -/
def Side.boots (x : Side) : Nat := x.me.fuses.lmsBurnt

/-- A failed check: counted and raised, nothing else changes (R807). -/
def Side.authFail (x : Side) : Side := (x.count Ct.HBX_AUTH_FAILS).raise Ev.HBX_AUTH_FAIL

/-- The checks of R807 for a command of an opcode, its key slot, its counter and whether its tag matches. -/
def Side.authCheck (x : Side) (op slot ctr : Nat) (tagOk : Bool) : Side × Nat :=
  if x.me.fuses.retired.testBit slot then (x, 0x0B)
  else if !tagOk || slot ≥ 8 || (op = 0x0E && slot != 0) then (x.authFail, 0x0A)
  else if ctr ≤ Tbl.get 0 x.me.hbx.marks slot || ctr < x.boots * 2 ^ 40 then (x.authFail, 0x0A)
  else if ctr = 2 ^ 64 - 1 then
    let x := { x with me := { x.me with fuses := { x.me.fuses with retired := x.me.fuses.retired ||| 2 ^ slot } } }
    ((x.setFlag Reg.HBX_SLOTS slot true).raise Ev.HBX_KEY_RETIRED, 0x0B)
  else ((x.modHbx fun h => { h with marks := h.marks.put slot ctr }).count Ct.HBX_AUTH_OK, 0)

/-- The command that an AUTH_CHECK request names is checked. -/
def Side.checkAuth (p : Fin 4) (tagOk : Bool) (x : Side) : Side :=
  let pre := x.rd (hbxReq p 2)
  let f := if fld pre 7 1 = 0x7F then 17 else fld pre 7 1
  match x.findCmd f (fld pre 9 8) (x.arg p 3) with
  | none => x.answer 5 0
  | some c =>
    let (x, st) := x.authCheck c.op ((c.ext.getD 1 0).toNat % 256)
      ((c.ext.getD 2 0).toNat + 2 ^ 32 * (c.ext.getD 3 0).toNat) tagOk
    (x.modHbx fun h => { h with forCmd := some (f, fld pre 9 8, x.arg p 3) }).answer st 0

/-- AUTH_CHECK (R806 to R808): checks the pair that the request names. Arguments: word 2 the prefix of R806 ([7:1]
function, 0x7F for the network; [9:8] ring), word 3 CMD_ID. -/
def execAuthCheck (n : Now) (d : Ch) (p : Fin 4) (tagOk : Bool) (s : State) : Host.Outcome State Fault Refusal :=
  onLive n d (fun x => x.serve p 3 (Side.checkAuth p tagOk)) s

/-! ## Attestation (R810 to R814) -/

/-- Signatures of a block (R813). -/
def lmsBlock : Nat := 16384

/-- Show the attestation state in HBX_LMS_BLOCKS and HBX_LMS_LEFT. -/
def Side.showLms (x : Side) : Side :=
  (x.wrN Reg.HBX_LMS_BLOCKS x.me.fuses.lmsBurnt).wrN Reg.HBX_LMS_LEFT (lmsBlock - x.me.hbx.lmsNext)

/-- Burn the lowest unburnt block fuse and sign from the start of its block; nothing when all are burnt (R813, R814). -/
def Side.burnBlock (x : Side) : Side :=
  if x.me.fuses.lmsBurnt ≥ 65536 then x
  else (({ x with me := { x.me with fuses := { x.me.fuses with lmsBurnt := x.me.fuses.lmsBurnt + 1 } } }).modHbx
    fun h => { h with lmsNext := 0 }).showLms

/-- SEAL_DIGEST: the SHA-384 of the payload digests of the seal table, in entry order (R810). -/
def Side.sealDigest (x : Side) : List Word :=
  bytesWords (sha384 (x.me.hbx.seals.flatMap fun e => wordsBytes ((e.digest ++ List.replicate 12 0).take 12)))

/-- The body of the report (R810). -/
def Side.reportBody (x : Side) (q : Nat) (nonce : List Word) : List Word :=
  let st := x.stamp
  let img := (x.me.hbx.seals.find? fun e => e.kind == 1).map (·.digest)
  [pack [(0, 1), (8, x.d.die), (9, x.lc)], word x.boots, word q, 0]
    ++ (x.me.fuses.identity ++ List.replicate 16 0).take 16
    ++ ((img.getD []) ++ List.replicate 12 0).take 12
    ++ [pack [(0, x.me.fuses.fwFloor), (8, x.me.fuses.ownerFloor)], 0] ++ x.sealDigest ++ nonce ++ st.words ++ [st.word]
    ++ List.replicate 5 0

/-- A report with its signatures, or the reason that there is none. -/
def Side.attest (p : Fin 4) (x : Side) : Side :=
  let off := x.arg64 p 10
  if x.me.hbx.idErr || x.winSize 0 < off + 4952 then x.answer 5 0
  else if x.me.hbx.lmsNext ≥ lmsBlock && x.me.fuses.lmsBurnt ≥ 65536 then x.answer 0x0D 0
  else
    let x := if x.me.hbx.lmsNext ≥ lmsBlock then x.burnBlock else x
    let q := lmsBlock * (x.me.fuses.lmsBurnt - 1) + x.me.hbx.lmsNext
    let x := (x.modHbx fun h => { h with lmsNext := h.lmsNext + 1 }).showLms
    let (sigs, x) := x.drawN 1174
    let nonce := (List.range 8).map fun k => x.rd (hbxReq p (2 + k))
    let w := x.reportBody q nonce ++ sigs
    let at_ := x.winBase 0 + off
    let x := (x.passBridle 19 ⟨true, at_, 4 * w.length, some (wordsBytes w)⟩).loftWriteW at_ w
    (x.count Ct.HBX_ATTESTS).answer 0 0

/-- ATTEST_REQUEST (R803, R810, R813, R814): a report and its two signatures are written at the window offset; the index
is advanced before the signature is released. Arguments: words 2–9 nonce, words 10–11 window offset. -/
def execAttestRequest (n : Now) (d : Ch) (p : Fin 4) (s : State) : Host.Outcome State Fault Refusal :=
  onLive n d (fun x => x.serve p 4 (Side.attest p)) s

/-! ## Life cycle (R795 to R800) -/

/-- The permitted transitions (R797). -/
def lcPermitted (old new : Nat) : Bool :=
  (old == 0 && (new == 1 || new == 2)) || (old == 1 && new == 2) || (old == 2 && new == 3) || (new == 4 && old != 4)

/-- The Hatbox sends HALT to every pair (R782). -/
def Side.haltPairs (x : Side) : Side :=
  (List.range 4).foldl (fun x p =>
    ((x.setField (Reg.GLV_STAT.inst p) 1 0 1).modPair p fun g => { g with down := true, hbxHalt := true }).emit
      (.pairOrder p true)) x

/-- Burn the fuse of a new state with what the change burns beside it (R795, R798); the seal table is cleared (R788).
DEDUCED, note 45. -/
def Side.burnState (x : Side) (new : Nat) : Side :=
  let f := x.me.fuses
  let f := { f with lc := new, wiped := false, ownerLocked := f.ownerLocked || new == 2, scrapped := f.scrapped || new == 4 }
  let x := ({ x with me := { x.me with fuses := f } }).setField Reg.HBX_STAT 2 0 new
  let x := (List.range 8).foldl Side.unsealSlot x
  x.modHbx fun h => { h with seals := [], lcArmed := some new }

/-- A life-cycle change is refused or armed. DEDUCED, note 45. -/
def Side.changeLc (p : Fin 4) (sig : SigCheck) (x : Side) : Side :=
  let new := x.arg p 2
  let h := parseHead (x.loftGet (x.winBase 0 + x.arg64 p 4) 512)
  let tok := x.containerResult (x.winBase 0 + x.arg64 p 4) (x.arg p 6) 7 false sig
  let tokOk := h.keySet = 0 && h.flags.testBit 1
  if x.me.hbx.forCmd.isNone then x.answer 0x0A 0
  else if !lcPermitted x.lc new then x.answer 0x0A 1
  else if x.lc = 2 && new = 3 && (tok != 0 || !tokOk) then x.containerRefused.answer 0x0A (if tok = 0 then 7 else tok)
  else
    let x := x.hostAnswer 5 0 0
    let x := x.fire { cls := 0x0F, block := T.HBX, inst := 0, ev := Ev.HBX_LC_CHANGE.bit, stream := 0 }
    ((x.raise Ev.HBX_LC_CHANGE).haltPairs.burnState new).answer 0 0

/-- LIFECYCLE_REQUEST (R797 to R799): refused with NOT_PERMITTED, or armed: the ring command completes DONE at that
moment, SAFE is entered with class POLICY, every pair halts, the fuse is burnt and the overwrite begins. The command that
slot 0's request serves has been authenticated by key slot 0. Arguments: word 2 the new state, words 4–5 the window
offset of the unlock token, word 6 its bytes. -/
def execLifecycleRequest (n : Now) (d : Ch) (p : Fin 4) (sig : SigCheck) (s : State) :
    Host.Outcome State Fault Refusal :=
  onLive n d (fun x => x.serve p 5 (Side.changeLc p sig)) s

/-- Debug is unlocked by a token, or not. -/
def Side.unlockDebug (p : Fin 4) (sig : SigCheck) (x : Side) : Side :=
  let r := x.containerResult (x.winBase 0 + x.arg64 p 2) (x.arg p 4) 7 true sig
  if x.lc != 3 then x.answer 0x0A 3
  else if r != 0 then x.containerRefused.answer 0x0A r
  else ((x.setFlag Reg.HBX_STAT 5 true).count Ct.HBX_VERIFY_OK).answer 0 0

/-- DEBUG_UNLOCK (R801): only in RETURN, with a token bound to the nonce of this boot; it holds until the next cold
reset. Arguments: words 2–3 the token's window offset, word 4 its bytes. -/
def execDebugUnlock (n : Now) (d : Ch) (p : Fin 4) (sig : SigCheck) (s : State) : Host.Outcome State Fault Refusal :=
  onLive n d (fun x => x.serve p 8 (Side.unlockDebug p sig)) s

/-- An image goes to serial flash when it verifies. -/
def Side.flashWrite (p : Fin 4) (sig : SigCheck) (x : Side) : Side :=
  let base := x.winBase 0 + x.arg64 p 2
  let size := x.arg64 p 4
  let r := x.containerResult base size 1 false sig
  if x.winSize 0 < x.arg64 p 2 + size || size < 4096 || 67108864 < size then x.answer 0x0A 0x0B
  else if r != 0 then x.containerRefused.answer 0x0A r
  else (({ x with me := { x.me with flash := x.loftGet base size } }).count Ct.HBX_VERIFY_OK).answer 0 0

/-- FLASH_WRITE (R697, R780): a firmware image that verifies is written to serial flash for the next cold boot. Arguments:
words 2–3 its window offset, words 4–5 its bytes. -/
def execFlashWrite (n : Now) (d : Ch) (p : Fin 4) (sig : SigCheck) (s : State) : Host.Outcome State Fault Refusal :=
  onLive n d (fun x => x.serve p 7 (Side.flashWrite p sig)) s

/-- Random bytes of the entropy source, when its health tests pass. -/
def Side.random (p : Fin 4) (x : Side) : Side :=
  let k := x.arg p 2
  if !x.flag Reg.HBX_STAT 4 || k = 0 || 32 < k then x.answer 5 0
  else
    let (l, x) := x.drawN 8
    let b := ((wordsBytes l).take k ++ List.replicate 32 0).take 32
    x.answer 0 0 (bytesWords b)

/-- RANDOM (R780, R781): 1–32 bytes, each a free value; WINDOW_FAULT while the source's health tests fail. Argument:
word 2 the count. -/
def execRandom (n : Now) (d : Ch) (p : Fin 4) (s : State) : Host.Outcome State Fault Refusal :=
  onLive n d (fun x => x.serve p 6 (Side.random p)) s

/-! ## Ring commands that the Hatbox carries out -/

/-- FP-HOST makes a request for a ring command: its slot is written and rung. While the slot is in use the command
waits; then it is handed on (R725). -/
def Side.postRequest (x : Side) (r : CmdRef) (code : Nat) (args : List (Nat × Word)) : Side :=
  if x.me.hbx.waiting.contains 0 || x.me.hbx.forCmd.isSome then x
  else
    let x := args.foldl (fun x e => x.wr (hbxReq 0 e.1) e.2) ((x.wrN (hbxReq 0 0) code).wrN (hbxReq 0 1) r.id)
    ((x.handOn r.fn r.ring r.id).modHbx fun h => { h with forCmd := some (r.fn, r.ring, r.id) }).ringSlot 0

/-- The words of a command from k on, as arguments from word 2 on. -/
def Cmd.args (c : Cmd) (n : Nat) : List (Nat × Word) := (List.range n).map fun k => (2 + k, c.words.getD (2 + k) 0)

/-- IMAGE_UPDATE (R697): words 2–3 the image's window offset, words 4–5 its bytes. -/
def execImageUpdate (n : Now) (d : Ch) (r : CmdRef) (s : State) : Host.Outcome State Fault Refusal :=
  onLive n d (fun x => x.hostCmd r 0x0C fun c x => x.postRequest r 7 (c.args 4)) s

/-- ATTEST (R810): words 2–9 the nonce, words 10–11 the window offset. -/
def execAttest (n : Now) (d : Ch) (r : CmdRef) (s : State) : Host.Outcome State Fault Refusal :=
  onLive n d (fun x => x.hostCmd r 0x0D fun c x => x.postRequest r 4 (c.args 10)) s

/-- LIFECYCLE (R797): word 2 the new state, words 4–5 the token's window offset, word 6 its bytes. -/
def execLifecycle (n : Now) (d : Ch) (r : CmdRef) (s : State) : Host.Outcome State Fault Refusal :=
  onLive n d (fun x => x.hostCmd r 0x0E fun c x => x.postRequest r 5 (c.args 5)) s

/-! ## Entropy source (R781) -/

/-- RNG_HEALTH_FAIL (R781). -/
def execRngHealthFail (n : Now) (d : Ch) (s : State) : Host.Outcome State Fault Refusal :=
  onLive n d (fun x => (x.setFlag Reg.HBX_STAT 4 false).raise Ev.HBX_RNG_FAIL) s

/-- Fresh randomness is served; the nonce of this boot is drawn once. -/
def Side.entropyReady (x : Side) : Side :=
  let x := x.setFlag Reg.HBX_STAT 4 true
  if x.me.hbx.nonceDrawn then x
  else
    let (l, x) := x.drawN 8
    let x := (List.range 8).foldl (fun x k => x.wr (Reg.HBX_NONCE + 4 * k) (l.getD k 0)) x
    x.modHbx fun h => { h with nonceDrawn := true }

/-- ENTROPY_STARTUP_TESTS_PASS (R781): fresh randomness is served again; the nonce of this boot is drawn (R801). -/
def execEntropyStartupTestsPass (n : Now) (d : Ch) (s : State) : Host.Outcome State Fault Refusal :=
  onLive n d (fun x => x.entropyReady) s

/-! ## Crash and restart (R818) -/

/-- The Hatbox crashes. -/
def Side.hatboxCrash (x : Side) : Side :=
  let recent := x.mt :: x.me.hbx.crashes.filter fun t => decide (x.mt < t + 10 ^ 10)
  let x := { x with me := { x.me with srams := x.me.srams.drop 4 } }
  let x := (x.modHbx fun h => { h with crashes := recent }).setFlag Reg.HBX_STAT 7 true
  let x := (x.count Ct.HBX_RESTARTS).cbbRestart 0
  if recent.length ≥ 4 then x.fire { cls := 3, block := T.HBX, inst := 0, ev := Ev.HBX_RESTART.bit, stream := 0 } else x

/-- HATBOX_CRASH (R818): the Hatbox restarts; at its fourth crash within 10 s of MT the channel undergoes a fault reset
with class GLV_LIMIT. -/
def execHatboxCrash (n : Now) (d : Ch) (s : State) : Host.Outcome State Fault Refusal :=
  onLive n d (fun x =>
    if x.flag Reg.HBX_STAT 7 then x else x.hatboxCrash) s

/-- HATBOX_RESTART_DONE (R818): its request in progress completes RESTARTED, the waiting ones are served. -/
def execHatboxRestartDone (n : Now) (d : Ch) (s : State) : Host.Outcome State Fault Refusal :=
  onLive n d (fun x =>
    if !x.flag Reg.HBX_STAT 7 then x else
    let y := (x.setFlag Reg.HBX_STAT 7 false).raise Ev.HBX_RESTART
    match x.me.hbx.busy, x.me.hbx.waiting with
    | true, p :: _ => y.respond p 8 0 []
    | _, _ => y.startRequest) s

end Sys2Proof.Machine
end

