-- ==== Sys2Proof/Machine/Paging.lean ====
section
/-!
DEFINITION. The paging rules between steps and the page moves they start: spill and fill (R268 to R270), pre-emption and
swap-out (R271 to R274), readmission and swap-in (R277 to R279), lost links (R280, R281), and the step boundary commands.
-/

namespace Sys2Proof.Machine

/-! ## Spill and fill -/

/-- A page DMA unit of a stall that may move pages. DEDUCED, note 67. -/
def Side.moveUnit (x : Side) (st : Nat) : Option Nat :=
  (List.range 4).find? fun u => x.flag (Reg.PDMA_STAT.inst u) 7 && x.field (Reg.PDMA_STAT.inst u) 6 4 == st
    && x.field (Reg.PDMA_STAT.inst u) 1 0 != 3 && !x.flag Reg.SAFE_UNIT_FENCE u

/-- A move would touch a page beyond its tier's count or its window (R230): EVT_PDMA_WINDOW, and the sequence completes
WINDOW_FAULT. -/
def Side.pageWindow (x : Side) (st u i p : Nat) : Side :=
  let x := x.pdmaFault u p 1 Ev.PDMA_WINDOW Ct.PDMA_WINDOW_FAULTS
  let fs := x.seqFns st [i]
  let x := if ((x.stl st).swap.map (·.seq)) == some i then x.dropSwap st else x
  ((x.dropMoves st i).endSeq st i (x.stepNum st) 5 0).signalAll fs

/-- Pages that a sequence holds in a tier, alone or shared, highest page index first: (list entry, page). -/
def Side.ownPages (x : Side) (st i tier : Nat) : List (Nat × Nat) :=
  let n := pagesOf (x.nCtx st i)
  ((List.range n).reverse.flatMap fun p => (List.range (x.pgLayers st)).reverse.filterMap fun l =>
    let a := x.entryOf st i l p
    let pg := x.getEntry st a
    if pageTier pg = tier && (x.pstate st pg == 1 || x.pstate st pg == 2) then some (a, pg) else none)

/-- Plan the move of a page to another tier: the source is MOVING, the target is reserved under the state the page had. -/
def Side.planMove (x : Side) (st i a pg tier : Nat) : Option Side :=
  (x.lowestFree st tier).map fun q =>
    let w := x.pword st pg
    ((x.putPword st q w).putPword st pg (withPageState w 3)).modStl st fun s => { s with moves := s.moves ++ [(i, a, pg, q)] }

/-- Plan up to k moves from a list of (sequence, entry, page); a page that several sequences share moves once.
DEDUCED, note 70. -/
def Side.planMoves (x : Side) (st tier : Nat) : Nat → List (Nat × Nat × Nat) → Side
  | 0, _ => x
  | _, [] => x
  | k + 1, m :: t =>
    if x.pstate st m.2.2 = 3 then x.planMoves st tier (k + 1) t
    else match x.planMove st m.1 m.2.1 m.2.2 tier with
      | some y => y.planMoves st tier k t
      | none => x

/-- The residents, lowest priority first, latest admitted first among equals. -/
def Side.lowFirst (x : Side) (st : Nat) : List Nat := (sortBy (x.ahead st) (x.seqsIn st [2, 3, 5])).reverse

/-- Spill of R269 and fill of R270, when no moves are outstanding. -/
def Side.spillFill (x : Side) (st : Nat) : Side :=
  if !(x.stl st).moves.isEmpty then x
  else
    let free := x.freePages st 0
    let low := x.rdN (Reg.BSQ_YARD_LOW.inst st)
    let high := x.rdN (Reg.BSQ_YARD_HIGH.inst st)
    let order := x.lowFirst st
    let x :=
      if free < low then
        x.planMoves st 1 (high - free) (order.flatMap fun i => (x.ownPages st i 0).map fun e => (i, e.1, e.2))
      else if high < free then
        x.planMoves st 0 (free - high) (order.reverse.flatMap fun i => (x.ownPages st i 1).reverse.map fun e => (i, e.1, e.2))
      else x
    match x.moveUnit st with
    | some u => if (x.stl st).moves.isEmpty then x else x.setField (Reg.PDMA_STAT.inst u) 1 0 2
    | none => x

/-- Every list entry that names a page names another instead. -/
def Side.rename (x : Side) (st src dst : Nat) : Side :=
  (x.sharers st src).foldl (fun y j => (y.entriesOf st j).foldl (fun y e =>
    if y.getEntry st e.2.2 = src then y.putEntry st e.2.2 dst else y) y) x

/-- One page moves between yard and loft (R269, R270); a parity error met makes the page POISON (R284). -/
def Side.movePage (x : Side) (st u : Nat) (m : Nat × Nat × Nat × Nat) : Side :=
  let (i, _, src, dst) := m
  let n := x.pgStride st
  let w := x.pword st dst
  let x := (x.putPword st src w).modStl st fun s => { s with moves := s.moves.drop 1 }
  let x := (x.wr (Reg.PDMA_CUR_SEQ.inst u) (pack [(0, i), (8, bits w 31 24)])).wrN (Reg.PDMA_CUR_PAGE.inst u) src
  let r := x.meetBy (8 + u) st 8 (x.pageAddr st src) n
  if !x.pageOk st src || !x.pageTo st dst then (x.putPword st dst 0).pageWindow st u i (if x.pageOk st src then dst else src)
  else
  let x := r.1
  if r.2 || x.pstate st src = 4 then
    ((x.pdmaFault u src 3 Ev.PDMA_PARITY Ct.PDMA_PARITY_PAGES).poisonPage st src).putPword st dst 0
  else
    let l := x.spGet st 0 (x.pageAddr st src) n
    let x := (x.spPutBy (8 + u) st 0 (x.pageAddr st dst) l).rename st src dst
    (((x.putPword st dst w).reshare st dst).putPword st src 0).count (if pageTier src = 0 then Ct.PDMA_PAGES_SPILLED else Ct.PDMA_PAGES_FILLED) u

/-! ## Pre-emption and swap-out -/

/-- Pages of a sequence in the yard or loft that would go to the shed: its own, and shared ones whose sharers are all
PREEMPTED (R267). -/
def Side.shedable (x : Side) (st i : Nat) : List (Nat × Nat) :=
  (x.entriesOf st i).filterMap fun e =>
    let p := x.getEntry st e.2.2
    let s := x.pstate st p
    let shared := (x.seqsIn st [2, 3, 5]).any fun j => j != i && x.holdsPage st j p
    if decide (pageTier p < 2) && (s == 1 || (s == 2 && !shared)) then some (e.2.2, p) else none

/-- Tier 0 and tier 1 pages of a sequence. -/
def Side.heldPages (x : Side) (st i : Nat) : Nat :=
  ((x.entriesOf st i).filter fun e => decide (pageTier (x.getEntry st e.2.2) < 2)).length

/-- A sequence is pre-empted (R272). -/
def Side.preempt (x : Side) (st i : Nat) : Side :=
  let x := (x.dropMoves st i).putState st i 4
  ((x.putSq64 st i 20 (x.stepNum st)).count Ct.BSQ_PREEMPTIONS st).raise Ev.BSQ_PREEMPT st

/-- The choice of R271: sequences in turn until the free loft pages and those the chosen hold reach the target; shed
pages are counted out to the chosen. -/
def Side.choose (x : Side) (st : Nat) : List Nat → Nat → Nat → Nat → List Nat
  | [], _, _, _ => []
  | i :: t, have_, want, shed =>
    if want ≤ have_ then []
    else
      let n := x.heldPages st i
      if shed < n then x.choose st t have_ want shed else i :: x.choose st t (have_ + n) want (shed - n)

/-- Start the swap-out of the sequence pre-empted first that still holds yard or loft pages, when the link is up and no
swap runs (R272, R280). -/
def Side.startSwapOut (x : Side) (st : Nat) : Side :=
  if (x.stl st).swap.isSome || !x.linkUp then x
  else
    let l := sortBy (fun a b => decide (x.sq64 st a 20 < x.sq64 st b 20)) (x.seqsIn st [4])
    match l.find? fun i => !(x.shedable st i).isEmpty with
    | none => x
    | some i =>
      let pages := x.shedable st i
      if x.freePages st 2 < pages.length then x
      else
        let r := pages.foldl (fun (o : Side × List (Nat × Nat × Nat)) e =>
          match o.1.lowestFree st 2 with
          | some q => (o.1.putPword st q (o.1.pword st e.2), o.2 ++ [(e.1, e.2, q)])
          | none => o) (x, [])
        let x := r.1.modStl st fun s => { s with swap := some { seq := i, out := true, left := r.2, copied := [] } }
        match x.moveUnit st with
        | some u => x.setField (Reg.PDMA_STAT.inst u) 1 0 2
        | none => x

/-- R271: the loft is short of pages. Pages of sequences that are already going count as coming free. -/
def Side.loftRule (x : Side) (st : Nat) : Side :=
  let free := x.freePages st 1
  if free < x.rdN (Reg.BSQ_LOFT_LOW.inst st) then
    let going := ((x.seqsIn st [4]).map fun i => x.heldPages st i).sum
    let l := x.choose st (x.lowFirst st) (free + going) (x.rdN (Reg.BSQ_LOFT_HIGH.inst st)) (x.freePages st 2)
    (l.foldl (fun y i => y.preempt st i) x).updBsq st
  else x

/-- Shed offset of a page in host memory (R229, R297, R662). -/
def Side.shedHost (x : Side) (st p : Nat) : Nat :=
  x.hrd64 (Reg.SHED_BASE.inst x.d.die) + x.rd64 (Reg.PSQ_SHED_BASE.inst st) + x.shedOff st p

/-- One page is copied to the shed: bytes, CRC word, state word (R272); a poisoned one stays where it is (R291). -/
def Side.shedOut (x : Side) (st i u : Nat) (m : Nat × Nat × Nat) : Side :=
  let (_, src, dst) := m
  let n := x.pgStride st
  let r := x.meetBy (8 + u) st 8 (x.pageAddr st src) n
  if !x.pageOk st src || !x.pageOk st dst then (x.putPword st dst 0).pageWindow st u i (if x.pageOk st src then dst else src)
  else
  let x := r.1.wrN (Reg.PDMA_CUR_PAGE.inst u) src
  if r.2 then ((x.pdmaFault u src 3 Ev.PDMA_PARITY Ct.PDMA_PARITY_PAGES).poisonPage st src).putPword st dst 0
  else
    let l := x.spGet st 0 (x.pageAddr st src) n
    let w := x.pword st src
    let x := { x with hub := { x.hub with host := x.hub.host.write (x.shedHost st dst) l } }
    let x := x.modStl st fun s => { s with crc := s.crc.put dst (crc32c l) }
    let x := x.rename st src dst
    ((((x.putPword st dst w).reshare st dst).putPword st src 0).count Ct.PDMA_PAGES_SHED_OUT u).upstream.hcount Ct.SHED_PAGES_OUT x.d.die 0

/-! ## Readmission and swap-in -/

/-- Pages of a PREEMPTED sequence in the shed. -/
def Side.shedPages (x : Side) (st i : Nat) : List (Nat × Nat) :=
  (x.entriesOf st i).filterMap fun e => let p := x.getEntry st e.2.2; if pageTier p = 2 then some (e.2.2, p) else none

/-- A PREEMPTED sequence whose pages have all come back is resident again (R278, R291). -/
def Side.readmit (x : Side) (st i : Nat) : Side :=
  (x.putState st i (if x.seqHas st i 4 then 5 else if x.nCtx st i < x.promptLen st i then 2 else 3)).updBsq st

/-- R277: the first PREEMPTED sequence, by priority and then earliest pre-emption, when the loft has room for it. -/
def Side.startSwapIn (x : Side) (st : Nat) : Side :=
  if (x.stl st).swap.isSome || !x.linkUp then x
  else
    let l := sortBy (fun a b => if x.seqPrio st a = x.seqPrio st b then decide (x.sq64 st a 20 < x.sq64 st b 20) else decide (x.seqPrio st b < x.seqPrio st a)) (x.seqsIn st [4])
    match l with
    | [] => x
    | i :: _ =>
      let pages := x.shedPages st i
      let count := (x.entriesOf st i).length
      if x.freePages st 1 < x.rdN (Reg.BSQ_LOFT_HIGH.inst st) + count then x
      else if pages.isEmpty then x.readmit st i
      else
        let r := pages.foldl (fun (o : Side × List (Nat × Nat × Nat)) e =>
          match o.1.lowestFree st 1 with
          | some q => (o.1.putPword st q (o.1.pword st e.2), o.2 ++ [(e.1, e.2, q)])
          | none => o) (x, [])
        let x := r.1.modStl st fun s => { s with swap := some { seq := i, out := false, left := r.2, copied := [] } }
        match x.moveUnit st with
        | some u => x.setField (Reg.PDMA_STAT.inst u) 1 0 2
        | none => x

/-- The rules of R268 in their order. DEDUCED, note 70. -/
def Side.pagingRules (x : Side) (st : Nat) : Side :=
  ((x.spillFill st).loftRule st |>.startSwapOut st).startSwapIn st

/-- A swap ends: the unit that made it is IDLE. -/
def Side.swapOver (x : Side) (st : Nat) : Side :=
  let x := x.modStl st fun s => { s with swap := none }
  match x.moveUnit st with
  | some u => if (x.stl st).moves.isEmpty then x.setField (Reg.PDMA_STAT.inst u) 1 0 0 else x
  | none => x

/-- The link is lost during a swap (R280, R281): it is abandoned. -/
def Side.abandonSwap (x : Side) (st : Nat) : Side :=
  match (x.stl st).swap with
  | none => x
  | some w =>
    let u := (x.moveUnit st).getD 0
    let pg := match w.left with | m :: _ => m.2.1 | [] => 0
    let x := (w.left ++ w.copied).foldl (fun y m => y.putPword st m.2.2 0) x
    let x := (x.wrN (Reg.PDMA_FAULT_PAGE.inst u) pg).wrN (Reg.PDMA_FAULT_CAUSE.inst u) 5
    ((x.swapOver st).count Ct.BSQ_SWAP_ABANDONED st).raise Ev.BSQ_SWAP_ABANDON st

/-! ## The commands -/

/-- A stall that serves: RUNNING or DRAINING, its batch sequencer SERVING or HOLD. -/
def Side.serving (x : Side) (st : Nat) : Bool := x.served st && (x.psq st == 2 || x.psq st == 3) && x.bsqServes st

/-- STEP_FORM (R341): a step boundary with no step in progress and every page move made; a replacement that is due takes
effect first (R308). -/
def execStepForm (n : Now) (d : Ch) (st : Fin 8) (s : State) : Host.Outcome State Fault Refusal :=
  onLive n d (fun x =>
    if !x.serving st || x.psq st != 2 || (x.stl st).step.isSome then x
    else
      let x := (x.switchIfDue st).pagingRules st
      if !(x.stl st).moves.isEmpty then x
      else if (x.stepEngine st).isNone then x
      else (x.markRecompute st).formStep st) s

/-- STEP_COMMIT (R348): the step's program has run; it commits, is repeated, or its sequences fail. With no engine left to
repeat it on they fail at once (R154, R155). DEDUCED, note 72. -/
def execStepCommit (n : Now) (d : Ch) (st : Fin 8) (outs : List SeqOut) (s : State) : Host.Outcome State Fault Refusal :=
  onLive n d (fun x =>
    match (x.stl st).step with
    | some t =>
      if !x.serving st || !x.stepRan st t then x
      else if t.win then (x.failStep st t 5).pagingRules st
      else if (t.par || t.chk) && !t.again && (x.stepEngine st).isSome then x.repeatStep st ((x.stepEngine st).getD 0) t
      else if t.par then (x.failStep st t 4).pagingRules st
      else if t.chk || t.nonfin then (x.failStep st t 3).pagingRules st
      else (x.commitStep st t outs).pagingRules st
    | none => x) s

/-- The next spill or fill of a stall is made; after the last the unit is IDLE (R269, R270). -/
def Side.moveNext (st u : Nat) (m : Nat × Nat × Nat × Nat) (x : Side) : Side :=
  let x := x.movePage st u m
  if (x.stl st).moves.isEmpty then
    let x := if (x.stl st).swap.isNone then x.setField (Reg.PDMA_STAT.inst u) 1 0 0 else x
    if (x.stl st).step.isNone then x.markRecompute st else x
  else x

/-- PAGE_MOVE_DONE (R269, R270): the next spill or fill of the stall. -/
def execPageMoveDone (n : Now) (d : Ch) (st : Fin 8) (u : Fin 4) (s : State) : Host.Outcome State Fault Refusal :=
  onLive n d (fun x =>
    match (x.stl st).moves with
    | [] => x
    | m :: _ => if x.moveUnit st != some u.val then x else x.moveNext st u m) s

/-- A swap-out commits: every page has been copied and acknowledged (R273, R666). -/
def Side.swapOutEnd (st : Nat) (w : Swap) (x : Side) : Side :=
  let u := (x.moveUnit st).getD 0
  let x := w.left.foldl (fun y m => if (y.stl st).swap.isSome then y.shedOut st w.seq u m else y) x
  if (x.stl st).swap.isNone then x else
  let x := x.upstream.hcount Ct.SHED_FLUSH_READS x.d.die 0
  let x := (x.swapOver st).raise Ev.BSQ_SWAP_OUT st
  x.startSwapOut st

/-- SWAP_OUT_COMMIT (R273, R666). -/
def execSwapOutCommit (n : Now) (d : Ch) (st : Fin 8) (s : State) : Host.Outcome State Fault Refusal :=
  onLive n d (fun x =>
    match (x.stl st).swap with
    | some w => if !w.out || w.flight.isSome || !x.linkUp then x else x.swapOutEnd st w
    | none => x) s

/-- A page of a swap-in arrives and its CRC-32C is checked (R277, R279). -/
def Side.shedIn (st u : Nat) (w : Swap) (m : Nat × Nat × Nat) (t : List (Nat × Nat × Nat)) (x : Side) : Side :=
  let l := x.hub.host.read (x.shedHost st m.2.1) (x.pgStride st)
  if !x.pageOk st m.2.1 || !x.pageTo st m.2.2 then x.pageWindow st u w.seq (if x.pageOk st m.2.1 then m.2.2 else m.2.1)
  else
  let ok := crc32c l == Tbl.get 0 (x.stl st).crc m.2.1
  let x := x.modStl st fun s => { s with swap := some { w with left := t, copied := w.copied ++ [m], flight := w.flight.map (· - 1) } }
  let x := (x.spPutBy (8 + u) st 0 (x.pageAddr st m.2.2) l).wrN (Reg.PDMA_CUR_PAGE.inst u) m.2.2
  let x := (x.count Ct.PDMA_PAGES_SHED_IN u).upstream.hcount Ct.SHED_PAGES_IN x.d.die 0
  if ok then x
  else (x.pdmaFault u m.2.1 4 Ev.PDMA_SHED_CRC Ct.PDMA_SHED_CRC_FAIL).crcPage st m.2.2

/-- SHED_PAGE_ARRIVED (R277, R279). -/
def execShedPageArrived (n : Now) (d : Ch) (st : Fin 8) (u : Fin 4) (s : State) : Host.Outcome State Fault Refusal :=
  onLive n d (fun x =>
    match (x.stl st).swap with
    | some w =>
      match w.left with
      | m :: t => if w.out || w.flight == some 0 || !x.linkUp || x.moveUnit st != some u.val then x else x.shedIn st u w m t
      | [] => x
    | none => x) s

/-- The entries that name a shed page name its loft page, and the shed page is freed. -/
def Side.adoptPage (st : Nat) (y : Side) (m : Nat × Nat × Nat) : Side :=
  let y := (y.rename st m.2.1 m.2.2).reshare st m.2.2
  (y.putPword st m.2.1 0).modStl st fun s => { s with crc := s.crc.drop m.2.1 }

/-- SWAP_IN_COMMIT (R278): the entries name the loft pages, the shed pages are freed, the sequence is eligible. -/
def execSwapInCommit (n : Now) (d : Ch) (st : Fin 8) (s : State) : Host.Outcome State Fault Refusal :=
  onLive n d (fun x =>
    match (x.stl st).swap with
    | some w =>
      if w.out || w.flight.isSome || !w.left.isEmpty then x
      else ((((w.copied.foldl (Side.adoptPage st) x).swapOver st).readmit st w.seq).raise Ev.BSQ_SWAP_IN st).startSwapOut st
    | none => x) s

end Sys2Proof.Machine
end

