-- ==== Sys2Proof/Machine/Display.lean ====
section
/-!
DEFINITION. The display pipes and the telltale planes (R557 to R575), the display lock (R103) and display time (R38).
-/

namespace Sys2Proof.Machine

/-- What pipe p holds. -/
def Side.dpy (x : Side) (p : Nat) : DpySt := Tbl.get DpySt.zero x.me.dpy p

/-- Change it. -/
def Side.modDpy (x : Side) (p : Nat) (f : DpySt → DpySt) : Side :=
  { x with me := { x.me with dpy := x.me.dpy.put p (f (x.dpy p)) } }

/-- DPY_LOCK_p. -/
def dpyLock (p : Nat) : Reg := (Reg.DPY_LOCK : Reg).el 8 p

/-- Field [hi:lo] of a register of pipe p. -/
def Side.dpyF (x : Side) (r : Reg) (p hi lo : Nat) : Nat := x.field (r.inst p) hi lo

/-- Pixels of a line and of a frame, the pixel clock in kHz. -/
def Side.hTotal (x : Side) (p : Nat) : Nat := x.dpyF Reg.DPY_H p 29 16
def Side.frameDots (x : Side) (p : Nat) : Nat := x.hTotal p * x.dpyF Reg.DPY_V p 29 16
def Side.pclk (x : Side) (p : Nat) : Nat := max 1 (x.rdN (Reg.DPY_PCLK.inst p))

/-- The nominal period of n pixels, in ns (R38, R104). -/
def Side.dotTime (x : Side) (p n : Nat) : Nat := n * 1000000 / x.pclk p

/-- The timing of pipe p is valid (R915), for the output `out`. -/
def Side.timingOk (x : Side) (p out : Nat) : Bool :=
  let f := fun r hi lo => x.dpyF r p hi lo
  let ha := f Reg.DPY_H 13 0
  let va := f Reg.DPY_V 13 0
  let pc := x.rdN (Reg.DPY_PCLK.inst p)
  decide (25000 ≤ pc) && decide (pc ≤ 600000)
    && decide (1 ≤ ha) && decide (ha < f Reg.DPY_H 29 16) && decide (1 ≤ va) && decide (va < f Reg.DPY_V 29 16)
    && decide (1 ≤ f Reg.DPY_HSYNC 29 16) && decide (1 ≤ f Reg.DPY_VSYNC 29 16)
    && decide (ha ≤ f Reg.DPY_HSYNC 13 0) && decide (f Reg.DPY_HSYNC 13 0 + f Reg.DPY_HSYNC 29 16 ≤ f Reg.DPY_H 29 16)
    && decide (va ≤ f Reg.DPY_VSYNC 13 0) && decide (f Reg.DPY_VSYNC 13 0 + f Reg.DPY_VSYNC 29 16 ≤ f Reg.DPY_V 29 16)
    && (let lanes := f Reg.DPY_LINK_CFG 2 0
        if out < 2 then (lanes == 1 || lanes == 2 || lanes == 4) && decide (f Reg.DPY_LINK_CFG 6 3 ≤ 3)
        else decide (1 ≤ lanes) && decide (lanes ≤ 4) && decide (80 ≤ f Reg.DPY_LINK_CFG 18 7) && decide (f Reg.DPY_LINK_CFG 18 7 ≤ 2500))

/-- The pipe is enabled. -/
def Side.pipeOn (x : Side) (p : Nat) : Bool := x.flag (Reg.DPY_CTRL.inst p) 0

/-- A lock is lost (R103). -/
def Side.unlockPipe (x : Side) (p : Nat) : Side := ((x.setFlag (dpyLock p) 31 false).count Ct.CAD_DPY_UNLOCKS).raise Ev.CAD_DPY_UNLOCK

/-- The lock error e exceeds one line period. -/
def Side.lineOff (x : Side) (p e : Nat) : Bool := decide (x.hTotal p * 1000000 < e * x.pclk p)

/-- A launch of pipe p at a slot start (R99, R103): a pipe that waits for it may begin its frame now; a locked pipe
further than one line period from its launch unlocks. -/
def Side.dpyLaunch (x : Side) (p : Nat) : Side :=
  let x := x.modDpy p fun s => { s with launch := some x.mt, due := s.waits }
  match x.flag (dpyLock p) 31, (x.dpy p).start with
  | true, some (t, _) =>
    let e := x.mt - t
    let e := min e (x.dotTime p (x.frameDots p) - e)
    if x.lineOff p e then x.unlockPipe p else x
  | _, _ => x

/-- The pipe is disabled: its lock and DT end (R39, R103). -/
def Side.pipeDisabled (x : Side) (p : Nat) : Side :=
  let x := (x.setFlag (dpyLock p) 31 false).modDpy p fun s => { DpySt.zero with
    cur := s.cur, flips := s.flips, regions := s.regions, wrote := s.wrote, ttFrom := s.ttFrom }
  let x := x.wr (Reg.DPY_STAT.inst p) 0
  if x.field Reg.TIME_CTRL 3 2 = p then x.setFlag Reg.TIME_STATE 10 false else x

/-- The pipe is enabled: with its lock enabled it waits for the next launch, else it free-runs (R103). DEDUCED, note 100. -/
def Side.pipeEnabled (x : Side) (p : Nat) : Side :=
  ((x.setFlag (Reg.DPY_STAT.inst p) 0 true).setFlag (Reg.DPY_STAT.inst p) 2 true).modDpy p fun s => { s with
    start := none, line := 0, waits := x.flag (dpyLock p) 0, due := false }

/-- A write of DPY_LOCK_p.EN: set from 0, the pipe waits for the next launch; cleared, the lock ends (R103).
DEDUCED, note 139. -/
def Side.lockWritten (x : Side) (p : Nat) (was : Bool) : Side :=
  let now := x.flag (dpyLock p) 0
  if now && !was then x.modDpy p fun s => { s with waits := true, due := false }
  else if !now then (x.setFlag (dpyLock p) 31 false).modDpy p fun s => { s with waits := false, due := false }
  else x

/-- Another enabled pipe drives an output (R557). -/
def Side.outputTaken (x : Side) (p out : Nat) : Bool :=
  (List.range 4).any fun q => q != p && x.pipeOn q && x.dpyF Reg.DPY_CTRL q 2 1 == out

/-- A write of DPY_CTRL without RETRAIN (R557, R915): EN is set only over a valid timing; a pipe is not enabled on an output
that another pipe drives. DESIGN CHOICE, note 133. -/
def Side.writeDpyCtrl (x : Side) (p : Nat) (v : Word) : Side :=
  let was := x.pipeOn p
  if bit v 0 && !x.timingOk p (fld v 2 1) then x.raise Ev.DPY_CFG_ERR p
  else if bit v 0 && x.outputTaken p (fld v 2 1) then x
  else
    let x := x.store (Reg.DPY_CTRL.inst p) v
    if bit v 0 && !was then x.pipeEnabled p else if !bit v 0 && was then x.pipeDisabled p else x

/-- DPY_ENABLE (R915, R103). -/
def execDpyEnable (n : Now) (d : Ch) (w : Init) (p : Fin 4) (v : Word) (s : State) : Host.Outcome State Fault Refusal :=
  onLive n d (fun x => x.access w (Reg.DPY_CTRL.inst p) fun x => x.writeDpyCtrl p v) s

/-- DPY_CTRL.OUTPUT of a pipe selects DisplayPort. -/
def Side.isDp (x : Side) (p : Nat) : Bool := decide (x.dpyF Reg.DPY_CTRL p 2 1 < 2)

/-- DPY_RETRAIN (R565). -/
def execDpyRetrain (n : Now) (d : Ch) (w : Init) (p : Fin 4) (trains : Bool) (s : State) :
    Host.Outcome State Fault Refusal :=
  onLive n d (fun x => x.access w (Reg.DPY_CTRL.inst p) fun x =>
    if !x.pipeOn p || !x.isDp p then x
    else
      let x := x.setFlag (Reg.DPY_STAT.inst p) 2 trains
      if trains then x else x.raise Ev.DPY_LINK p) s

/-- DP_HPD_CHANGE (R565): the sink drops HPD or its training fails; its return waits for a retrain. -/
def execDpHpdChange (n : Now) (d : Ch) (p : Fin 4) (up : Bool) (s : State) : Host.Outcome State Fault Refusal :=
  onLive n d (fun x =>
    if up || !x.pipeOn p || !x.isDp p then x
    else (x.setFlag (Reg.DPY_STAT.inst p) 2 false).raise Ev.DPY_LINK p) s

/-! ## Flips and frames (R559 to R563) -/

/-- Register r of plane k of pipe p. -/
def plReg (r : Reg) (p k : Nat) : Reg := (r.inst p).el 0x20 k

/-- Arm a flip of plane k with a buffer (R560). -/
def Side.armFlip (x : Side) (p k target addr : Nat) : Side :=
  let x := if (x.dpy p).flips.any (fun e => e.1 == k) then x.count Ct.DPY_FLIPS_REPLACED p else x
  x.modDpy p fun s => { s with flips := s.flips.put k (target, addr, x.mt) }

/-- PL_FLIP (R560). -/
def execPlFlip (n : Now) (d : Ch) (w : Init) (p : Fin 4) (k : Fin 6) (v : Word) (s : State) :
    Host.Outcome State Fault Refusal :=
  onLive n d (fun x => x.access w (plReg Reg.PL_FLIP p k) fun x =>
    (x.store (plReg Reg.PL_FLIP p k) v).armFlip p k v.toNat (x.rd64 (plReg Reg.PL_ADDR p k))) s

/-- Bytes of a plane's buffer (R558). -/
def Side.planeBytes (x : Side) (p k : Nat) : Nat :=
  let n := x.field (plReg Reg.PL_SRC p k) 13 0 * x.field (plReg Reg.PL_SRC p k) 29 16
  match x.field (plReg Reg.PL_CFG p k) 3 1 with
  | 2 => n * 2
  | 4 => n * 3 / 2
  | 5 => n * 2
  | _ => n * 4

/-- A plane at a frame start (R559, R561, R562): whether it repeats, and its buffer. -/
def Side.latchPlane (x : Side) (p k frame : Nat) : Bool × Side :=
  if !x.flag (plReg Reg.PL_CFG p k) 0 then (false, x) else
  let flip := (x.dpy p).flips.find? fun e => e.1 == k
  let take := match flip with
    | some ((_, t, _, m) : Nat × Nat × Nat × Nat) => decide (signed 32 (t + 2 ^ 32 - frame % 2 ^ 32) ≤ 0) && decide (m < x.mt)
    | none => false
  let x : Side := if take then
      x.modDpy p fun s => { s with flips := s.flips.drop k, cur := s.cur.put k ((flip.map fun e => e.2.2.1).getD 0) }
    else x
  let out := decide (x.dpyF Reg.DPY_RGN p 31 16 * 0x200000 < Tbl.get 0 (x.dpy p).cur k + x.planeBytes p k)
  (!take, if out then ((x.modDpy p fun s => { s with omitted := s.omitted.add k }).count Ct.DPY_WINDOW_FAULTS p).raise Ev.DPY_WINDOW p
    else x)

/-- A telltale region latches its registers at a frame start, unless one of them was written in the same cycle (R569);
BLINK counts from the first frame in which it takes effect. -/
def Side.latchRegion (x : Side) (p r : Nat) : Side :=
  let old := Tbl.get TtSt.zero (x.dpy p).regions r
  let rd := fun q : Reg => x.rd ((q.inst (4 + p)).el 0x20 r)
  let fresh := Tbl.get 0 (x.dpy p).wrote r == x.mt && (x.dpy p).wrote.any fun e => e.1 == r
  let new := if fresh then old else { old with
    pos := rd Reg.TT_POS, size := rd Reg.TT_SIZE, rctrl := rd Reg.TT_RCTRL, bg := rd Reg.TT_BG
    crcOn := rd Reg.TT_CRC_ON, crcOff := rd Reg.TT_CRC_OFF }
  let blink := if fld new.rctrl 2 1 = 2 && fld old.rctrl 2 1 = 2 && bit new.rctrl 0 && bit old.rctrl 0 then old.blink + 1 else 0
  x.modDpy p fun s => { s with regions := s.regions.put r { new with blink := blink } }

/-- What a frame start does to the telltale plane. -/
def Side.ttFrame (x : Side) (p : Nat) : Side :=
  if !x.flag (Reg.TT_CTRL.inst (4 + p)) 0 then x else
  let x := (List.range 16).foldl (fun x r => x.latchRegion p r) x
  let x := x.setField (Reg.TT_STAT.inst (4 + p)) 15 0 0
  if x.flag (Reg.TT_STAT.inst (4 + p)) 18 then x.count Ct.DPY_TT_FRAMES (4 + p) else x

/-- Whether pipe p may start a frame now (R103, R104): a pipe that waits only at its launch; a later frame not before its
nominal period, trimmed by at most 200 ppm while it is locked. DEDUCED, note 100. -/
def Side.frameDue (x : Side) (p : Nat) : Bool :=
  let s := x.dpy p
  let t := x.dotTime p (x.frameDots p)
  if s.waits then s.due && s.launch == some x.mt
  else match s.start with
    | none => true
    | some (m, _) =>
      if x.flag (dpyLock p) 31 then decide (t * 999800 ≤ (x.mt - m) * 1000000) else decide (t ≤ x.mt - m)

/-- A frame of pipe p starts (R38, R103, R561). -/
def Side.dpyFrame (p : Nat) (x : Side) : Side :=
  let first := (x.dpy p).waits
  let frame := x.rd64 (Reg.DPY_FRAME.inst p) + 1
  let x := (x.wr64 (Reg.DPY_FRAME.inst p) frame).count Ct.DPY_FRAMES p
  let x := if first then x.setFlag (dpyLock p) 31 true else x
  let late := match (x.dpy p).launch with
    | some m => x.lineOff p (min (x.mt - m) (x.dotTime p (x.frameDots p) - (x.mt - m)))
    | none => false
  let x := if x.flag (dpyLock p) 31 && late then x.unlockPipe p else x
  let x := x.setFlag (Reg.DPY_STAT.inst p) 3 (x.dpy p).starved
  let x := x.modDpy p fun s => { s with
    start := some (x.mt, x.vt), line := 0, starved := false, omitted := [], waits := false, due := false, ttFrom := some x.mt }
  let x := if x.field Reg.TIME_CTRL 3 2 = p then
      { x with me := { x.me with time := { x.me.time with dt := x.vt } } }.setFlag Reg.TIME_STATE 10 true
    else x
  let r := (List.range 6).foldl (fun (r : Bool × Side) k =>
    let q := r.2.latchPlane p k frame
    (r.1 || q.1, q.2)) (false, x)
  let x := r.2.setFlag (Reg.DPY_STAT.inst p) 1 r.1
  let x := if r.1 then (x.count Ct.DPY_REPEATED_FRAMES p).raise Ev.DPY_REPEAT p else x
  x.ttFrame p

/-- DISPLAY_FRAME_START (R38, R103, R561). -/
def execDisplayFrameStart (n : Now) (d : Ch) (p : Fin 4) (s : State) : Host.Outcome State Fault Refusal :=
  onLive n d (fun x =>
    if !x.pipeOn p || !x.pageOn (Reg.DPY_CTRL.inst p) || !x.frameDue p then x else x.dpyFrame p) s

/-! ## Telltales (R566 to R574) -/

/-- The place of a region register. -/
def ttReg (p r : Nat) (q : TtReg) : Reg :=
  ((match q with
    | .pos => Reg.TT_POS
    | .size => Reg.TT_SIZE
    | .rctrl => Reg.TT_RCTRL
    | .bg => Reg.TT_BG
    | .crcOn => Reg.TT_CRC_ON
    | .crcOff => Reg.TT_CRC_OFF).inst (4 + p)).el 0x20 r

/-- x, y, width, height of a region; its enable. -/
def Side.ttRect (x : Side) (p r : Nat) : Nat × Nat × Nat × Nat :=
  (x.field (ttReg p r .pos) 13 0, x.field (ttReg p r .pos) 29 16, x.field (ttReg p r .size) 9 0 + 1,
    x.field (ttReg p r .size) 25 16 + 1)

/-- Enabled regions overlap, or one is too large or leaves the active area (R566). DEDUCED, note 101. -/
def Side.ttBad (x : Side) (p : Nat) : Bool :=
  let on := (List.range 16).filter fun r => x.flag (ttReg p r .rctrl) 0
  on.any fun r =>
    let (a, b, w, h) := x.ttRect p r
    decide (512 < w) || decide (512 < h) || decide (x.dpyF Reg.DPY_H p 13 0 < a + w) || decide (x.dpyF Reg.DPY_V p 13 0 < b + h)
      || on.any fun q =>
        let (a', b', w', h') := x.ttRect p q
        decide (q < r) && decide (a < a' + w') && decide (a' < a + w) && decide (b < b' + h') && decide (b' < b + h)

/-- A write of a region register (R566, R569). -/
def Side.writeTt (x : Side) (p r : Nat) (q : TtReg) (v : Word) : Side :=
  let y := (x.store (ttReg p r q) v).modDpy p fun s => { s with wrote := s.wrote.put r x.mt }
  if y.ttBad p then x.raise Ev.DPY_CFG_ERR (4 + p) else y

/-- TT_REGION_WRITE (R566). -/
def execTtRegionWrite (n : Now) (d : Ch) (w : Init) (p : Fin 4) (r : Fin 16) (reg : TtReg) (v : Word) (s : State) :
    Host.Outcome State Fault Refusal :=
  onLive n d (fun x => x.access w (ttReg p r reg) fun x => x.writeTt p r reg v) s

/-- Whether a region's icon is shown in the frame in progress (R569). -/
def TtSt.shown (t : TtSt) : Bool :=
  match fld t.rctrl 2 1 with
  | 1 => true
  | 2 => decide (t.blink % (max 1 (fld t.rctrl 18 11) + max 1 (fld t.rctrl 26 19)) < max 1 (fld t.rctrl 18 11))
  | _ => false

/-- A region as a telltale page latched it. -/
def Side.ttRegion (x : Side) (p r : Nat) : TtSt := Tbl.get TtSt.zero (x.dpy p).regions r

/-- The region is checked: its page is enabled and LOADED, the region is on, a frame has started. -/
def Side.ttLive (x : Side) (p r : Nat) : Bool :=
  x.flag (Reg.TT_CTRL.inst (4 + p)) 0 && x.flag (Reg.TT_STAT.inst (4 + p)) 18 && bit (x.ttRegion p r).rctrl 0 && (x.dpy p).start.isSome

/-- Bits set in a byte. -/
def byteOnes (b : Byte) : Nat := ((List.range 8).filter fun k => b.getLsbD k).length

/-- An upset changes bits of a byte of the icon SRAM; an odd number of them makes its parity wrong, or right again.
DEDUCED, note 81. -/
def Sram.flip (r : Sram) (e : Nat × Byte) : Sram :=
  if r.valid.contains (e.1 / 64) then
    { r with
      cells := r.cells.put e.1 (r.cells.get e.1 ^^^ e.2)
      bad := if byteOnes e.2 % 2 = 0 then r.bad else if r.bad.contains e.1 then NatSet.del r.bad e.1 else NatSet.add r.bad e.1 }
  else r

/-- The icon of a region: its first byte in the icon SRAM, its width and height. -/
def Side.iconOf (x : Side) (t : TtSt) : Nat × Nat × Nat := Config.iconBox x.me.icons.cells (fld t.rctrl 10 3)

/-- Bytes of the icon SRAM that a region reads in this frame: those of its icon inside the region. -/
def Side.iconReads (x : Side) (t : TtSt) : List Nat :=
  let (a, w, h) := x.iconOf t
  if t.shown then
    (List.range (min h (fld t.size 25 16 + 1))).flatMap fun j =>
      (List.range (4 * min w (fld t.size 9 0 + 1))).map fun i => a + 4 * w * j + i
  else []

/-- Errors of the icon SRAM that a check meets: counted, raised, the bytes used as they are (R573). -/
def Side.ttParity (x : Side) (p : Nat) (t : TtSt) : Side :=
  let k := ((x.iconReads t).filter fun a => x.me.icons.parityBad a 1).length
  if k = 0 then x else (x.countN Ct.DPY_TT_PARITY (4 + p) k).raise Ev.DPY_TT_PARITY (4 + p)

/-- A component with a straight alpha over another (R567): an alpha of 0 shows what is below, one of 255 what is above. -/
def blendOver (alpha above below : Byte) : Byte :=
  if alpha = 0 then below else if alpha = 255 then above else Config.blend alpha above below

/-- The output bytes R, G, B of pixel (i, j) of a region (R567): its icon, placed at its top-left corner, over its opaque
background; nothing of the planes below shows. DEDUCED, note 101. -/
def Side.ttPixel (x : Side) (t : TtSt) (i j : Nat) : List Byte :=
  let (a, w, h) := x.iconOf t
  let below := [2, 1, 0].map fun k => BitVec.ofNat 8 (fld t.bg (8 * k + 7) (8 * k))
  let at_ := fun k => x.me.icons.byte (a + 4 * (w * j + i) + k)
  if t.shown && decide (i < w) && decide (j < h) then
    (below.zip [2, 1, 0]).map fun e => blendOver (at_ 3) (at_ e.2) e.1
  else below

/-- The output of a region row by row, with bytes of it that went wrong on the way: place and changed bits (R570). -/
def Side.ttOutput (x : Side) (t : TtSt) (wrong : List (Nat × Byte)) : List Byte :=
  let l := (List.range (fld t.size 25 16 + 1)).flatMap fun j => (List.range (fld t.size 9 0 + 1)).flatMap fun i => x.ttPixel t i j
  wrong.foldl (fun l e => l.modify e.1 (· ^^^ e.2)) l

/-! ## The lines that a pipe drives (R557 to R559, R563, R567) -/

/-- Width and height of a plane on the screen: planes 2 to 5 do not scale (R558). -/
def Side.planeSize (x : Side) (p k : Nat) : Nat × Nat :=
  let r := plReg (if k < 2 then Reg.PL_DSTSZ else Reg.PL_SRC) p k
  (x.field r 13 0, x.field r 29 16)

/-- The loft address of the buffer that a plane scans out. -/
def Side.planeBase (x : Side) (p k : Nat) : Nat := x.dpyF Reg.DPY_RGN p 15 0 * 0x200000 + Tbl.get 0 (x.dpy p).cur k

/-- A plane is fetched in this frame: enabled, and its buffer inside the display region (R559). -/
def Side.planeOn (x : Side) (p k : Nat) : Bool := x.flag (plReg Reg.PL_CFG p k) 0 && !(x.dpy p).omitted.contains k

/-- What plane k brings to pixel i of line j: nothing outside its rectangle, or from the pixel on at which its fetch could
not supply it (R563). -/
def Side.planeAt (x : Side) (p : Nat) (starved : List (Fin 6 × Nat)) (i j k : Nat) : Option (List Nat × List Byte) :=
  let d := x.rd (plReg Reg.PL_DST p k)
  let z := x.planeSize p k
  if x.planeOn p k && decide (fld d 13 0 ≤ i) && decide (i < fld d 13 0 + z.1) && decide (fld d 29 16 ≤ j) && decide (j < fld d 29 16 + z.2)
      && starved.all (fun e => e.1.val != k || decide (i < e.2)) then
    some ([x.rdN (plReg Reg.PL_CFG p k), x.rdN (plReg Reg.PL_SRC p k), z.1, z.2, i - fld d 13 0, j - fld d 29 16],
      x.loftGet (x.planeBase p k) (x.planeBytes p k))
  else none

/-- A plane hides what is below it: opaque, with a constant alpha of 255. -/
def hides (c : Nat) : Bool := c / 16 % 4 == 0 && c / 64 % 256 == 255

/-- The planes that show at a pixel, bottom first: from the highest that hides what is below it on (R557, R558). -/
def Side.planesAt (x : Side) (p : Nat) (starved : List (Fin 6 × Nat)) (i j : Nat) : List (List Nat × List Byte) :=
  ((List.range 6).filterMap (x.planeAt p starved i j)).foldl (fun l e => if hides (e.1.headD 0) then [e] else l ++ [e]) []

/-- The enabled telltale region that covers a pixel. -/
def Side.ttAt (x : Side) (p i j : Nat) : Option TtSt :=
  if !x.flag (Reg.TT_CTRL.inst (4 + p)) 0 then none
  else ((List.range 16).map (x.ttRegion p)).find? fun t => bit t.rctrl 0
    && decide (fld t.pos 13 0 ≤ i) && decide (i ≤ fld t.pos 13 0 + fld t.size 9 0)
    && decide (fld t.pos 29 16 ≤ j) && decide (j ≤ fld t.pos 29 16 + fld t.size 25 16)

/-- The bytes R, G, B of an output pixel: a telltale region replaces the planes entirely (R567), and shows its background
until the atlas is loaded (R568). DESIGN CHOICE, note 172. -/
def Side.outPixel (x : Side) (p : Nat) (starved : List (Fin 6 × Nat)) (i j : Nat) : List Byte :=
  match x.ttAt p i j with
  | some t =>
    let t := if x.flag (Reg.TT_STAT.inst (4 + p)) 18 then t else { t with rctrl := setFld t.rctrl 2 1 0 }
    x.ttPixel t (i - fld t.pos 13 0) (j - fld t.pos 29 16)
  | none => [0, 1, 2].map (Config.dpyPixel (x.planesAt p starved i j))

/-- The planes' fetches of a line pass bridle 14 (R447). -/
def Side.fetchLine (x : Side) (p j : Nat) : Side :=
  (List.range 6).foldl (fun x k =>
    let d := x.field (plReg Reg.PL_DST p k) 29 16
    let h := (x.planeSize p k).2
    if x.planeOn p k && decide (d ≤ j) && decide (j < d + h) then
      x.passBridle 14 ⟨true, x.planeBase p k + x.planeBytes p k * (j - d) / h, x.planeBytes p k / h, none⟩
    else x) x

/-- A line of pipe p starts, of the frame that began at VT v (R38): the active line before it has been driven (R557), except
what starved in it (R563). DESIGN CHOICE, note 172. -/
def Side.dpyLine (p v : Nat) (starved : List (Fin 6 × Nat)) (x : Side) : Side :=
  let j := (x.dpy p).line
  let lost := starved.any fun e => x.planeOn p e.1
  let once := (x.dpy p).starved
  let x := if j < x.dpyF Reg.DPY_V p 13 0 then
      (x.fetchLine p j).emit (.dpyPixels p j ((List.range (x.dpyF Reg.DPY_H p 13 0)).flatMap fun i => x.outPixel p starved i j))
    else x
  let x := x.modDpy p fun s => { s with line := j + 1, starved := s.starved || lost }
  let x := if x.field Reg.TIME_CTRL 3 2 = p && x.flag Reg.TIME_STATE 10 then
      { x with me := { x.me with time := { x.me.time with dt := v + x.dotTime p ((j + 1) * x.hTotal p) } } }
    else x
  let x := if lost then x.count Ct.DPY_UNDERRUNS p else x
  if lost && !once then x.raise Ev.DPY_UNDERRUN p else x

/-- DPY_LINE_START (R38, R563): DT advances by a line period; `starved` are planes whose fetch failed in the line before, each
with the first pixel that it could not supply. -/
def execDpyLineStart (n : Now) (d : Ch) (p : Fin 4) (starved : List (Fin 6 × Nat)) (s : State) :
    Host.Outcome State Fault Refusal :=
  onLive n d (fun x =>
    match x.pipeOn p, (x.dpy p).start with
    | true, some (_, v) => x.dpyLine p v starved
    | _, _ => x) s

/-- The check code that a region's output pixels should have: TT_CRC_ON while its icon shows, else TT_CRC_OFF. -/
def TtSt.expected (t : TtSt) : Word := if t.shown then t.crcOn else t.crcOff

/-- A region differs from what it should show (R571): at CRC_N differences in a row the page is FAULTED. -/
def Side.ttWrong (p r : Nat) (t : TtSt) (x : Side) : Side :=
  let i := 4 + p
  let x := x.modDpy p fun s => { s with regions := s.regions.put r { t with bad := t.bad + 1 } }
  let x := ((x.setFlag (Reg.TT_STAT.inst i) r true).count Ct.DPY_TT_CRC_FAIL i).raise Ev.DPY_TT_CRC i
  if t.bad + 1 = max 1 (x.field (Reg.TT_CTRL.inst i) 15 8) then
    (x.setFlag (Reg.TT_STAT.inst i) 16 true).raise Ev.DPY_TT_FAULT i
  else x

/-- A region's check: the CRC-32C of its output against the expected one (R570). -/
def Side.ttCheck (p r : Nat) (wrong : List (Nat × Byte)) (x : Side) : Side :=
  let t := x.ttRegion p r
  let crc := crc32c (x.ttOutput t wrong)
  let x := (x.ttParity p t).wr ((Reg.TT_CRC_LAST.inst (4 + p)).el 0x20 r) crc
  if crc = t.expected then x.modDpy p fun s => { s with regions := s.regions.put r { t with bad := 0 } }
  else x.ttWrong p r t

/-- TELLTALE_CRC_CHECK (R567, R570, R571, R573): `flips` are bits of the icon SRAM that an upset has changed, `wrong` bytes
of the region's output that went wrong behind the plane. -/
def execTelltaleCrcCheck (n : Now) (d : Ch) (p : Fin 4) (r : Fin 16) (wrong flips : List (Nat × Byte)) (s : State) :
    Host.Outcome State Fault Refusal :=
  onLive n d (fun x =>
    let x := { x with me := { x.me with icons := flips.foldl Sram.flip x.me.icons } }
    if x.ttLive p r then x.ttCheck p r wrong else x) s

/-- TELLTALE_STALL (R572): no frame started within twice the nominal period. -/
def execTelltaleStall (n : Now) (d : Ch) (p : Fin 4) (s : State) : Host.Outcome State Fault Refusal :=
  onLive n d (fun x =>
    let i := 4 + p.val
    let t := x.dotTime p (x.frameDots p)
    match x.flag (Reg.TT_CTRL.inst i) 0 && !x.flag (Reg.TT_STAT.inst i) 17, (x.dpy p).ttFrom with
    | true, some m =>
      if t ≠ 0 ∧ m + 2 * t ≤ x.mt then
        ((x.setFlag (Reg.TT_STAT.inst i) 17 true).count Ct.DPY_TT_STALLS i).raise Ev.DPY_TT_STALL i
      else x
    | _, _ => x) s

/-- Bytes of the icon SRAM (R568). -/
def iconBytes : Nat := 0x100000

/-- The atlas of a telltale page lies in a sealed region. -/
def Side.atlasSealed (x : Side) (p : Nat) : Bool :=
  let a := x.rd64 (Reg.TT_ATLAS.inst (4 + p))
  (List.range 8).any fun k =>
    let g := x.rd ((Reg.LOFT_SEAL : Reg).el 4 k)
    decide (fld g 15 0 * 0x200000 ≤ a) && decide (a + iconBytes ≤ (fld g 15 0 + fld g 31 16) * 0x200000)

/-- The icon SRAM takes the atlas; every page then reads LOADED. -/
def Side.loadAtlas (p : Nat) (x : Side) : Side :=
  let a := x.rd64 (Reg.TT_ATLAS.inst (4 + p))
  let ram : Sram := { cells := Mem.write [] 0 (x.loftGet a iconBytes), valid := List.range (iconBytes / 64), bad := [] }
  let x := { x with me := { x.me with icons := ram } }
  (List.range 4).foldl (fun x q => x.setFlag (Reg.TT_STAT.inst (4 + q)) 18 true) x

/-- TELLTALE_ATLAS_LOAD (R568): the atlas comes from a sealed region. -/
def execTelltaleAtlasLoad (n : Now) (d : Ch) (p : Fin 4) (s : State) : Host.Outcome State Fault Refusal :=
  onLive n d (fun x =>
    if !x.flag (Reg.TT_CTRL.inst (4 + p)) 0 || x.flag (Reg.TT_STAT.inst (4 + p)) 18 || !x.atlasSealed p
        || !x.pageOn (Reg.TT_CTRL.inst (4 + p)) then x
    else x.loadAtlas p) s

end Sys2Proof.Machine
end

