-- ==== Sys2Proof/Machine/Surfaces.lean ====
section
/-!
DEFINITION. What the raster cluster's work reads and writes: swizzled surfaces (R548, R549), the texture caches and L2
(R550, R551), the window check (R532), the blend, depth and stencil operations (R546).
-/

namespace Sys2Proof.Machine

/-- Change what the cluster holds. -/
def Side.modGfx (x : Side) (f : GfxSt → GfxSt) : Side := { x with me := { x.me with gfx := f x.me.gfx } }

/-- A context becomes FAULTED with a cause: 1 WINDOW, 2 BUDGET_KILL (R532, R540). -/
def Side.faultCtx (x : Side) (c cause : Nat) : Side :=
  (x.setField (Reg.GFX_CTX_STAT.inst (c + 1)) 2 0 2).setField (Reg.GFX_CTX_STAT.inst (c + 1)) 5 3 cause

/-! ## Layout -/

/-- Texels of a tile across and down, for b bytes per texel (R548). A sector has an eighth of each. -/
def tileSize (b : Nat) : Nat × Nat :=
  if b = 1 then (64, 64) else if b = 2 then (64, 32) else if b = 4 then (32, 32) else if b = 8 then (32, 16) else (16, 16)

/-- The bits of x and y in turn from bit 0 upward, n of each; the bits of x that remain lie above (R549). -/
def interleave : Nat → Nat → Nat → Nat
  | 0, x, _ => x
  | n + 1, x, y => x % 2 + 2 * (y % 2) + 4 * interleave n (x / 2) (y / 2)

/-- The byte offset of texel (x, y) in a surface of a width with b bytes per texel (R549). -/
def texelOffset (width b x y : Nat) : Nat :=
  let (tw, th) := tileSize b
  let (sw, sh) := (tw / 8, th / 8)
  let perRow := ceilDiv width tw
  let sector := y % th / sh * 8 + x % tw / sw
  (y / th * perRow + x / tw) * 4096 + sector * 64 + interleave (Nat.log2 sh) (x % sw) (y % sh) * b

/-! ## Caches -/

/-- Lines of 64 bytes that a cache has room for: 1,024 in the texture cache of a core, 65,536 in L2, which has number 12. -/
def cacheRoom (c : Nat) : Nat := if c = 12 then 65536 else 1024

/-- A line that a cache holds. -/
def Side.cached (x : Side) (c line : Nat) : Option CacheLine := x.me.gfx.lines.find? fun l => l.cache == c && l.line == line

/-- Change the caches. -/
def Side.modLines (x : Side) (f : List CacheLine → List CacheLine) : Side :=
  { x with me := { x.me with gfx := { x.me.gfx with lines := f x.me.gfx.lines } } }

/-- A cache gives up a line. -/
def Side.dropLine (x : Side) (c line : Nat) : Side := x.modLines fun l => l.filter fun e => !(e.cache == c && e.line == line)

/-- The lines that the caches have replaced during some work, as (cache, line). -/
def Side.dropLines (x : Side) (l : List (Fin 13 × Nat)) : Side := l.foldl (fun x e => x.dropLine e.1 e.2) x

/-- A cache takes a line in; the one it took in first leaves a full cache. DESIGN CHOICE, note 99. -/
def Side.fillLine (x : Side) (c ctx line : Nat) (bytes : List Byte) : Side :=
  x.modLines fun l =>
    let mine := l.filter fun e => e.cache == c
    let out := if cacheRoom c ≤ mine.length then mine.head?.map (·.line) else none
    l.filter (fun e => !(e.cache == c && out == some e.line)) ++ [{ cache := c, ctx := ctx, line := line, bytes := bytes, bad := [] }]

/-- A line that a cache holds without a parity error; one with an error is invalidated (R430, R551). -/
def Side.goodLine (x : Side) (c line : Nat) : Option CacheLine × Side :=
  match x.cached c line with
  | none => (none, x)
  | some e => if e.bad.isEmpty then (some e, x) else (none, (x.dropLine c line).count Ct.GFX_PARITY_FIXED)

/-- A line as L2 delivers it, fetched from the loft when L2 does not hold it, through bridle 13 (R447). -/
def Side.l2Line (x : Side) (ctx line : Nat) : List Byte × Side :=
  match x.goodLine 12 line with
  | (some e, x) => (e.bytes, x)
  | (none, x) =>
    let x := ((x.passBridle 13 ⟨true, 64 * line, 64, none⟩).loftMeet (64 * line) 64).1
    (x.loftGet (64 * line) 64, x.fillLine 12 ctx line (x.loftGet (64 * line) 64))

/-- A line as the texture cache of a core delivers it. -/
def Side.texLine (x : Side) (core ctx line : Nat) : List Byte × Side :=
  match x.goodLine core line with
  | (some e, x) => (e.bytes, x)
  | (none, x) =>
    let r := x.l2Line ctx line
    (r.1, r.2.fillLine core ctx line r.1)

/-- n bytes at loft address a through the caches: by the texture cache of a core, or by L2 alone (12). -/
def Side.cacheRead (x : Side) (c ctx a n : Nat) : List Byte × Side :=
  let first := a / 64
  let r := (List.range (if n = 0 then 0 else (a + n - 1) / 64 + 1 - first)).foldl (fun (r : List Byte × Side) k =>
    let q := if c = 12 then r.2.l2Line ctx (first + k) else r.2.texLine c ctx (first + k)
    (r.1 ++ q.1, q.2)) ([], x)
  ((r.1.drop (a % 64)).take n, r.2)

/-- A line with the bytes of a write at loft address a in it, with their parity (R401). -/
def patchLine (e : CacheLine) (a : Nat) (l : List Byte) : CacheLine :=
  let hit := fun i => decide (a ≤ 64 * e.line + i) && decide (64 * e.line + i < a + l.length)
  { e with
    bytes := e.bytes.mapIdx fun i v => if hit i then (l[64 * e.line + i - a]?).getD v else v
    bad := e.bad.filter fun i => !hit i }

/-- A write of the cluster: the loft takes it through bridle 13 (R447), and L2 stays coherent with it (R550). -/
def Side.cacheWrite (x : Side) (a : Nat) (l : List Byte) : Side :=
  ((x.passBridle 13 ⟨true, a, l.length, some l⟩).loftWrite a l).modLines fun q =>
    q.map fun e => if e.cache = 12 then patchLine e a l else e

/-- A job boundary of a context (R550): the texture caches give up its lines. -/
def Side.jobBoundary (x : Side) (ctx : Nat) : Side := x.modLines fun l => l.filter fun e => !(e.cache != 12 && e.ctx == ctx)

/-- An upset changes a byte, by loft address, of a line that a cache holds: its parity is wrong (R403). -/
def Side.lineUpset (x : Side) (e : Nat × Nat) : Side :=
  x.modLines fun l => l.map fun q => if q.cache = e.1 && q.line = e.2 / 64 then { q with bad := q.bad.add (e.2 % 64) } else q

/-! ## Accesses -/

/-- The loft address of an offset of a context's window. -/
def Side.gfxAddr (x : Side) (c off : Nat) : Nat := x.field (Reg.GFX_CTX_RGN.inst (c + 1)) 15 0 * 0x200000 + off

/-- Context ctx may make an access of `len` bytes at an offset of the window of context c (R532): of its own window, or for
the compositor a read of an enabled context's window; a write into a sealed region is a window fault too (R420). -/
def Side.gfxMay (x : Side) (ctx c off len : Nat) (write : Bool) : Bool :=
  (c == ctx || (ctx == 0 && !write && x.flag (Reg.GFX_CTX_CFG.inst (c + 1)) 0))
    && decide (off + len ≤ x.field (Reg.GFX_CTX_RGN.inst (c + 1)) 31 16 * 0x200000) && !(write && x.inSeal (x.gfxAddr c off) len)

/-- An access that fails its check (R532) is not performed; its context becomes FAULTED. -/
def Side.gfxFault (x : Side) (ctx off : Nat) : Side :=
  ((x.wr64 (Reg.GFX_CTX_FAULT.inst (ctx + 1)) off).faultCtx ctx 1).raise Ev.GFX_WINDOW (ctx + 1) |>.count Ct.GFX_WINDOW_FAULTS

/-- An access of the work of context ctx on a core (R532, R550): a read delivers its data to the core, zero when its check
fails. DESIGN CHOICE, note 99. -/
def Side.gfxAccess (x : Side) (core ctx : Nat) (a : GfxAccess) : Side :=
  let ok := x.gfxMay ctx a.ctx a.off a.len a.write.isSome
  match a.write with
  | some l => if ok then x.cacheWrite (x.gfxAddr a.ctx a.off) (l.take a.len) else x.gfxFault ctx a.off
  | none =>
    if ok then
      let r := x.cacheRead core ctx (x.gfxAddr a.ctx a.off) a.len
      r.2.emit (.shaderData core a.off r.1)
    else (x.gfxFault ctx a.off).emit (.shaderData core a.off (List.replicate a.len 0))

/-! ## Fragments -/

/-- The offset of a fragment's texel in the window, in one surface of its pass. -/
def fragOff (t : Surface) (f : Frag) : Nat := t.off + texelOffset t.width t.bpt f.x f.y

/-- What a fragment's pixel holds in a surface; zero where its check fails. -/
def Side.pixel (x : Side) (ctx : Nat) (f : Frag) (t : Surface) : List Byte × Side :=
  if x.gfxMay ctx ctx (fragOff t f) t.bpt true then x.cacheRead 12 ctx (x.gfxAddr ctx (fragOff t f)) t.bpt
  else (List.replicate t.bpt 0, x)

/-- A fragment commits (R545, R546): the blend, depth and stencil operations of its pass take what its pixel holds in every
surface and what the fragment brings, and each surface's texel is written. DESIGN CHOICE, note 99. -/
def Side.commitFrag (ctx : Nat) (p : Pass) (x : Side) (f : Frag) : Side :=
  let r := p.targets.foldl (fun (r : List (List Byte) × Side) t =>
    let q := r.2.pixel ctx f t
    (r.1 ++ [q.1], q.2)) ([], x)
  (p.targets.zipIdx).foldl (fun x e =>
    let l := (List.range e.1.bpt).map fun k => Config.rop p.state r.1 f.data e.2 k
    if x.gfxMay ctx ctx (fragOff e.1 f) e.1.bpt true then x.cacheWrite (x.gfxAddr ctx (fragOff e.1 f)) l
    else x.gfxFault ctx (fragOff e.1 f)) r.2

/-- Fragments in ascending sequence number of their primitives, those of one primitive as they come. -/
def insertFrag (f : Frag) : List Frag → List Frag
  | [] => [f]
  | g :: t => if f.prim < g.prim then f :: g :: t else g :: insertFrag f t
def inOrder (l : List Frag) : List Frag := l.foldl (fun o f => insertFrag f o) []

end Sys2Proof.Machine
end

