-- ==== Sys2Proof/Machine/Raster.lean ====
section
/-!
DEFINITION. The raster cluster and the compositor (R530 to R556).
-/

namespace Sys2Proof.Machine

/-- A core is powered: cores 0–5 lie in GFX0, 6–11 in GFX1 (R530). -/
def Side.corePowered (x : Side) (c : Nat) : Bool := x.domOn (if c < 6 then 12 else 13)

/-- GFX_CTX_STAT.STATE of a context. -/
def Side.ctxState (x : Side) (c : Nat) : Nat := x.field (Reg.GFX_CTX_STAT.inst (c + 1)) 2 0

/-- The accepted command of a job. -/
def Side.jobCmd (x : Side) (j : GJob) : Option Cmd := (x.fn j.fn).accepted.find? fun k => k.ring == j.ring && k.id == j.id

/-- Jobs whose command is still to be completed. A command that completed otherwise (an instance reset, a restart) takes
its job with it. -/
def Side.liveJobs (x : Side) : List GJob := x.me.gfx.jobs.filter fun j => (x.jobCmd j).isSome

/-- A job is the one a reference names. -/
def GJob.is (j : GJob) (r : CmdRef) : Bool := j.fn == r.fn.val && j.ring == r.ring.val && j.id == r.id

/-- Change the job of a core or reference. -/
def Side.modJob (x : Side) (fn ring id : Nat) (f : GJob → GJob) : Side :=
  x.modGfx fun g => { g with jobs := g.jobs.map fun j => if j.fn = fn && j.ring = ring && j.id = id then f j else j }

/-- A job completes with a status and leaves; its job boundary is reached (R550). The compositor's cores are free again. -/
def Side.jobDone (x : Side) (j : GJob) (status : Nat) : Side :=
  let x := match x.jobCmd j with
    | some c => x.complete j.fn c status
    | none => x
  (x.jobBoundary j.ctx).modGfx fun g => { g with
    jobs := g.jobs.filter fun k => !(k.fn == j.fn && k.ring == j.ring && k.id == j.id)
    rob := g.rob.filter fun h => !(h.fn == j.fn && h.ring == j.ring && h.id == j.id)
    comp := if j.comp.isSome && j.started then [] else g.comp
    claimed := if j.comp.isSome && j.started then [] else g.claimed }

/-- The context that a job uses: the one that the physical function names, or the one that its virtual function is mapped
to (R535). DEDUCED, note 98. -/
def Side.jobCtx (x : Side) (r : CmdRef) (j : GfxJob) : Nat := if r.fn.val = 0 then j.ctx.val else (x.mappedCtx r.fn).getD 0

/-- A job is queued in its context; its command is handed on. DEDUCED, note 98. -/
def Side.queueJob (r : CmdRef) (j : GfxJob) (c : Cmd) (x : Side) : Side :=
  let ctx := x.jobCtx r j
  let x := x.handOn r.fn c.ring c.id
  let tiles := (j.pass.bind (·.binned)).map fun b => (List.range b.2).flatMap fun ty => (List.range b.1).map fun tx => (tx, ty)
  let groups := (j.pass.map fun p => ceilDiv p.prims.length 64).getD j.groups
  let job : GJob := { fn := r.fn, ring := r.ring, id := r.id, ctx := ctx
                      left := (tiles.map List.length).getD groups, running := 0, pass := j.pass, tiles := tiles, owners := []
                      next := 0, ended := [], frags := 0, comp := j.comp, started := false, abort := false }
  x.modGfx fun g => { g with jobs := g.jobs ++ [job] }

/-- GFX_JOB (R531, R535, R552): a context that is DISABLED accepts no work. -/
def execGfxJob (n : Now) (d : Ch) (r : CmdRef) (j : GfxJob) (s : State) : Host.Outcome State Fault Refusal :=
  onLive n d (fun x => x.hostCmd r 0x06 fun c x =>
    if x.me.gfx.jobs.any fun j => j.is r then x
    else if x.ctxState (x.jobCtx r j) = 0 || (j.comp.isSome != (x.jobCtx r j == 0)) then x.complete r.fn c 0x05
    else x.queueJob r j c) s

/-- Mark a job's command past dispatch (R536). At its first workgroup a job boundary of its context is passed (R550). -/
def Side.fixJob (x : Side) (j : GJob) : Side :=
  (if j.next = 0 then x.jobBoundary j.ctx else x).modFn j.fn fun s => { s with accepted := s.accepted.map fun k => if k.ring = j.ring && k.id = j.id then { k with fixed := true } else k }

/-- The tile that a core takes of a BINNED job: its first remaining tile that it owns (R543). -/
def GJob.tileFor (j : GJob) (core : Nat) : Option (Nat × Nat) :=
  (j.tiles.getD []).find? fun t => j.owners[(t.1 + 3 * t.2) % max 1 j.owners.length]? == some core

/-- The cores a context may use: those beside 0 and 1 that are powered and not the compositor's (R538, R543). -/
def Side.ownersNow (x : Side) : List Nat :=
  (List.range 12).filter fun c => decide (2 ≤ c) && x.corePowered c && !x.me.gfx.comp.contains c && !x.me.gfx.claimed.contains c

/-- The ROP partition that owns the block of a fragment (R545). -/
def ropOf (f : Frag) : Nat := (f.x / 8 + 2 * (f.y / 8)) % 4

/-- Fragments that the reorder buffer of a partition holds. -/
def ropHeld (l : List HeldFrag) (p : Nat) : Nat := (l.filter fun h => ropOf h.frag == p).length

/-- A job is an IMMEDIATE pass. -/
def GJob.immediate (j : GJob) : Bool := j.pass.any fun p => p.binned.isNone

/-- A partition's reorder buffer of 4,096 fragments is full: later primitives are not dispatched (R545). -/
def Side.robFull (x : Side) : Bool := (List.range 4).any fun p => decide (4096 ≤ ropHeld x.me.gfx.rob p)

/-- A job has a workgroup for a core. -/
def Side.hasWork (x : Side) (j : GJob) (core : Nat) : Bool :=
  decide (0 < j.left) && !j.abort && j.comp.isNone && !(j.immediate && x.robFull)
    && (j.tiles.isNone || (if j.owners.isEmpty then { j with owners := x.ownersNow }.tileFor core else j.tileFor core).isSome)

/-- The first job of a context that has work for a core. -/
def Side.ctxJob (x : Side) (c core : Nat) : Option GJob :=
  if x.ctxState c = 1 && x.flag (Reg.GFX_CTX_CFG.inst (c + 1)) 0 then x.liveJobs.find? fun j => j.ctx == c && x.hasWork j core
  else none

/-- The context that a free core serves: highest PRIO, round-robin among equals (R538). -/
def Side.nextCtx (x : Side) (core : Nat) : Option Nat :=
  let order := (List.range 15).map fun k => (x.me.gfx.rr + k) % 15 + 1
  let l := order.filter fun c => (x.ctxJob c core).isSome
  let prio := fun c => x.field (Reg.GFX_CTX_CFG.inst (c + 1)) 2 1
  ([3, 2, 1, 0] : List Nat).findSome? fun p => l.find? fun c => prio c == p

/-- A core may take a workgroup: it is powered, free and not the compositor's; FP-GFX runs; thermal stage 3 has not begun
(R835). -/
def Side.coreFree (x : Side) (core : Nat) : Bool :=
  !(decide (core < 2) || !x.corePowered core || x.me.gfx.cores.any (fun e => e.1 == core) || x.me.gfx.comp.contains core
    || x.me.gfx.claimed.contains core || (x.pair 3).down || decide (3 ≤ x.thermal))

/-- A core takes a workgroup of a job of context c. -/
def Side.runWorkgroup (core c : Nat) (j : GJob) (x : Side) : Side :=
  let owners := if j.tiles.isSome && j.owners.isEmpty then x.ownersNow else j.owners
  let t := { j with owners := owners }.tileFor core
  let x := (x.fixJob j).modJob j.fn j.ring j.id fun k => { k with
    left := k.left - 1, running := k.running + 1, owners := owners, next := k.next + 1
    tiles := k.tiles.map fun l => match t with | some q => l.erase q | none => l }
  x.modGfx fun g => { g with
    rr := c
    cores := g.cores.put core { fn := j.fn, ring := j.ring, id := j.id, ctx := c, at_ := x.mt, tile := t, batch := j.next } }

/-- WORKGROUP_DISPATCH (R536, R538, R543, R544). -/
def execWorkgroupDispatch (n : Now) (d : Ch) (core : Fin 12) (s : State) : Host.Outcome State Fault Refusal :=
  onLive n d (fun x =>
    if !x.coreFree core then x else
    match x.nextCtx core with
    | none => x
    | some c =>
      match x.ctxJob c core with
      | none => x
      | some j => x.runWorkgroup core c j) s

/-- A claimed core whose workgroup has ended joins the compositor (R539). -/
def Side.joinComp (x : Side) (core : Nat) : Side :=
  x.modGfx fun g => if g.claimed.contains core then { g with claimed := g.claimed.del core, comp := g.comp.add core } else g

/-- An aborted job with no workgroup running completes ABORTED (R535). -/
def Side.abortCheck (x : Side) : Side :=
  match x.liveJobs.find? fun j => j.abort && j.running == 0 with
  | some j => x.jobDone j 0x06
  | none => x

/-- The workgroup that a core runs. -/
def Side.workOn (x : Side) (core : Nat) : Option CoreRun := (x.me.gfx.cores.find? fun e => e.1 == core).map (·.2)

/-- The fragments of a workgroup that belong to it: of its tile, or of the primitives of its batch in blocks these touch. -/
def CoreRun.mine (r : CoreRun) (p : Pass) (f : Frag) : Bool :=
  (p.prims[f.prim]?.getD []).contains (f.x / 8, f.y / 8)
    && (if p.binned.isSome then r.tile == some (f.x / 32, f.y / 32) else f.prim / 64 == r.batch)

/-- A fragment of an IMMEDIATE pass may commit: the batches of all earlier primitives that touch its block have ended, so
their fragments commit before it or with it (R545). -/
def fragReady (p : Pass) (ended : NatSet) (f : Frag) : Bool :=
  (List.range f.prim).all fun k => !(p.prims[k]?.getD []).contains (f.x / 8, f.y / 8) || ended.contains (k / 64)

/-- The job of a core's workgroup. -/
def Side.jobAt (x : Side) (r : CoreRun) : Option GJob :=
  x.liveJobs.find? fun j => j.fn == r.fn && j.ring == r.ring && j.id == r.id

/-- The batches of a job that have ended once a core's workgroup has. -/
def GJob.endedWith (j : GJob) (r : CoreRun) : NatSet := NatSet.add j.ended r.batch

/-- Fragments that a reorder buffer has to take when a workgroup ends. -/
def newlyHeld (j : GJob) (p : Pass) (r : CoreRun) (frags : List Frag) : List HeldFrag :=
  ((frags.filter (r.mine p)).filter fun f => p.binned.isNone && !fragReady p (j.endedWith r) f).map fun f =>
    { fn := j.fn, ring := j.ring, id := j.id, frag := f }

/-- The reorder buffers have room for the fragments of a workgroup; until then the core waits with them. -/
def Side.robFits (x : Side) (r : CoreRun) (frags : List Frag) : Bool :=
  match x.jobAt r with
  | some j => j.pass.all fun p =>
    let l := newlyHeld j p r frags
    (List.range 4).all fun q => ropHeld l q == 0 || decide (ropHeld x.me.gfx.rob q + ropHeld l q ≤ 4096)
  | none => true

/-- The fragments of a workgroup that ends reach the ROP partitions (R543, R545, R546): a BINNED tile's commit in the order
of their primitives; those of an IMMEDIATE batch that are ready commit in that order with the held ones that have become
ready, the others are held back. -/
def Side.shade (r : CoreRun) (frags : List Frag) (x : Side) : Side :=
  match x.jobAt r with
  | none => x
  | some j => match j.pass with
    | none => x
    | some p =>
      let mine := frags.filter (r.mine p)
      let ended := j.endedWith r
      let ours := fun (h : HeldFrag) => h.fn == j.fn && h.ring == j.ring && h.id == j.id
      let waiting := (x.me.gfx.rob.filter ours).map (·.frag)
      let go := (waiting ++ mine).filter fun f => p.binned.isSome || fragReady p ended f
      let x := x.modJob r.fn r.ring r.id fun k => { k with ended := ended, frags := k.frags + mine.length }
      let x := x.modGfx fun g => { g with
        rob := g.rob.filter (fun h => !(ours h && fragReady p ended h.frag)) ++ newlyHeld j p r frags }
      (inOrder go).foldl (Side.commitFrag r.ctx p) x

/-- A core's workgroup ends: `acc` are the accesses it made. DESIGN CHOICE, note 99. -/
def Side.endWorkgroup (core : Nat) (r : CoreRun) (acc : List GfxAccess) (w : Shaded) (x : Side) : Side :=
  let x := w.parity.foldl (fun x e => x.lineUpset (e.1.val, e.2)) (x.dropLines w.gone)
  let x := acc.foldl (fun x a => x.gfxAccess core r.ctx a) x
  let x := (x.shade r w.frags).count Ct.GFX_WG_DONE
  let x := x.modGfx fun g => { g with cores := g.cores.drop core }
  ((x.modJob r.fn r.ring r.id fun j => { j with running := j.running - 1 }).joinComp core).abortCheck

/-- WORKGROUP_END (R535, R537, R539, R545, R551). -/
def execWorkgroupEnd (n : Now) (d : Ch) (core : Fin 12) (acc : List GfxAccess) (w : Shaded) (s : State) :
    Host.Outcome State Fault Refusal :=
  onLive n d (fun x =>
    match x.workOn core with
    | none => x
    | some r => if x.robFits r w.frags then x.endWorkgroup core r acc w else x) s

/-- A claimed core's workgroup is killed: its context is FAULTED, its job completes LATE. -/
def Side.killWorkgroup (core : Nat) (r : CoreRun) (x : Side) : Side :=
  let x := x.modGfx fun g => { g with cores := g.cores.drop core }
  let x := ((x.faultCtx r.ctx 2).count Ct.GFX_WG_KILLED).raise Ev.GFX_WG_KILL
  let x := match x.jobAt r with
    | some j => x.jobDone j 0x02
    | none => x
  x.joinComp core

/-- The workgroup of a core ends in the cycle of the command before: its end stands at the front of the queue, among the ends
of other cores, with no time of the die between them. DEDUCED, note 149. -/
def sameEnds (d : Ch) (core : Nat) : List Instr → Bool
  | .workgroupEnd n c k _ _ :: t => n.on d == 0 && ((c == d && k.val == core) || sameEnds d core t)
  | _ => false

/-- WORKGROUP_KILL (R540, R541): a claimed core's workgroup has run for 200 µs; one that ends in that cycle of its own accord
stands as completed. -/
def execWorkgroupKill (n : Now) (d : Ch) (core : Fin 12) (s : State) : Host.Outcome State Fault Refusal :=
  onLive n d (fun x =>
    match x.workOn core with
    | none => x
    | some r =>
      if !x.me.gfx.claimed.contains core.val || x.mt < r.at_ + 200000 || sameEnds d core s.pending then x
      else x.killWorkgroup core r) s

/-! ## The compositor (R539, R552 to R555) -/

/-- The VT instant at which display frame f of pipe p starts (R552): counted from the last frame start, at the interval
of the pipe's launches while it is locked, at its nominal period otherwise. -/
def Side.frameAt (x : Side) (p f : Nat) : Int :=
  let m := max 1 (x.field (dpyLock p) 21 11)
  let c := x.me.cad
  let t := if x.flag (dpyLock p) 31 then m * c.period / max 1 c.slots else x.dotTime p (x.frameDots p)
  let base := ((x.dpy p).start.map (·.2)).getD x.vt
  (base : Int) + ((f : Int) - (x.rd64 (Reg.DPY_FRAME.inst p) : Int)) * t

/-- A compositor job runs on cores 0 and 1. -/
def Side.compBusy (x : Side) : Bool := x.liveJobs.any fun j => j.comp.isSome && j.started

/-- The cores a job claims beside 0 and 1: powered ones from 11 downward (R539), none from thermal stage 3 on (R835). -/
def Side.claims (x : Side) (k : CompJob) : List Nat :=
  let m := clampN 2 (clampN 2 12 (x.field Reg.GFX_COMP_CFG 3 0)) k.cores - 2
  ((([11, 10, 9, 8, 7, 6, 5, 4, 3, 2] : List Nat).filter x.corePowered).take (if 3 ≤ x.thermal then 0 else m))

/-- The job that a reference names. -/
def Side.jobOf (x : Side) (r : CmdRef) : Option GJob := x.liveJobs.find? fun j => j.is r

/-- A compositor job may start: none runs, its context is READY, core 0 is powered, its latest start has not passed. -/
def Side.compReady (x : Side) (j : GJob) (k : CompJob) : Bool :=
  !(j.started || x.compBusy || x.ctxState 0 != 1 || !x.corePowered 0 || decide (x.frameAt k.pipe k.frame - k.budget < x.vt))

/-- A compositor job starts on cores 0 and 1 and on those it claims that are free. -/
def Side.startComp (j : GJob) (k : CompJob) (x : Side) : Side :=
  let l := x.claims k
  let busy := l.filter fun c => x.me.gfx.cores.any fun e => e.1 == c
  let x := (x.fixJob j).modJob j.fn j.ring j.id fun q => { q with started := true }
  x.modGfx fun g => { g with
    comp := (l.filter fun c => !busy.contains c).foldl NatSet.add [0, 1]
    claimed := busy.foldl NatSet.add [] }

/-- COMP_JOB_START (R539): its fences are signalled and cores 0 and 1 are free, not later than its latest start. -/
def execCompJobStart (n : Now) (d : Ch) (r : CmdRef) (s : State) : Host.Outcome State Fault Refusal :=
  onLive n d (fun x =>
    match x.jobOf r with
    | some j => match j.comp with
      | some k => if x.compReady j k then x.startComp j k else x
      | none => x
    | none => x) s

/-- COMP_LATEST_START (R553): a job not started by its latest start is dropped. -/
def execCompLatestStart (n : Now) (d : Ch) (r : CmdRef) (s : State) : Host.Outcome State Fault Refusal :=
  onLive n d (fun x =>
    match x.jobOf r with
    | some j => match j.comp with
      | some k =>
        if j.started || x.vt < x.frameAt k.pipe k.frame - k.budget then x
        else ((x.jobDone j 0x02).count Ct.GFX_COMP_DROPPED).raise Ev.GFX_COMP_MISS
      | none => x
    | none => x) s

/-- A compositor job commits: it arms its flip when it meets its display frame. -/
def Side.commitComp (j : GJob) (k : CompJob) (acc : List GfxAccess) (gone : List (Fin 13 × Nat)) (x : Side) : Side :=
  let x := acc.foldl (fun x a => x.gfxAccess 0 0 a) (x.dropLines gone)
  let x := x.count Ct.GFX_COMP_JOBS
  let x := if x.vt < x.frameAt k.pipe k.frame then (x.wrN (plReg Reg.PL_FLIP k.pipe k.plane) (k.frame % 2 ^ 32)).armFlip k.pipe k.plane (k.frame % 2 ^ 32) k.addr
    else (x.count Ct.GFX_COMP_OVERRUN).raise Ev.GFX_COMP_MISS
  x.jobDone j 0

/-- A raster job's workgroups have ended in a READY context, and it was not aborted. -/
def Side.rasterOver (x : Side) (j : GJob) : Bool := !(j.left != 0 || j.running != 0 || j.abort || x.ctxState j.ctx != 1)

/-- The primitives, the shaded fragments and the 32 × 32 tiles touched of a pass (R547). -/
def GJob.hint (j : GJob) (p : Pass) : Nat × Nat × Nat :=
  (p.prims.length, j.frags, (p.prims.flatten.map fun b => (b.1 / 4, b.2 / 4)).dedup.length)

/-- A raster job commits; a pass leaves its hints (R547). -/
def Side.commitRaster (j : GJob) (x : Side) : Side :=
  (x.modGfx fun g => { g with hints := (j.pass.map fun p => g.hints.put j.ctx (j.hint p)).getD g.hints }).jobDone j 0

/-- JOB_COMMIT (R535, R547, R554, R555): a raster job commits when its workgroups have ended. -/
def execJobCommit (n : Now) (d : Ch) (r : CmdRef) (acc : List GfxAccess) (gone : List (Fin 13 × Nat)) (s : State) :
    Host.Outcome State Fault Refusal :=
  onLive n d (fun x =>
    match x.jobOf r with
    | some j => match j.comp with
      | some k => if !j.started then x else x.commitComp j k acc gone
      | none =>
        if x.rasterOver j then x.commitRaster j else x
    | none => x) s

/-- An abort of a job that has not committed (R535): it completes at once when no workgroup of it runs. -/
def Side.abortJob (x : Side) (fn ring id : Nat) : Side :=
  (x.modJob fn ring id fun j => { j with abort := true }).abortCheck

end Sys2Proof.Machine
end

