-- ==== Sys2Proof/Machine/Blocks.lean ====
section
/-!
DEFINITION. What every page has in common: whether its block has work in progress, BLK_STAT (R867), which pages a die
has (R865), and what a page and a power domain lose with their supply (R823, R825).
-/

namespace Sys2Proof.Machine

/-- A stall that is not EMPTY. -/
def Side.held (x : Side) (st : Nat) : Bool := x.psq st != 0

/-- The batch sequencer of a stall is at rest: OFF, QUIESCED or HALTED. -/
def Side.bsqRest (x : Side) (st : Nat) : Bool := [0, 3, 4].contains (x.field (Reg.BSQ_STAT.inst st) 2 0)

/-- The block of a page has no work in progress. DEDUCED, note 16. -/
def Side.blockIdle (x : Side) (t i : Nat) : Bool :=
  if t = T.TE then !([1, 2, 3].contains (x.teState i)) && (x.eng i).run.isNone
  else if t = T.PSQ then if x.served i then x.bsqRest i else !(x.psq i == 2 || x.psq i == 3)
  else if t = T.BSQ then x.bsqRest i
  else if t = T.PDMA then !([1, 2].contains (x.field (Reg.PDMA_STAT.inst i) 1 0))
  else if t = T.GDMA then x.me.mem.gdmaZero.isEmpty
  else if t = T.YARD then x.me.mem.zeroing.isEmpty && x.me.mem.mirrorPending.isEmpty && x.me.mem.refetch.isEmpty
  else if t = T.LOFT then x.me.mem.wipe.isEmpty && x.me.mem.wb.isEmpty
  else if t = T.BRDL then (x.me.bridles.all fun b => b.1 != i || (b.2.held.isEmpty && b.2.out.isEmpty))
  else if t = T.GFX then if i = 0 then x.me.gfx.cores.isEmpty && x.me.gfx.comp.isEmpty else x.liveJobs.all fun j => j.ctx + 1 != i
  else if t = T.DPY then if i < 4 then !x.pipeOn i else !x.flag (Reg.TT_CTRL.inst i) 0
  else if t = T.SNS then !x.flag (Reg.SNS_STAT.inst i) 1
  else if t = T.FUS then x.me.fus.proj.isNone && x.me.fus.trk.isNone
  else if t = T.NET then x.me.net.ports.all fun p => p.1 != i || (p.2.tx.isEmpty && p.2.queue.isEmpty)
  else if t = T.CANG then (x.canQueue i).isEmpty
  else if t = T.CBB then x.me.cbb.queue.isEmpty && x.me.cbb.held.isEmpty
  else if t = T.SAFE then x.me.safe.msgs.isEmpty
  else if t = T.GLV then x.field (Reg.GLV_STAT.inst i) 1 0 == 1
  else if t = T.HBX then !x.me.hbx.busy
  else if t = T.REC then x.me.recorder.queue.isEmpty && x.me.recorder.export_.isNone && x.me.recorder.replay.isNone
  else true

/-- BLK_CTRL of a page. -/
def Side.blkCtrl (x : Side) (t i : Nat) : Word := x.rd (headReg t i Reg.BLK_CTRL)

/-- QUIESCED: QUIESCE is set and no work is in progress; a fixed stall is QUIESCED once it is HALTED (R316), a served one
as R335 gives. -/
def Side.quiesced (x : Side) (t i : Nat) : Bool := bit (x.blkCtrl t i) 1 && x.blockIdle t i

/-- The block holds a fence, or is FAULTED, DEGRADED or HALTED. -/
def Side.blockFault (x : Side) (t i : Nat) : Bool :=
  if t = T.TE then x.flag (Reg.TE_FENCE.inst i) 0
  else if t = T.PSQ then x.psq i == 4
  else if t = T.BSQ then x.field (Reg.BSQ_STAT.inst i) 2 0 == 4
  else if t = T.PDMA then x.flag Reg.SAFE_UNIT_FENCE i
  else if t = T.FUS then x.flag Reg.SAFE_UNIT_FENCE 4
  else if t = T.GFX then i != 0 && x.ctxState (i - 1) == 2
  else if t = T.GLV then x.flag (Reg.GLV_STAT.inst i) 2 || x.field (Reg.GLV_STAT.inst i) 1 0 == 1
  else if t = T.SAFE then x.safeState == 3 || x.rd Reg.SAFE_UNIT_FENCE != 0 || x.rd Reg.SAFE_BANK_FENCE != 0
  else if t = T.DPY then decide (4 ≤ i) && x.flag (Reg.TT_STAT.inst i) 16
  else false

/-- What BLK_STAT reads (R867). DEDUCED, note 16. -/
def Side.blkStat (x : Side) (t i : Nat) : Word :=
  pack [(0, nat1 (bit (x.blkCtrl t i) 0)), (1, nat1 (x.quiesced t i)), (2, nat1 (!x.blockIdle t i)), (3, nat1 (x.blockFault t i))]

/-- How many pages a block has on a channel die (R865). -/
def pagesOnDie (t : Nat) : Nat :=
  if t = T.SNS || t = T.TE || t = T.PSQ || t = T.BSQ || t = T.DPY then 8
  else if t = T.PDMA || t = T.GLV then 4
  else if t = T.BRDL then 21
  else if t = T.GFX || t = T.CANG then 17
  else if t = T.NET then 10
  else if 1 ≤ t && t ≤ 0x1A then 1
  else 0

/-- How many pages a block has on the hub. -/
def pagesOnHub (t : Nat) : Nat :=
  if t = T.PWR || t = T.EVA || t = T.HUB_PCI || t = T.HUB_PEER then 1
  else if t = T.HUB_IOV then 34
  else if t = T.HUB_SHED then 2
  else 0

/-- Every page of a channel die, as (type code, instance). -/
def diePages : List (Nat × Nat) := (List.range 0x1B).flatMap fun t => (List.range (pagesOnDie t)).map fun i => (t, i)

/-! ## What is kept -/

/-- The bits of a register of a channel die that lie in AON, or that a fault reset keeps (R825, R872): a page of AON
whole, else the registers and fields that their chapters name. -/
def keepMask (a : Reg) : Word :=
  let t := a / 0x40000
  let i := a % 0x40000 / 0x1000
  let o := a % 0x1000
  let lock := o == Reg.LOCK
  if lock && pageDomain t i == 23 then (if t = T.TIME || t = T.CAD then 0xFFFFFFFF else 0)
  else if pageDomain t i = 23 then 0xFFFFFFFF
  else if t = T.LOFT then
    if a = Reg.LOFT_CFG || a = Reg.LOFT_CAP || lock || (Reg.LOFT_SEAL ≤ a && a < Reg.LOFT_SEAL + 32) then 0xFFFFFFFF
    else if a = Reg.LOFT_STAT then 3 else 0
  else if t = T.TE then if 0x60 ≤ o && o < 0x84 then 0xFFFFFFFF else 0
  else if t = T.SAFE then
    if a = Reg.SAFE_UNIT_FENCE || a = Reg.SAFE_BANK_FENCE then 0xFFFFFFFF else if a = Reg.SAFE_STAT then 0xF000 else 0
  else if t = T.GLV then if o = 0x40 then 0xC else 0
  else if t = T.NET then
    if i == 9 && (lock || [0x40, 0x44, 0x48, 0x58, 0x5C, 0x60].contains o) then 0xFFFFFFFF else 0
  else if t = T.FUS then
    if lock || o = 0x48 || (0x50 ≤ o && o < 0x60) then 0xFFFFFFFF else if o = 0x44 then 1 else 0
  else if t = T.HBX then if a = Reg.HBX_LMS_BLOCKS || a = Reg.HBX_LMS_LEFT || a = Reg.HBX_SLOTS then 0xFFFFFFFF else 0
  else if t = T.ID then (if lock then 0 else 0xFFFFFFFF)
  else 0

/-- The bits of a register that a die keeps: STATE of a fenced engine is FENCED as long as its fence stands (R114, R152). -/
def Side.kept (x : Side) (a : Reg) : Word :=
  if a / 0x40000 = T.TE && a % 0x1000 = 0x40 && x.flag (Reg.TE_FENCE.inst (a % 0x40000 / 0x1000)) 0 then 7 else keepMask a

/-- The pages that `pick` selects, by type code and instance, return to their reset values but for what is kept. -/
def Side.dropPages (x : Side) (pick : Nat → Nat → Bool) : Side :=
  let keep := fun (e : Nat × Word) =>
    if pick (e.1 / 0x40000) (e.1 % 0x40000 / 0x1000) then
      if x.kept e.1 = 0 then none
      else some (e.1, (e.2 &&& x.kept e.1) ||| (resetOf x.d.die e.1 &&& ~~~(x.kept e.1)))
    else some e
  { x with me := { x.me with regs := x.me.regs.filterMap keep } }

/-! ## What a domain loses -/

/-- Every valid bit of the die is cleared (R424). DEDUCED, note 168. -/
def Side.wipeSrams (x : Side) : Side :=
  { x with me := { x.me with tiles := [], accs := [], icons := Sram.zero, srams := [], mem := { x.me.mem with yard := Sram.zero, yardFixed := [], yardSeen := [], refetch := [] } } }

/-- What a domain that is switched off loses beside its pages (R823). -/
def Side.dropState (x : Side) (dom : Nat) : Side :=
  if dom < 8 then { x with me := { x.me with tiles := x.me.tiles.drop dom, engines := x.me.engines.drop dom,
                                             accs := x.me.accs.filter fun b => b.1 / 8 != dom } }
  else if dom < 12 then x.dropBanks (8 * (dom - 8)) 8
  else if dom = 12 then { x with me := { x.me with gfx := { GfxSt.zero with jobs := x.me.gfx.jobs } } }
  else if dom = 13 then x.modLines fun l => l.filter fun e => e.cache < 6 || e.cache == 12
  else if dom = 14 then { x with me := { x.me with dpy := [], icons := Sram.zero, srams := x.me.srams.filter fun m => m.1 < 8 } }
  else if dom = 15 then x.modFus fun u => { u with sen := u.sen.map fun e => (e.1, { e.2 with intake := none }) }
  else if dom = 16 then { x with me := { x.me with fus := FusSt.zero } }
  else if dom = 17 then { x.netCut with me := { x.netCut.me with net := NetSt.zero } }
  else if dom = 18 then x.modMem fun m => { m with wb := [], refetch := [], mirrorPending := [] }
  else if dom = 19 then
    let x := x.modMem fun m => { m with gdmaZero := [] }
    { x with me := { x.me with recorder := RecSt.zero, cbb := CbbSt.zero,
                               stalls := x.me.stalls.map fun e => (e.1, { StallSt.zero with cfg := e.2.cfg }) } }
  else if dom = 20 then { x with me := { x.me with srams := x.me.srams.filter fun m => 4 ≤ m.1 } }
  else if dom = 22 then { x with me := { x.me with srams := x.me.srams.drop 4 } }.modHbx fun h => { h with waiting := [], busy := false, uses := [], answer := none, forCmd := none, nonceDrawn := false }
  else x

/-- Every display pipe is disabled: the pages that follow a pipe show it, DT_VALID (R39) and each LOCKED (R103). -/
def Side.pipesOff (x : Side) : Side :=
  (List.range 4).foldl (fun (x : Side) p => x.setFlag (dpyLock p) 31 false) (x.setFlag Reg.TIME_STATE 10 false)

/-- A domain is switched off: its pages read zero and ignore writes from now on, and its memories lose their content. -/
def Side.cutDomain (x : Side) (dom : Nat) : Side :=
  let x := (x.dropState dom).dropPages fun t i => pageDomain t i == dom
  let x := if dom = 14 then x.pipesOff else x
  (x.setFlag Reg.PWR_DOM_STAT dom false).modGfx id

end Sys2Proof.Machine
end

