-- ==== Sys2Proof/Machine/Instances.lean ====
section
/-!
DEFINITION. The host link and the hub's reset (R636, R637, R653, R825), the later phases of an instance reset (R654 to
R661), and the ring command ABORT (R721, R722).
-/

namespace Sys2Proof.Machine

/-! ## The link -/

/-- A channel that loses the link abandons its swaps (R280, R281, R668). A channel in reset has none. -/
def Side.linkLost (x : Side) : Side :=
  let x := x.hsetFlag (Reg.SHED_STAT.inst x.d.die) 0 false
  if x.live then (List.range 8).foldl Side.abandonSwap x else x

/-- The link goes down (R637, R668): counted and raised; no instance is reset. From then on the peer traffic stops (R16). -/
def State.loseLink (s : State) : State :=
  let s := { s with hub := { s.hub with linkLost := true } }.onSide .a fun x => x.hwr Reg.PCI_LINK_STAT 0
  let s := (s.hubCount Ct.PCI_LINK_DOWNS 0).raiseBoth Ev.HUB_PCI_LINK
  (s.onSide .a fun x => x.linkLost.settle).onSide .b fun x => x.linkLost.settle

/-- PCIE_LINK_DOWN (R637, R668). -/
def execPcieLinkDown (n : Now) (s : State) : Host.Outcome State Fault Refusal :=
  let s := s.elapse n
  if s.hub.down || !(s.side .a).hflag Reg.PCI_LINK_STAT 8 then .next s else .next s.loseLink

/-- A channel whose link is back: a swap-out that waited for it starts (R280). -/
def Side.linkBack (x : Side) : Side :=
  if x.live then
    (List.range 8).foldl (fun x st => if x.stallServed st && x.bsqServes st then x.startSwapOut st else x) x
  else x

/-- The pending vectors of a channel that may be sent, as function × 64 + vector: unmasked, of a function whose Bus
Master Enable is set (R652). -/
def Side.waitingVecs (x : Side) : List Nat :=
  x.hub.pending.filter fun k => k / 64 / 17 == x.d.die && x.hub.unmasked.contains k && x.hub.busMaster.contains (k / 64)

/-- A pending vector is sent. -/
def Side.sendVec (x : Side) (k : Nat) : Side :=
  { x with hub := { x.hub with pending := x.hub.pending.del k } }.msix (k / 64 % 17) (k % 64)

/-- Two lists in turn, the first list first; the rest of the longer one follows. -/
def alternate : List (Ch × Nat) → List (Ch × Nat) → List (Ch × Nat)
  | a :: s, b :: t => a :: b :: alternate s t
  | [], t => t
  | s, [] => s

/-- The messages that wait for the link go, the two channels' in turn (R637, R667); the channel that did not issue the
last upstream request begins. DESIGN CHOICE, note 122. -/
def State.sendWaiting (s : State) : State :=
  let l := fun d => (s.side d).waitingVecs.map fun k => (d, k)
  (alternate (l s.hub.lastUp.peer) (l s.hub.lastUp)).foldl (fun s e => s.onSide e.1 fun x => x.sendVec e.2) s

/-- The rate and width a link trains to: the highest that the other end (`rate`, `width`) and PCI_LINK_CFG allow (R635). -/
def linkRate (cfg : Word) (rate : Nat) : Nat := min rate (fld cfg 3 0)
def linkWidth (cfg : Word) (width : Nat) : Nat := min width (fld cfg 7 4)

/-- A rate and a width that the endpoint supports (R634). DEDUCED, note 84. -/
def linkOk (rate width : Nat) : Bool := decide (1 ≤ rate) && decide (rate ≤ 5) && [1, 2, 4, 8].contains width

/-- The link comes up at a rate and width; a training of a link that is up counts as a retraining (R636). DEDUCED, note 84. -/
def State.gainLink (s : State) (r w : Nat) : State :=
  let was := (s.side .a).hflag Reg.PCI_LINK_STAT 8
  let s := { s with hub := { s.hub with linkLost := false } }.onSide .a fun x =>
    x.hwr Reg.PCI_LINK_STAT (pack [(0, r), (4, w), (8, 1), (9, nat1 (decide (r < 5) || decide (w < 8)))])
  let s := (if was then s.hubCount ⟨T.HUB_PCI, 1, 0xFFFFFFFF⟩ 0 else s).raiseBoth Ev.HUB_PCI_LINK
  let s := s.onSide .a fun x => (x.hsetFlag (Reg.SHED_STAT.inst 0) 0 true).hsetFlag (Reg.SHED_STAT.inst 1) 0 true
  let s := s.sendWaiting
  (s.onSide .a fun x => x.linkBack.settle).onSide .b fun x => x.linkBack.settle

/-- PCIE_LINK_UP (R635 to R637): the link trains. -/
def execPcieLinkUp (n : Now) (rate : Fin 6) (width : Fin 9) (s : State) : Host.Outcome State Fault Refusal :=
  let s := s.elapse n
  let cfg := (s.side .a).hrd Reg.PCI_LINK_CFG
  let r := linkRate cfg rate
  let w := linkWidth cfg width
  if s.hub.down || !linkOk r w then .next s else .next (s.gainLink r w)

/-! ## Reset of the hub (R825) -/

/-- The hub without its HUB and PCIEPHY domains: their pages return to reset, the MSI-X state, the enables and the peer
traffic are lost. The pages of Rhordo and the doorbell latches, like those of HUBAON, stay. -/
def Hub.cut (h : Hub) : Hub :=
  { h with
    regs := h.regs.filter fun e => !(T.HUB_PCI ≤ e.1 / 0x40000 && e.1 / 0x40000 ≤ T.HUB_PEER)
    down := true, linkLost := false, unmasked := [], pending := [], busMaster := [], vfEnable := [], toA := PeerLane.zero, toB := PeerLane.zero }

/-- A channel sees the hub go: its swaps end with the link. -/
def Side.hubLost (x : Side) : Side := if x.live then (List.range 8).foldl Side.abandonSwap x else x

/-- The hub's domains go down. -/
def State.hubCut (s : State) : State :=
  let s := (s.onSide .a fun x => x.hubLost.settle).onSide .b fun x => x.hubLost.settle
  let off := fun (x : Side) => (x.hsetFlag Reg.PWR_DOM_STAT 2 false).hsetFlag Reg.PWR_DOM_STAT 3 false
  { s with hub := s.hub.cut }.onSide .a off

/-- HUB_RESET (R825, R839): PERST#, a hot reset, or the hub's own thermal emergency, which keeps it down until it has
cooled. -/
def execHubReset (n : Now) (t : HubTrigger) (s : State) : Host.Outcome State Fault Refusal :=
  let s := s.elapse n
  if s.hub.down then .next s
  else
    let s := s.hubCut
    match t with
    | .thermal => .next { s with hub := { s.hub with hot := true, cool := 0 } }
    | _ => .next s

/-- A channel's functions after the hub's return (R653): the physical function's window is configured again, and every
function is reset in SQUASH mode. -/
def Side.hubBack (x : Side) : Side :=
  let x := x.hwr (x.iov Reg.IOV_WIN 0) x.me.pfWin
  (List.range 17).foldl (fun x f => x.beginReset f true) x

/-- The hub's domains are up again. -/
def State.hubUp (s : State) : State :=
  let s := { s with hub := { s.hub with down := false, hot := false, cool := 0 } }
  let s := s.onSide .a fun x => ((x.hsetFlag Reg.PWR_DOM_STAT 2 true).hsetFlag Reg.PWR_DOM_STAT 3 true).hsetFlag Reg.PWR_THERM_STAT 3 false
  (s.onSide .a fun x => x.hubBack.settle).onSide .b fun x => x.hubBack.settle

/-- HUB_RETURN (R653, R839): not while the hub still cools. -/
def execHubReturn (n : Now) (s : State) : Host.Outcome State Fault Refusal :=
  let s := s.elapse n
  if !s.hub.down || (s.hub.hot && decide (s.hub.cool < 1000)) then .next s else .next s.hubUp

/-! ## Instance reset, phases 3 and 4 (R654 to R661) -/

/-- Phase 1 has emptied every transfer of a function: its served stall is quiesced with no shed transfer, its raster
context runs no workgroup. -/
def Side.drained (x : Side) (f : Nat) : Bool :=
  (match x.mappedStall f with
    | some st => !x.stallServed st || (x.bsqRest st && (x.stl st).swap.isNone)
    | none => true)
  && match x.mappedCtx f with
    | some c => x.me.gfx.cores.all fun e => e.2.ctx != c
    | none => true

/-- INSTANCE_RESET_DRAINED (R654): DRAINING becomes CLEANUP. -/
def execInstanceResetDrained (n : Now) (d : Ch) (fn : Fin 17) (s : State) : Host.Outcome State Fault Refusal :=
  onAny n d (fun x => if x.iovState fn = 1 && x.drained fn then x.hsetField (x.iov Reg.IOV_STAT fn) 1 0 3 else x) s

/-- The sequences that function f submitted to other stalls. -/
def Side.cutSubmitted (x : Side) (f : Nat) : Side :=
  (List.range 8).foldl (fun x st =>
    if x.stallServed st then x.cutStallSeqs st 9 fun i => (x.seqCmd st i).map (·.1) == some f else x) x

/-- The stall mapped to a function loses its sequences, and serves again. DEDUCED, note 85. -/
def Side.resetStall (x : Side) (f : Nat) : Side :=
  match x.mappedStall f with
  | none => x
  | some st =>
    if !x.stallServed st then x
    else
      let x := (x.dropStep st).cutStallSeqs st 9 fun _ => true
      let x := ((x.dropSwap st).setFlag (headReg T.BSQ st Reg.BLK_CTRL) 1 false).updBsq st
      if x.field (Reg.BSQ_STAT.inst st) 2 0 = 3 then x.setField (Reg.BSQ_STAT.inst st) 2 0 (x.serveState st) else x

/-- The raster context mapped to a function returns to READY, its window unchanged (R534, R657). -/
def Side.resetCtx (x : Side) (f : Nat) : Side :=
  match x.mappedCtx f with
  | none => x
  | some c => x.wr (Reg.GFX_CTX_STAT.inst (c + 1)) (word (nat1 (x.flag (Reg.GFX_CTX_CFG.inst (c + 1)) 0)))

/-- Every accepted command of a function completes INSTANCE_RESET (R654); its jobs leave the cluster, its replay ends. -/
def Side.cutCommands (x : Side) (f : Nat) : Side :=
  let x := (x.fn f).accepted.foldl (fun x c => x.complete f c 9) x
  let x := x.modGfx fun g => { g with jobs := g.jobs.filter fun j => j.fn != f }
  if f = 0 then x.dropReplay else x

/-- The function's rings, doorbells and vectors are cleared. -/
def Side.clearFn (x : Side) (f : Nat) : Side :=
  let x := { x with me := { x.me with fns := x.me.fns.put f FnSt.zero } }
  let x := (List.range 7).foldl (fun x k => x.hwr ((x.iov Reg.SQ_TAIL f) + 4 * k) 0) x
  { x with hub := { x.hub with
    unmasked := x.hub.unmasked.delRange (x.fnIx f * 64) 64, pending := x.hub.pending.delRange (x.fnIx f * 64) 64 } }

/-- LEAVE_RING ends with the last of its resets (R689); a reset of the physical function ends ring mode. -/
def Side.afterReset (x : Side) (f : Nat) (leaving : Bool) : Side :=
  if leaving then
    if (List.range 17).any (fun g => (x.fn g).leaving) then x else (x.setMode 5).rmEnd 0 0
  else if f = 0 && x.mode = 6 then x.setMode 5 else x

/-- Phases 3 and 4 of an instance reset. DEDUCED, note 85. -/
def Side.finishReset (x : Side) (f : Nat) : Side :=
  let leaving := (x.fn f).leaving
  let x := ((((x.resetStall f).cutSubmitted f).cutCommands f).resetCtx f).clearFn f
  let x := (x.hsetField (x.iov Reg.IOV_STAT f) 1 0 0).hcount Ct.IOV_RESETS (x.fnIx f) f
  (x.afterReset f leaving).hraise Ev.HUB_IOV_RESET_DONE (x.fnIx 0) 0

/-- INSTANCE_RESET_DONE (R654, R655): from SQUASHING or CLEANUP, once FP-HOST runs. -/
def execInstanceResetDone (n : Now) (d : Ch) (fn : Fin 17) (s : State) : Host.Outcome State Fault Refusal :=
  onLive n d (fun x => if 2 ≤ x.iovState fn && x.pairUp 0 && !x.hub.down then x.finishReset fn else x) s

/-! ## ABORT (R721, R722) -/

/-- A command of ring k of function f, not yet accepted, has a CMD_ID; an EXT entry is no command (R711). -/
def Side.waitsInRing (x : Side) (f k id : Nat) : Bool :=
  match (x.fn f).ring k with
  | some q => (List.range (x.ringFill f k)).any fun i =>
      let a := x.entryAt f q (Tbl.get 0 (x.fn f).sqHead k + i) 64
      x.loftWord a % 256 != 0xFE && x.loftWord (a + 4) == id
  | none => false

/-- An accepted command may still be aborted (R708): GFX_JOB until its completion, SEQ_SUBMIT until its sequence's final
record, ADMIT, REMOVE, CHAN_CFG, IMAGE_UPDATE and REPLAY until their point of no return. -/
def Cmd.abortable (c : Cmd) : Bool :=
  match c.op with
  | 0x04 => true
  | 0x06 => true
  | 0x01 | 0x02 | 0x03 | 0x0C | 0x0F => !c.fixed
  | _ => false

/-- Abort an accepted command. -/
def Side.abortCmd (x : Side) (f : Nat) (c : Cmd) : Side :=
  if c.op = 0x04 && c.handed then x.cutSeq (c.w 2 % 8) (bits (c.w 2) 15 8) 6
  else if c.op = 0x06 && c.handed then x.abortJob f c.ring c.id
  else
    let x := if c.op = 0x0F then x.dropReplay else x
    x.complete f c 6

/-- The target of an ABORT commits in the same cycle: its commit stands at the front of the queue, among other commits, with
no time of the die between them (R721). DEDUCED, note 149. -/
def Side.commitsToo (x : Side) (f : Nat) (t : Cmd) : List Instr → Bool
  | .jobCommit n c q _ _ :: l =>
    n.on x.d == 0 && ((c == x.d && q.fn.val == f && q.ring.val == t.ring && q.id == t.id
      && (x.jobOf q).any fun j => if j.comp.isSome then j.started else x.rasterOver j) || x.commitsToo f t l)
  | .mirrorFillDone n c st :: l =>
    n.on x.d == 0 && ((c == x.d && x.pairUp 1 && (x.stl st).admitting.any fun a => a.2 == some (f, t.ring, t.id)) || x.commitsToo f t l)
  | .chanCfg n c q _ :: l =>
    n.on x.d == 0 && ((c == x.d && x.pairUp 1 && t.checked && t.op == 0x03 && q.fn.val == f && q.ring.val == t.ring && q.id == t.id)
      || x.commitsToo f t l)
  | _ => false

/-- ABORT: words 2 and 3 give the CMD_ID and the submission ring. -/
def execAbort (n : Now) (d : Ch) (r : CmdRef) (s : State) : Host.Outcome State Fault Refusal :=
  onLive n d (fun x => x.hostCmd r 0x07 fun c x =>
    let f := r.fn.val
    let ring := c.w 3 % 4
    match x.accepted f ring (c.w 2) with
    | some t =>
      if x.commitsToo f t s.pending then x.complete f c 7
      else if t.abortable then (x.abortCmd f t).complete f c 0
      else x.complete f c 0 2
    | none =>
      if (x.fn f).done.contains (ring, c.w 2) then x.complete f c 7
      else
        if x.waitsInRing f ring (c.w 2) then (x.modFn f fun s => { s with abortNext := s.abortNext ++ [(ring, c.w 2)] }).complete f c 0
        else x.complete f c 0 1) s

end Sys2Proof.Machine
end

