-- ==== Sys2Proof/Machine/Power.lean ====
section
/-!
DEFINITION. Power domains and claims (R815 to R824), clocks and supplies (R831 to R833), thermal stages and emergencies
(R834 to R840).
-/

namespace Sys2Proof.Machine

/-! ## Domains (R820) -/

/-- The parents of a domain: GFX1 needs GFX0 as well as LOFT. -/
def parents (dom : Nat) : List Nat :=
  if dom = 13 then [18, 12] else if dom < 18 || dom = 19 then [18] else if dom = 23 then [] else [23]

/-- A child of the domain is on. -/
def Side.childOn (x : Side) (dom : Nat) : Bool :=
  (List.range 24).any fun c => (parents c).contains dom && x.domOn c

/-- Some stall holds a resource: bit k of its register r. -/
def Side.stallHolds (x : Side) (r : Reg) (k : Nat) : Bool := (List.range 8).any fun st => x.held st && x.flag (r.inst st) k

/-- A raster context of a set is enabled. -/
def Side.ctxEnabled (x : Side) (from_ : Nat) : Bool :=
  (List.range 16).any fun c => decide (from_ ≤ c) && x.flag (Reg.GFX_CTX_CFG.inst (c + 1)) 0

/-- The condition of the column "Off in service" does not hold. -/
def Side.domInUse (x : Side) (dom : Nat) : Bool :=
  if dom < 8 then x.stallHolds Reg.PSQ_ENGINES dom
  else if dom < 12 then (List.range 8).any fun k => x.stallHolds Reg.PSQ_YARD_BANKS (8 * (dom - 8) + k)
  else if dom = 12 then x.ctxEnabled 0
  else if dom = 13 then x.ctxEnabled 1 || (x.ctxEnabled 0 && decide (6 < x.field Reg.GFX_COMP_CFG 3 0))
  else if dom = 14 then (List.range 4).any x.pipeOn || (List.range 4).any fun p => x.flag (Reg.TT_CTRL.inst (4 + p)) 0
  else if dom = 15 then x.flag Reg.FUS_CTRL 0 || bit (x.blkCtrl T.SNS 7) 0
  else if dom = 16 then x.flag Reg.FUS_CTRL 0
  else true

/-- The domains the Hatbox claims: those of HBX_CLAIM, SEC and AON (R815). DEDUCED, note 47. -/
def Side.claimed (x : Side) (dom : Nat) : Bool := dom == 22 || dom == 23 || x.flag Reg.HBX_CLAIM dom

/-! ## Requests (R821 to R824) -/

/-- Change the power sequencer. -/
def Side.modPwr (x : Side) (f : PwrSt → PwrSt) : Side := { x with me := { x.me with pwr := f x.me.pwr } }

/-- PWR_REQ_STAT: BUSY and RESULT. -/
def Side.reqStat (x : Side) (busy : Bool) (result : Nat) : Side := x.wr Reg.PWR_REQ_STAT (pack [(0, nat1 busy), (1, result)])

/-- A request is refused (R822). -/
def Side.reqRefused (x : Side) (result : Nat) : Side :=
  (((x.modPwr fun p => { p with req := none }).reqStat false result).count Ct.PWR_REQ_REFUSED).raise Ev.PWR_REQ_REFUSED

/-- Start a power-up: the domain is usable once it is done (R821). -/
def Side.startRise (x : Side) (dom : Nat) : Side := x.modPwr fun p => { p with rising := p.rising.add dom }

/-- The pages of a domain. -/
def domainPages (dom : Nat) : List (Nat × Nat) := diePages.filter fun p => pageDomain p.1 p.2 == dom

/-- Quiesce a domain before it goes off (R823). -/
def Side.startFall (x : Side) (dom : Nat) : Side :=
  let x := (domainPages dom).foldl (fun x p => x.setFlag (headReg p.1 p.2 Reg.BLK_CTRL) 1 true) x
  ((x.modPwr fun p => { p with quiescing := p.quiescing.add dom, req := some (dom, false, none) })).reqStat true 0

/-- A domain that was to go off stays on. -/
def Side.stopFall (x : Side) (dom : Nat) : Side :=
  let x := (domainPages dom).foldl (fun x p => x.setFlag (headReg p.1 p.2 Reg.BLK_CTRL) 1 false) x
  x.modPwr fun p => { p with quiescing := p.quiescing.del dom }

/-- A power-up request (R821, R822). DEDUCED, note 46. -/
def Side.reqOn (x : Side) (dom : Nat) : Side :=
  if x.domOn dom then x.reqStat false 0
  else if (parents dom).any fun p => !x.domOn p then x.reqRefused 4
  else ((x.startRise dom).modPwr fun p => { p with req := some (dom, true, none) }).reqStat true 0

/-- A power-off request (R816, R822). -/
def Side.reqOff (x : Side) (dom : Nat) : Side :=
  if 17 ≤ dom then x.reqRefused 1
  else if !x.domOn dom then x.reqStat false 0
  else if x.domInUse dom || x.childOn dom then x.reqRefused 2
  else if x.claimed dom then (x.modPwr fun p => { p with req := some (dom, false, some x.mt) }).reqStat true 0
  else x.startFall dom

/-- A write of PWR_REQ: counted; ignored while a request is BUSY; a number that names no domain does nothing more.
DEDUCED, note 46. -/
def Side.pwrReq (x : Side) (dom : Nat) (on : Bool) : Side :=
  let x := x.count Ct.PWR_REQUESTS
  if x.flag Reg.PWR_REQ_STAT 0 || 24 ≤ dom then x else if on then x.reqOn dom else x.reqOff dom

/-- PWR_REQ_ON (R821). -/
def execPwrReqOn (n : Now) (d : Ch) (w : Init) (dom : Fin 24) (s : State) : Host.Outcome State Fault Refusal :=
  onLive n d (fun x => x.access w Reg.PWR_REQ fun x => x.pwrReq dom true) s

/-- PWR_REQ_OFF (R822). -/
def execPwrReqOff (n : Now) (d : Ch) (w : Init) (dom : Fin 24) (s : State) : Host.Outcome State Fault Refusal :=
  onLive n d (fun x => x.access w Reg.PWR_REQ fun x => x.pwrReq dom false) s

/-- An admission needs a domain (R821, R824): a power-off in progress is refused with IN_USE, a domain that is off is powered
up, its parents first. -/
def Side.needDomain (x : Side) (dom : Nat) : Side :=
  let x := match x.me.pwr.req with
    | some (q, false, _) => if q = dom then (x.stopFall dom).reqRefused 2 else x
    | _ => x
  if x.domOn dom then x else x.startRise dom

/-- FP-SAFE owns the telltale pages, locked (R574). -/
def Side.ownTelltales (x : Side) : Side :=
  (List.range 4).foldl (fun (x : Side) p =>
    (x.setField (headReg T.DPY (4 + p) Reg.OWNER) 3 0 9).setFlag (headReg T.DPY (4 + p) Reg.LOCK) 0 true) x

/-- A domain comes up: its pages answer, its memories hold nothing, the zeroing of its yard banks begins (R424, R425). -/
def Side.domainUp (x : Side) (dom : Nat) : Side :=
  let x := (x.dropState dom).setFlag Reg.PWR_DOM_STAT dom true
  let x := if 8 ≤ dom && dom < 12 then
      let x := x.modMem fun m => { m with zeroing := (List.range 8).foldl (fun z k => z.add (8 * (dom - 8) + k)) m.zeroing }
      (x.setFlag Reg.YARD_STAT 1 true).count Ct.YARD_WIPES
    else if dom = 14 && decide (5 ≤ x.mode) then x.ownTelltales else x
  (x.modPwr fun p => { p with rising := p.rising.del dom }).modGfx id

/-- A domain has come up: a request for it ends. -/
def Side.risen (x : Side) (dom : Nat) : Side :=
  let x := x.domainUp dom
  match x.me.pwr.req with
  | some (q, true, _) => if q = dom then (x.modPwr fun p => { p with req := none }).reqStat false 0 else x
  | _ => x

/-- DOMAIN_POWER_UP_DONE (R821). -/
def execDomainPowerUpDone (n : Now) (d : Ch) (dom : Fin 24) (s : State) : Host.Outcome State Fault Refusal :=
  onLive n d (fun x =>
    if !x.me.pwr.rising.contains dom.val || (parents dom).any fun p => !x.domOn p then x else x.risen dom) s

/-- DOMAIN_POWER_OFF (R823): every page of the domain reports QUIESCED. -/
def execDomainPowerOff (n : Now) (d : Ch) (dom : Fin 24) (s : State) : Host.Outcome State Fault Refusal :=
  onLive n d (fun x =>
    if x.me.pwr.quiescing.contains dom.val && (domainPages dom).all fun p => x.quiesced p.1 p.2 then
      ((x.cutDomain dom).modPwr fun p => { p with quiescing := p.quiescing.del dom, req := none }).reqStat false 0
    else x) s

/-- The Hatbox claims or releases a domain (R815); a release lets a deferred request proceed (R816). DEDUCED, note 47. -/
def Side.setClaim (x : Side) (dom : Nat) (claim : Bool) : Side :=
  let x := x.setFlag Reg.HBX_CLAIM dom claim
  match x.me.pwr.req with
  | some (q, false, some _) => if q = dom && !x.claimed dom then x.startFall dom else x
  | _ => x

/-- CLAIM_CHANGE (R815, R816): the Hatbox changes a claim while its domain is on. -/
def execClaimChange (n : Now) (d : Ch) (dom : Fin 24) (claim : Bool) (s : State) : Host.Outcome State Fault Refusal :=
  onLive n d (fun x => if !x.domOn 22 then x else x.setClaim dom claim) s

/-- CLAIM_DEFER_TIMEOUT (R816): the Hatbox has kept its claim for 1 ms. -/
def execClaimDeferTimeout (n : Now) (d : Ch) (s : State) : Host.Outcome State Fault Refusal :=
  onLive n d (fun x => match x.me.pwr.req with
    | some (_, false, some t) =>
      if t + 1000000 ≤ x.mt then ((x.reqRefused 3).count Ct.HBX_CLAIM_REFUSED).raise Ev.HBX_CLAIM_REFUSED else x
    | _ => x) s

/-! ## Emergencies (R833, R838, R840) -/

/-- The claims on the domains that an emergency cuts are broken (R817). -/
def Side.breakClaims (x : Side) (cut : List Nat) : Side :=
  let x := (cut.filter x.claimed).foldl (fun x _ => (x.count Ct.HBX_CLAIMS_BROKEN).raise Ev.HBX_CLAIM_BROKEN) x
  match x.me.hbx.busy, x.me.hbx.waiting with
  | true, p :: _ => if x.me.hbx.uses.any (cut.contains ·) || cut.contains 22 then x.respond p 6 0 [] else x
  | _, _ => x

/-- Every domain but AON and SAFE goes off, children first. DEDUCED, note 48. -/
def Side.cutAll (x : Side) : Side :=
  let cut := ([13] ++ (List.range 18).filter (· != 13) ++ [19, 18, 20, 22]).filter x.domOn
  (cut.foldl Side.cutDomain (x.breakClaims cut)).modPwr fun p => { p with req := none, rising := [], quiescing := [] }

/-- A thermal or supply emergency (R833, R838): the channel enters SAFE, then its domains go off. During a fault reset the
reset pauses after its power-off phase (R840). DEDUCED, note 48. -/
def Side.emergency (x : Side) : Side :=
  if x.flag Reg.PWR_THERM_STAT 3 then x
  else
    let x := ((x.setFlag Reg.PWR_THERM_STAT 3 true).count Ct.PWR_EMERGENCIES).raise Ev.PWR_EMERGENCY
    if x.live then
      let x := (x.fireEv 0x0E Ev.PWR_EMERGENCY 0).settle
      let x := { x with me := { x.me with rst := { x.me.rst with domains := x.rdN Reg.PWR_DOM_STAT } } }
      x.cutAll.reqStat false 0
    else { x with me := { x.me with rst := { x.me.rst with paused := true } } }

/-! ## Thermal (R834 to R837) -/

/-- T_TH in 0.125 °C units. -/
def Side.tTh (x : Side) : Int := 8 * (x.field Reg.PWR_TH_CFG 7 0 : Int)

/-- The entry temperature of a stage. -/
def Side.stageAt (x : Side) (k : Nat) : Int := x.tTh + 24 * ((k : Int) - 1)

/-- The hottest reading and its sensor. -/
def hottest (l : List Int) : Int × Nat :=
  (l.zipIdx.foldl (fun (o : Option (Int × Nat)) e => match o with
    | none => some e
    | some b => if b.1 < e.1 then some e else some b) none).getD (0, 0)

/-- The stages move one at a time, each counted and raised (R836). -/
def Side.stageMoves (x : Side) (k : Nat) : Nat → Side
  | 0 => x.setField Reg.PWR_THERM_STAT 2 0 k
  | n + 1 => ((x.count Ct.PWR_STAGE_ENTRIES).raise Ev.PWR_STAGE).stageMoves k n

/-- The stages a poll leaves in force (R835): every entry that the hottest reading reaches, or LOFT_STAT.TEMP_HIGH for
stage 4, and those in force that it has not been 3 °C below for 100 ms. -/
def Side.pollStages (x : Side) (h : Int) : Side :=
  let high := x.flag Reg.LOFT_STAT 6
  let reached := ((List.range 5).filter fun k => k != 0 && (decide (x.stageAt k ≤ h) || (k == 4 && high))).foldl max 0
  let below := (List.range 5).filterMap fun k =>
    if h + 24 ≤ x.stageAt k && !(k == 4 && high) then some (k, Tbl.get x.mt x.me.pwr.below k) else none
  let x := x.modPwr fun p => { p with below := below }
  let s := x.thermal
  let stays := ((List.range (s + 1)).filter fun k => k != 0 && !(below.any fun b => b.1 == k && decide (b.2 + 100000000 ≤ x.mt))).foldl max 0
  let new := max reached stays
  let x := if s < 2 && 2 ≤ new then x.modPwr fun p => { p with altOpen := false } else x
  x.stageMoves new (max s new - min s new)

/-- A poll of the die's sensors. -/
def Side.pollDie (x : Side) (temps : List Int) : Side :=
  let (h, k) := hottest temps
  let x := x.modPwr fun p => { p with
    sensors := temps.zipIdx.map (fun (e : Int × Nat) => (e.2, e.1))
    coolMt := if h < x.tTh then some (p.coolMt.getD x.mt) else none
    highMt := if x.flag Reg.LOFT_STAT 6 then some (p.highMt.getD x.mt) else none }
  let x := (x.setField Reg.PWR_THERM_STAT 7 4 k).wrN Reg.PWR_TJ_MAX ((h % 4096).toNat)
  let x := x.pollStages h
  if 1040 ≤ h || (x.me.pwr.highMt.any fun t => decide (t + 1000000000 ≤ x.mt)) then x.emergency else x

/-- A poll of the hub's sensors (R834, R839). -/
def State.pollHub (s : State) (temps : List Int) : State :=
  let (h, k) := hottest temps
  let s := { s with hub := { s.hub with
    sensors := temps.zipIdx.map (fun (e : Int × Nat) => (e.2, e.1)), cool := if h < 920 then s.hub.cool + 1 else 0 } }
  let s := s.onSide .a fun x => (x.hsetField Reg.PWR_THERM_STAT 7 4 k).hwrN Reg.PWR_TJ_MAX ((h % 4096).toNat)
  if 1040 ≤ h && !s.hub.hot then
    let s := s.onSide .a fun x => x.hsetFlag Reg.PWR_THERM_STAT 3 true
    let s := (s.hubCount Ct.PWR_EMERGENCIES 0).raiseBoth Ev.PWR_EMERGENCY
    let s := if s.hub.down then s else s.hubCut
    { s with hub := { s.hub with hot := true, cool := 0 } }
  else s

/-- THERMAL_POLL (R834, R835, R838, R839): the readings in 0.125 °C units, of a channel die or of the hub. -/
def execThermalPoll (n : Now) (hub : Bool) (d : Ch) (temps : List Int) (s : State) : Host.Outcome State Fault Refusal :=
  if temps.isEmpty then .next (s.elapse n)
  else if hub then .next ((s.elapse n).pollHub (temps.take 4))
  else onAny n d (fun x => if x.me.ticking then x.pollDie (temps.take 16) else x) s

/-- ALTERNATE_WINDOW_TOGGLE (R835): from stage 2 on, the 100 µs windows alternate between open and closed. -/
def execAlternateWindowToggle (n : Now) (d : Ch) (s : State) : Host.Outcome State Fault Refusal :=
  onLive n d (fun x => if 2 ≤ x.thermal then x.modPwr fun p => { p with altOpen := !p.altOpen } else x) s

/-! ## Clocks (R831, R832) -/

/-- What the check of a clock shows (R831): CLK_DEV keeps the largest deviation among the clocks. DEDUCED, note 49. -/
def Side.clockSeen (x : Side) (clock : Nat) (dev : Int) (locked : Bool) : Side :=
  let x := if clock < 5 then x.setFlag Reg.CLK_STAT (1 + clock) locked else x
  let x := x.setFlag Reg.CLK_STAT 0 (!x.me.pwr.refLost)
  if x.field Reg.CLK_DEV 3 0 = clock || (signed 16 (x.field Reg.CLK_DEV 19 4)).natAbs < dev.natAbs then
    x.wr Reg.CLK_DEV (pack [(0, clock), (4, ((clampI (-32768) 32767 dev) % 65536).toNat)])
  else x

/-- CLOCK_CHECK (R831): a clock's deviation in 0.01 % units and whether its PLL is locked; beyond 1 % or unlocked it is a
fault. -/
def execClockCheck (n : Now) (d : Ch) (clock : Fin 8) (dev : Int) (locked : Bool) (s : State) :
    Host.Outcome State Fault Refusal :=
  onLive n d (fun x =>
    let x := x.clockSeen clock dev locked
    if 100 < dev.natAbs || !locked then (x.count Ct.CLK_FAULTS).raise Ev.CLK_FAULT else x) s

/-- A base that follows something enters HOLDOVER with the reference (R832); an UNSET base stays, a base already in
HOLDOVER goes on. -/
def Side.holdoverOf (x : Side) (wt : Bool) : Side :=
  if x.baseState wt = 0 || x.baseState wt = 3 then x else x.toHoldover wt

/-- The reference is gone: counted and raised, the bases enter HOLDOVER. A die in fault reset raises nothing. -/
def Side.refGone (x : Side) : Side :=
  let x := x.modPwr fun p => { p with refLost := true }
  let x := ((x.setFlag Reg.CLK_STAT 0 false).setFlag Reg.CLK_STAT 6 true).count Ct.CLK_FAULTS
  ((if x.live then x.raise Ev.CLK_REF_LOST else x).holdoverOf false).holdoverOf true

/-- REF_CLOCK_LOST (R832): the detector lies in AON, which goes on through a fault reset. -/
def execRefClockLost (n : Now) (d : Ch) (s : State) : Host.Outcome State Fault Refusal :=
  onAny n d (fun x => if x.me.pwr.refLost || !x.me.ticking then x else x.refGone) s

/-- A base of which the channel is grandmaster reads LOCKED again once its reference runs (R43). -/
def Side.gmResume (x : Side) (wt : Bool) : Side := if x.isGm wt && x.baseState wt == 3 then x.gmStart wt else x

/-- REF_CLOCK_RETURN (R832): the reference has run within 1 % of nominal for 1 ms. -/
def execRefClockReturn (n : Now) (d : Ch) (s : State) : Host.Outcome State Fault Refusal :=
  onAny n d (fun x =>
    if !x.me.pwr.refLost then x else
    let x := x.modPwr fun p => { p with refLost := false }
    (((x.setFlag Reg.CLK_STAT 0 true).setFlag Reg.CLK_STAT 6 false).gmResume false).gmResume true) s

end Sys2Proof.Machine
end

