-- ==== Sys2Proof/Machine/Admit.lean ====
section
/-!
DEFINITION. Admission, removal and the channel's bridle configuration: the checks of R303 in their order, the commit
(R306, R308), mirrors (R404, R405), REMOVE (R309) and CHAN_CFG (R450).
-/

namespace Sys2Proof.Machine

/-! ## What the checks look at -/

/-- The configurations that hold or have been promised resources: in force, waiting for their activation frame, being
admitted. -/
def StallSt.claims (s : StallSt) : List AdmitReq := s.cfg.toList ++ s.repl.toList ++ (s.admitting.map (·.1)).toList

/-- Those of every other stall. -/
def Side.otherClaims (x : Side) (st : Nat) : List AdmitReq :=
  (List.range 8).flatMap fun s => if s = st then [] else (x.stl s).claims

/-- Two masks share a bit. -/
def meets (a b : Nat) : Bool := a &&& b != 0

/-- A fenced unit of a mask of banks and page DMA units (R742). -/
def Side.fencedUnit (x : Side) (q : AdmitReq) : Bool :=
  meets q.banks (x.rdN Reg.SAFE_BANK_FENCE) || meets q.pdmas (x.field Reg.SAFE_UNIT_FENCE 3 0)

/-- The sealed firmware image carries the plan at an address, with its package (R694). -/
def Side.inImage (x : Side) (a : Nat) : Bool :=
  x.me.hbx.seals.any fun e => e.kind == 1 && !e.pendingVerify && decide (e.base ≤ a) && decide (a < e.base + e.bytes)

/-- 0x01 SIGNATURE: the stall has a sealed package and the sealed plan that the command names, or the image carries both
(R303, R694, R788). -/
def Side.signatureOk (x : Side) (q : AdmitReq) : Bool :=
  let mine := x.me.hbx.seals.filter fun e => e.stall == q.stall.val && !e.pendingVerify && e.fixed == !q.served
  (mine.any (fun e => e.kind == 2) && mine.any fun e => e.kind == 3 && e.base + 512 == q.planBase) || x.inImage q.planBase

/-- 0x02 CADENCE. -/
def Side.cadenceOk (x : Side) (q : AdmitReq) : Bool :=
  x.lword q.planBase 2 == x.rd Reg.CAD_PERIOD && x.planSlots q.planBase == x.field Reg.CAD_SLOTS 10 0

/-- 0x03 RESOURCE_BUSY: owned by another stall, fenced, still to be zeroed, no mirror entry left; a stall that is being
removed takes no plan. -/
def Side.busy (x : Side) (q : AdmitReq) : Bool :=
  (x.otherClaims q.stall).any (fun o => meets o.engines q.engines || meets o.banks q.banks || meets o.pdmas q.pdmas
      || !unitsApart o.loftBase o.loftUnits q.loftBase q.loftUnits)
    || x.me.mem.gdmaZero.any (fun r => !unitsApart r.1 r.2 q.loftBase q.loftUnits)
    || x.fencedUnit q || decide (x.freeMirrors.length < q.mirrors.length)
    || x.psq q.stall == 3

/-- A mirror keeps R404. -/
def Side.mirrorOk (x : Side) (q : AdmitReq) (m : MirrorCfg) : Bool :=
  decide (m.bank < 32) && q.banks.testBit m.bank && decide (1 ≤ m.lines) && decide (m.line + m.lines ≤ 131072)
    && (List.range 8).any fun k =>
      let s := x.sealUnits k
      decide (s.1 * 0x8000 ≤ m.src) && decide (m.src + m.lines ≤ (s.1 + s.2) * 0x8000)

/-- The export of the stall that q imports from: offset and size in units. -/
def Side.exporter (x : Side) (q : AdmitReq) : Option AdmitReq :=
  if bit q.import_ 3 then (x.stl (fld q.import_ 2 0)).cfg else none

/-- 0x04 WINDOW (R294, R300, R381, R382, R404, R663). -/
def Side.windowsOk (x : Side) (q : AdmitReq) : Bool :=
  let bytes := (x.lword q.planBase 4).toNat
  let lo := q.loftBase * 0x200000
  let tables := (List.range (x.planSlots q.planBase)).all fun k => (List.range 8).all fun e =>
    let w := x.entryAtPlan q.planBase k e
    fld w.1 1 0 == 1 || w.2 == 0
  decide (q.loftBase + q.loftUnits ≤ x.rdN Reg.LOFT_CAP) && decide (q.engines < 256) && decide (q.banks < 2 ^ 32)
    && q.shedBase % 4096 == 0 && q.shedSize % 4096 == 0 && decide (q.shedBase + q.shedSize ≤ x.hrd64 (Reg.SHED_SIZE.inst x.d.die))
    && decide (fld q.export_ 15 0 + fld q.export_ 31 16 ≤ q.loftUnits)
    && (!bit q.import_ 3 || (fld q.import_ 2 0 != q.stall.val && (x.exporter q).any fun o => fld o.export_ 31 16 != 0))
    && decide (lo ≤ q.planBase) && decide (q.planBase + bytes ≤ lo + q.loftUnits * 0x200000)
    && (x.planLists q.planBase).all (fun l => decide (l.2.2.2 + 64 + 64 * x.listCount q.planBase l.2.2.2 ≤ bytes))
    && (x.planProgs q.planBase).all (fun o => decide (o + 64 + 64 * x.listCount q.planBase o ≤ bytes))
    && tables && q.mirrors.all (x.mirrorOk q)

/-- The plan header (R381). -/
def Side.headerOk (x : Side) (q : AdmitReq) : Bool :=
  let w := x.lword q.planBase
  let used := fun k => decide (0 < (q.paging.elim [] (·.buckets)).getD k 0)
  fld (w 0) 7 0 == 1 && bit (w 0) 8 == q.served && bit (w 0) 9 == q.duplex && fld (w 0) 31 10 == 0
    && fld (w 3) 15 11 == 0 && fld (w 3) 31 24 == 0 && x.planMask q.planBase == q.engines && q.engines != 0
    && fld (w 5) 15 0 == (x.planLists q.planBase).length && fld (w 5) 31 16 == 0 && w 6 == 0 && w 7 == 0
    && (List.range 8).all (fun k => (w (8 + k) != 0) == (q.served && used k))
    && (List.range 16).all fun k => w (16 + k) == 0

/-- A plan-table entry keeps its kind and reserved bits (R382). -/
def entryKindOk (served : Bool) (mask e : Nat) (w : Word) : Bool :=
  let k := fld w 1 0
  fld w 31 13 == 0 && k != (if served then 1 else 2) && (mask.testBit e || k == 0)

/-- A list or program head (R383), with the rows it must name. -/
def Side.headOk (x : Side) (base off rows : Nat) : Bool :=
  let w := x.lword (base + off)
  fld (w 0) 7 0 == 1 && fld (w 0) 15 8 == 0 && fld (w 0) 31 16 != 0 && (w 3).toNat == rows
    && (List.range 12).all fun k => w (4 + k) == 0

/-- Row counts ascend strictly, then are zero. -/
def bucketsAscend : List Nat → Bool
  | a :: b :: t => (if b = 0 then t.all (· == 0) else decide (a < b)) && bucketsAscend (b :: t)
  | _ => true

/-- The settings of a served stall's BSQ page lie in their ranges. -/
def Side.batchOk (x : Side) (q : AdmitReq) : Bool :=
  match q.served, q.paging with
  | true, some p =>
    let top := p.buckets.foldl max 0
    p.buckets.length == 8 && decide (0 < p.buckets.getD 0 0) && bucketsAscend p.buckets && decide (top < 2048)
      && decide (x.rowsMax q.stall ≤ top) && decide (1 ≤ p.attnPages) && decide (p.attnPages ≤ 256) && p.seqTable % 128 == 0
      && decide (p.seqTable + 128 * x.seqMax q.stall ≤ q.loftUnits * 0x200000)
  | _, _ => true

/-- 0x05 KIND. DEDUCED, note 75. -/
def Side.kindOk (x : Side) (q : AdmitReq) : Bool :=
  let progs := (List.range 8).filterMap fun k =>
    let w := (x.lword q.planBase (8 + k)).toNat
    if w = 0 then none else some (w * 128, (q.paging.elim [] (·.buckets)).getD k 0)
  x.headerOk q
    && (List.range (x.planSlots q.planBase)).all (fun k => (List.range 8).all fun e =>
        entryKindOk q.served q.engines e (x.entryAtPlan q.planBase k e).1)
    && (x.planLists q.planBase).all (fun l => x.headOk q.planBase l.2.2.2 0)
    && progs.all (fun o => x.headOk q.planBase o.1 o.2) && x.batchOk q

/-- The worst-case counts of a list or program, and whether WCET_SUM is their sum (R383). -/
def Side.wcets (x : Side) (base off : Nat) : List Nat := (x.listDescs base off).map fun o => Desc.wcet (x.loftGet (base + o) 64)
def Side.sumOk (x : Side) (base off : Nat) : Bool :=
  let s := (x.wcets base off).sum
  decide (s < 2 ^ 32) && (x.lword (base + off) 1).toNat == s

/-- The cycles that a window of slots a to b holds (R107). -/
def budgetOf (p n a b : Nat) : Nat := ((b * p / n - a * p / n) * 9999 / 10000 - 122) * 3 / 5

/-- 0x06 BUDGET (R107, R313, R382). -/
def Side.budgetOk (x : Side) (q : AdmitReq) : Bool :=
  let base := q.planBase
  let n := x.planSlots base
  let p := (x.lword base 2).toNat
  (List.range n).all (fun k => (List.range 8).all fun e =>
      let w := (x.entryAtPlan base k e).1
      if fld w 1 0 = 1 then
        let b := fld w 12 2
        decide (k < b) && decide (b ≤ n)
          && (List.range (b - k - 1)).all (fun j => fld (x.entryAtPlan base (k + 1 + j) e).1 1 0 == 0)
      else fld w 12 2 == 0)
    && (x.planLists base).all (fun l => x.sumOk base l.2.2.2
      && decide ((x.wcets base l.2.2.2).sum ≤ budgetOf p n l.1 l.2.2.1))
    && (x.planProgs base).all (x.sumOk base)

/-! ## Scoreboard check (0x07) -/

/-- A group's mask among the 256 bits of a scoreboard. -/
def sbBits (grp mask : Nat) : Nat := mask <<< (16 * grp)

/-- What a descriptor waits on and what it signals. -/
def Side.sbOf (x : Side) (base off : Nat) : Nat × Nat :=
  let d : Desc := x.loftGet (base + off) 64
  (sbBits d.waitGrp d.waitMask, sbBits d.sigGrp d.sigMask)

/-- One pass over the heads of some queues: those whose bits are set run; with the bits then set. -/
def sbPass : List (List (Nat × Nat)) → Nat → List (List (Nat × Nat)) × Nat
  | [], s => ([], s)
  | [] :: t, s => let r := sbPass t s; ([] :: r.1, r.2)
  | (d :: q) :: t, s =>
    if d.1 &&& s = d.1 then let r := sbPass t (s ||| d.2); (q :: r.1, r.2)
    else let r := sbPass t s; ((d :: q) :: r.1, r.2)

/-- Every queue runs to its end. -/
def sbRuns : Nat → List (List (Nat × Nat)) → Nat → Bool
  | 0, qs, _ => qs.all (·.isEmpty)
  | k + 1, qs, s => qs.all (·.isEmpty) || (let r := sbPass qs s; sbRuns k r.1 r.2)

/-- No bit is signalled twice. -/
def sbOnce : List Nat → Nat → Bool
  | [], _ => true
  | m :: t, s => m &&& s == 0 && sbOnce t (s ||| m)

/-- The queues of one frame or step keep the rule, given bits that come from elsewhere (R521). -/
def sbSound (qs : List (List (Nat × Nat))) (outside : Nat) : Bool :=
  let all := qs.flatten
  let signalled := all.foldl (fun s d => s ||| d.2) outside
  sbOnce (all.map (·.2)) outside && all.all (fun d => d.1 &&& signalled == d.1) && sbRuns (all.length + 1) qs outside

/-- The bits that the projector and the track stage set in the bound stall, by either configuration bank (R478, R521). -/
def Side.fusionBits (x : Side) (st : Nat) : Nat :=
  if x.field Reg.FUS_STALL 2 0 != st then 0
  else
    [false, true].foldl (fun m k =>
      let w := fun i => x.bankWord (x.bankAddr k) i
      if fld (w 0) 7 0 != 1 then m
      else
        let c := w (1568 + 2)
        let t := if bit (w (1568 + 1)) 21 then sbBits (fld c 11 8) (2 ^ fld c 15 12) else 0
        m ||| sbBits (fld c 3 0) (2 ^ fld c 7 4) ||| t) 0

/-- 0x07 SCOREBOARD: a fixed stall's lists by engine in slot order; each step program of a served stall alone. -/
def Side.scoreboardOk (x : Side) (q : AdmitReq) : Bool :=
  let base := q.planBase
  if q.served then (x.planProgs base).all fun o => sbSound [(x.listDescs base o).map (x.sbOf base)] 0
  else
    let lists := x.planLists base
    let queue := fun e => (lists.filter fun l => l.2.1 == e).flatMap fun l => (x.listDescs base l.2.2.2).map (x.sbOf base)
    sbSound ((List.range 8).map queue) (x.fusionBits q.stall)

/-! ## Bandwidth, ladders, imports, pages, self-test -/

/-- The bridles of a configuration's engines and page DMA units. -/
def mastersOf (q : AdmitReq) : List Nat := members 8 q.engines ++ (members 4 q.pdmas).map (8 + ·)

/-- The masters of a stall in the yard inequality: its engines and page DMA units, and the fusion unit's bridle 16 for
the fixed stall that FUS_STALL names (R477). -/
def Side.yardMasters (x : Side) (st : Nat) (q : AdmitReq) : List Nat :=
  mastersOf q ++ (if !q.served && x.field Reg.FUS_STALL 2 0 == st then [16] else [])

/-- The banks and masters of the admitted stalls but those of `drop`. -/
def Side.stallMasters (x : Side) (drop : List Nat) : List (Nat × List Nat) :=
  ((List.range 8).filter fun s => !drop.contains s).filterMap fun s =>
    (x.stl s).cfg.map fun o => ((members 32 o.banks).length, x.yardMasters s o)

/-- 0x09 BANDWIDTH (R447, R453 to R455, R462). -/
def Side.bridlesOk (x : Side) (q : AdmitReq) : Bool :=
  let insts := q.bridles.map (·.inst)
  let old := ((x.stl q.stall).cfg).elim [] fun o => o.bridles.map (·.inst)
  let same := fun (c : BridleCfg) => q.recorded.filter (fun r => r.inst == c.inst)
    == [⟨c.inst, c.loftRate, c.loftBurst, c.yardRate, c.yardBurst, c.lat⟩]
  q.bridles.all (fun c => bridleOk c q.served && (mastersOf q).contains c.inst && same c) && decide insts.Nodup
    && (mastersOf q).all insts.contains
    && x.bandwidthOk q.bridles old (((members 32 q.banks).length, x.yardMasters q.stall q) :: x.stallMasters [q.stall.val])

/-! ### 0x0A LADDER (R211, R213) -/

/-- What a plan's own MOVEs have put where: (first operand address, loft address, length), the latest first. -/
abbrev PlanImg := List (Nat × Nat × Nat)

/-- The loft byte that a byte of a mirror of the configuration copies (R404). -/
def Side.mirrorSrc (x : Side) (q : AdmitReq) (o : Nat) : Option Nat :=
  let b := x.yardAt q.stall o
  (q.mirrors.find? fun m => decide (m.bank * bankBytes + 64 * m.line ≤ b) && decide (b < m.bank * bankBytes + 64 * (m.line + m.lines))).map
    fun m => 64 * m.src + (b - (m.bank * bankBytes + 64 * m.line))

/-- The loft byte that stands at an operand address as the plan holds it: put there by a MOVE of the plan, mirrored, or in the
loft itself; none where only a run of the plan makes it. -/
def Side.planSrc (x : Side) (q : AdmitReq) (t : PlanImg) (a : Nat) : Option Nat :=
  match t.find? fun e => decide (e.1 ≤ a) && decide (a < e.1 + e.2.2) with
  | some e => some (e.2.1 + (a - e.1))
  | none => match spaceOf a with
    | 1 => x.mirrorSrc q (offOf a)
    | 2 | 3 => some (x.loftPhys q.stall a)
    | _ => none
def Side.planByte (x : Side) (q : AdmitReq) (t : PlanImg) (a : Nat) : Byte := ((x.planSrc q t a).map fun p => (x.loftGet p 1).headD 0).getD 0

/-- The header at an operand address as the plan holds it. -/
def Side.planHdr (x : Side) (q : AdmitReq) (t : PlanImg) (a : Nat) : Option Hdr :=
  if x.winOk q.stall a 128 false && (x.planSrc q t a).isSome then
    some (bytesWords ((List.range 128).map fun k => x.planByte q t (a + k)))
  else none

/-- A ladder field lies outside its range (R210, R211). -/
def hdrLadderBad (h : Hdr) : Bool :=
  decide (hL h ≤ fld (hw h 7) 5 3) || decide (hL h ≤ hEntry h) || decide (hL h ≤ hNext h) || fld (hw h 8) 15 0 == 0
    || decide (fld (hw h 8) 15 0 ≤ fld (hw h 8) 31 16)

/-- sh + e_out − e_x − e_w stays within 0 to 63 for every combination of entries (R213). -/
def shiftOk (sh lx lw lo : Nat) : Bool := decide ((lx - 1) + (lw - 1) ≤ sh) && decide (sh + (lo - 1) ≤ 63)

/-- A descriptor keeps R211 in the headers that it names and R213 in its channels. -/
def Side.ladderKept (x : Side) (q : AdmitReq) (t : PlanImg) (d : Desc) : Bool :=
  let a := if d.takesA then x.planHdr q t d.aA else none
  let b := if d.hasB && d.op != 10 then x.planHdr q t d.aB else none
  let o := if d.hasOut then x.planHdr q t d.aO else none
  (a.toList ++ b.toList ++ o.toList).all (fun h => !hdrLadderBad h) && match a, o with
    | some a, some o =>
      let lw := if d.op = 4 then some 1 else b.map hL
      !((d.op == 1 || d.op == 2 || d.op == 4) && intIn d.fa && d.fo != 8) || lw.all fun lw => (List.range (hC o)).all fun c =>
        let at_ := partAt d.rq (d.rqParts a o) 1 + c
        (x.planSrc q t at_).isNone || shiftOk (x.planByte q t at_).toNat (hL a) lw (hL o)
    | _, _ => true

/-- The image after a descriptor: a MOVE of what the plan holds puts it where it moves it. -/
def Side.imgAfter (x : Side) (q : AdmitReq) (t : PlanImg) (d : Desc) : PlanImg :=
  if d.op = 9 then
    match x.planSrc q t d.aA, x.planHdr q t d.aA with
    | some p, some h => (d.aO, p, 128 + hBytes h) :: t
    | _, _ => t
  else t

/-- The descriptors of one engine in order keep the rules. -/
def Side.laddersKept (x : Side) (q : AdmitReq) (l : List Desc) : Bool :=
  (l.foldl (fun (r : PlanImg × Bool) d => (x.imgAfter q r.1 d, r.2 && x.ladderKept q r.1 d)) ([], true)).2

/-- The descriptors of a plan as each tile buffer meets them: an engine's lists in slot order, or a step program. -/
def Side.planSeqs (x : Side) (q : AdmitReq) : List (List Desc) :=
  let base := q.planBase
  let descs (off : Nat) : List Desc := (x.listDescs base off).map fun o => x.loftGet (base + o) 64
  if q.served then (x.planProgs base).map descs
  else (List.range 8).map fun e => ((x.planLists base).filter fun l => l.2.1 == e).flatMap fun l => descs l.2.2.2

/-- 0x0A LADDER: over every header and every multiplier that the plan holds. DEDUCED, note 78. -/
def Side.laddersOk (x : Side) (q : AdmitReq) : Bool := (x.planSeqs q).all (x.laddersKept q)

/-! ### 0x08 IMPORT_ORDER -/

/-- A list of a plan reads an import; a list writes the export region of its stall, with a
header or with the data after it: a MOVE's source gives its extent, else the header that stands at its target. -/
def Side.listImports (x : Side) (base off : Nat) : Bool :=
  (x.listDescs base off).any fun o =>
    let d : Desc := x.loftGet (base + o) 64
    (d.takesA && spaceOf d.aA == 3) || (d.hasB && spaceOf d.aB == 3)
def Side.listExports (x : Side) (q : AdmitReq) (off : Nat) : Bool :=
  let a := fld q.export_ 15 0 * 0x200000
  ((x.listDescs q.planBase off).foldl (fun (r : PlanImg × Bool) o =>
    let d : Desc := x.loftGet (q.planBase + o) 64
    let n := 128 + ((x.planHdr q r.1 d.aA).orElse fun _ => x.planHdr q r.1 d.aO).elim 0 hBytes
    (x.imgAfter q r.1 d, r.2 || (d.hasOut && spaceOf d.aO == 2 && decide (offOf d.aO < a + fld q.export_ 31 16 * 0x200000)
      && decide (a < offOf d.aO + n)))) ([], false)).2

/-- Every list that imports launches at or after the budget end of every list that writes the exported region. -/
def Side.importOrdered (x : Side) (reader writer : AdmitReq) : Bool :=
  ((x.planLists reader.planBase).filter fun l => x.listImports reader.planBase l.2.2.2).all fun r =>
    ((x.planLists writer.planBase).filter fun l => x.listExports writer l.2.2.2).all fun w => decide (w.2.2.1 ≤ r.1)

/-- 0x08 IMPORT_ORDER: of the plan as importer, and as exporter to the stalls that import from it. -/
def Side.importOk (x : Side) (q : AdmitReq) : Bool :=
  (x.exporter q).all (x.importOrdered q)
    && (List.range 8).all fun s => (x.stl s).cfg.all fun o =>
      !(bit o.import_ 3 && fld o.import_ 2 0 == q.stall.val && s != q.stall.val) || x.importOrdered o q

/-! ### 0x0B PAGE_CFG -/

/-- A tier's page region lies in its window, 128-byte aligned (R231). -/
def tierOk (base count stride size : Nat) : Bool := base % 128 == 0 && decide (base + count * stride ≤ size)

/-- The attention descriptors of a fixed plan that name a page list of their own. -/
def Side.staticLists (x : Side) (q : AdmitReq) : List Desc :=
  if q.served then [] else (x.planSeqs q).flatten.filter fun d => (d.op == 6 || d.op == 7) && d.srcStatic

/-- A fixed stall's page lists name tiers 0 and 1 only within their used length (R234). -/
def Side.listsOk (x : Side) (q : AdmitReq) : Bool :=
  (x.staticLists q).all fun d =>
    let lb := d.n 48 5
    (List.range (pagesOf d.nCtx)).all fun p =>
      decide (pageTier (x.getEntry q.stall (lb + 128 + (d.layer * x.listCap q.stall lb + p) * 4)) < 2)

/-- ROPE_DIMS is even and at most d_head (R252); another is refused with the page configuration. DEDUCED, note 75. -/
def ropeOk (p : PageCfg) : Bool := fld p.rope 8 0 % 2 == 0 && decide (fld p.rope 8 0 ≤ 32 * (fld p.geom 8 6 + 1))

/-- R223, R226, R231, R238, R252 and R283. A served stall has a page configuration, and so has a fixed one that has page
lists. -/
def Side.pagesOk (x : Side) (q : AdmitReq) : Bool :=
  match q.paging with
  | none => !q.served && (x.staticLists q).isEmpty
  | some p =>
    let st := q.stall.val
    let fmt := fld p.geom 1 0
    let pb := pageMin fmt (32 * (fld p.geom 8 6 + 1)) (fld p.geom 5 2 + 1)
    decide (fmt ≤ 2) && p.stride % 128 == 0 && decide (pb ≤ p.stride) && decide (p.stride ≤ 1048576)
      && tierOk p.yardBase p.yardPages p.stride ((members 32 q.banks).length * bankBytes)
      && tierOk p.loftBase p.loftPages p.stride (q.loftUnits * 0x200000)
      && tierOk p.shedBase p.shedPages p.stride q.shedSize
      && decide (p.yardPages < 2 ^ 18) && decide (p.loftPages < 2 ^ 30) && decide (p.shedPages < 2 ^ 30)
      && q.pdmas != 0 && ropeOk p
      && (!q.served ||
        (decide (x.rdN (Reg.BSQ_YARD_LOW.inst st) < x.rdN (Reg.BSQ_YARD_HIGH.inst st)) && decide (x.rdN (Reg.BSQ_YARD_HIGH.inst st) ≤ p.yardPages)
          && decide (x.rdN (Reg.BSQ_LOFT_LOW.inst st) < x.rdN (Reg.BSQ_LOFT_HIGH.inst st)) && decide (x.rdN (Reg.BSQ_LOFT_HIGH.inst st) ≤ p.loftPages)))

/-- The maximal runs of a list of flags, as first and end, counted from k. -/
def flagRuns : List Bool → Nat → Option Nat → List (Nat × Nat)
  | [], k, some a => [(a, k)]
  | [], _, none => []
  | true :: t, k, a => flagRuns t (k + 1) (some (a.getD k))
  | false :: t, k, some a => (a, k) :: flagRuns t (k + 1) none
  | false :: t, k, none => flagRuns t (k + 1) none

/-- Frames in a coverage period of 100 ms (R757, R760). -/
def framesPer (p : Nat) : Nat := max 1 (100000000 / max 1 p)

/-- The slice capacity of an engine in a plan (R760). -/
def Side.sliceCapacity (x : Side) (base e : Nat) : Nat :=
  let n := x.planSlots base
  let p := (x.lword base 2).toNat
  let runs := flagRuns ((List.range n).map fun k => fld (x.entryAtPlan base k e).1 1 0 == 3) 0 none
  framesPer p * (runs.map fun r => ((r.2 * p / n - r.1 * p / n) * 9999 / 10000 - 334) / 40000).sum

/-- 0x0C SELFTEST (R760). -/
def Side.selftestOk (x : Side) (q : AdmitReq) : Bool :=
  q.served ||
    (let c := (members 8 q.engines).map (x.sliceCapacity q.planBase)
     c.all (fun k => decide (24 ≤ k)) && decide ((members 32 q.banks).length ≤ (c.map (· - 24)).sum))

/-- 0x0D DESC_BOUND. -/
def Side.boundOk (x : Side) (q : AdmitReq) : Bool :=
  !q.served || (x.planProgs q.planBase).all fun o => (x.wcets q.planBase o).all fun w => decide (w ≤ 24000)

/-- 0x0E FRAME_PASSED: F_act is not zero and CAD_FRAME ≥ F_act − 1. -/
def Side.framePassed (x : Side) (q : AdmitReq) : Bool := q.fAct != 0 && decide (q.fAct ≤ x.rd64 Reg.CAD_FRAME + 1)

/-- 0x0F ENGINE_FENCED. -/
def Side.engineFenced (x : Side) (q : AdmitReq) : Bool := (members 8 q.engines).any fun e => x.flag (Reg.TE_FENCE.inst e) 0

/-- The admission result (R303): the first check that fails; 0 when none does. The checks that go through the stall's
windows see the resources as the command names them. DEDUCED, note 75. -/
def Side.admitResult (x : Side) (q : AdmitReq) : Nat :=
  let y := x.putResources q
  (([(1, !x.signatureOk q), (2, !x.cadenceOk q), (3, x.busy q), (4, !x.windowsOk q), (5, !x.kindOk q), (6, !x.budgetOk q),
    (7, !y.scoreboardOk q), (8, !y.importOk q), (9, !x.bridlesOk q), (10, !y.laddersOk q),
    (11, !x.pagesOk q || !y.listsOk q),
    (12, !x.selftestOk q), (13, !x.boundOk q), (14, x.framePassed q), (15, x.engineFenced q)] : List (Nat × Bool)).find? (·.2)).elim 0 (·.1)

/-! ## Commit and refusal -/

/-- The domains that an admission needs (R821): its engines, the banks' quarters of the yard, the loft, the fabric. -/
def domainsOf (q : AdmitReq) : List Nat :=
  members 8 q.engines ++ ((List.range 4).filter fun k => meets q.banks (255 <<< (8 * k))).map (8 + ·) ++ [18, 19]

/-- The activation frame of a configuration that is committed now: 0 stands for the next frame (R303). DEDUCED, note 76. -/
def Side.actFrame (x : Side) (q : AdmitReq) : AdmitReq :=
  if q.fAct = 0 && x.me.cad.begun then { q with fAct := x.rd64 Reg.CAD_FRAME + 1 } else q

/-- A refusal (R304): its code in PSQ_STAT, counted and raised; a page configuration's own event is not raised for page
lists that break R234. -/
def Side.admitRefused (x : Side) (q : AdmitReq) (code : Nat) : Side :=
  let st := q.stall.val
  let x := x.setField (Reg.PSQ_STAT.inst st) 15 8 code
  let x := if code = 11 && !x.pagesOk q then x.raise Ev.BSQ_PAGE_CFG_ERR st else x
  (x.count Ct.PSQ_ADMIT_REFUSED st).raise Ev.PSQ_ADMIT_REFUSED st

/-- The commit (R306, R308): a new stall is ARMED with its resources; a plan for an admitted stall waits for its frame. -/
def Side.commitAdmit (x : Side) (q : AdmitReq) : Side :=
  let st := q.stall.val
  let q := x.actFrame q
  let x := x.setField (Reg.PSQ_STAT.inst st) 15 8 0
  if x.psq st = 0 then
    let x := (x.takeAll q).modStl st fun _ => { StallSt.zero with cfg := some q }
    (x.resetLadders st).setField (Reg.PSQ_STAT.inst st) 2 0 1
  else (x.modStl st fun s => { s with repl := some q, admitting := none }).setFlag (Reg.PSQ_STAT.inst st) 4 true

/-- The mirrors of a configuration take the lowest free entries; they are filled before the commit (R404, R405). -/
def Side.openMirrors (x : Side) (q : AdmitReq) : Side :=
  ((q.mirrors.zip x.freeMirrors).foldl (fun y e =>
    (y.putMirror q.stall e.2 e.1).modMem fun m => { m with mirrorPending := m.mirrorPending.add e.2 }) x).setFlag Reg.YARD_STAT 2 true

/-- Fill the lines of a mirror entry from their source blocks (R405); the line of one that cannot be corrected takes wrong
parity, so that its readers meet it as sealed content that is lost (R432, R435). -/
def Side.fillMirror (x : Side) (k : Nat) : Side :=
  let w := x.rd ((Reg.YARD_MIR_LINE : Reg).el 0x10 k)
  let first := fld w 21 17 * 131072 + fld w 16 0
  let src := x.field ((Reg.YARD_MIR_SRC : Reg).el 0x10 k) 29 0
  (List.range (x.field ((Reg.YARD_MIR_LEN : Reg).el 0x10 k) 17 0)).foldl (fun y i =>
    let r := y.loftMeet (64 * (src + i)) 64
    if r.2 then (r.1.physPut 1 0 (64 * (first + i)) (List.replicate 64 0)).upset .yard [64 * (first + i)]
    else r.1.physPut 1 0 (64 * (first + i)) (r.1.loftGet (64 * (src + i)) 64)) x

/-- Every pending mirror is filled, or given up. DEDUCED, note 80. -/
def Side.closeMirrors (x : Side) (fill : Bool) : Side :=
  let l := x.me.mem.mirrorPending
  let x := if fill then l.foldl Side.fillMirror x
    else l.foldl (fun y k => ((y.wr ((Reg.YARD_MIR_LINE : Reg).el 0x10 k) 0).wr ((Reg.YARD_MIR_SRC : Reg).el 0x10 k) 0).wr
      ((Reg.YARD_MIR_LEN : Reg).el 0x10 k) 0) x
  (x.modMem fun m => { m with mirrorPending := [] }).setFlag Reg.YARD_STAT 2 false

/-- FP-PLAN carries out a ring command: it runs, the channel is not FENCED (R746). -/
def Side.planCmd (x : Side) (r : CmdRef) (op : Nat) (f : Cmd → Side → Side) : Side :=
  if !x.pairUp 1 || x.safeState == 3 then x else x.withCmd r op f

/-- A command has passed its point of no return (R708). -/
def Side.fixCmd (x : Side) (f ring id : Nat) : Side :=
  x.modFn f fun s => { s with accepted := s.accepted.map fun k => if k.ring == ring && k.id == id then { k with fixed := true } else k }

/-- Complete an ADMIT with its result (R304). DEDUCED, note 80. -/
def Side.admitDone (x : Side) (f : Nat) (c : Cmd) (q : AdmitReq) (code : Nat) : Side :=
  if code = 0 then (x.commitAdmit q).complete f c 0 0
  else (x.admitRefused q code).complete f c (if code = 1 then 0xA else 0) code

/-- No other admission fills its mirrors. -/
def Side.admitFree (x : Side) : Bool := !((List.range 8).any fun t => (x.stl t).admitting.isSome)

/-- ADMIT (R303 to R308, R824): it waits while another admission fills its mirrors and while a domain it needs powers up. -/
def execAdmission (n : Now) (d : Ch) (r : CmdRef) (q : AdmitReq) (s : State) : Host.Outcome State Fault Refusal :=
  onLive n d (fun x => x.planCmd r 0x01 fun c x =>
    if !x.admitFree then x
    else if !(domainsOf q).all x.domOn then ((domainsOf q).filter fun k => !x.domOn k).foldl Side.needDomain x
    else if x.admitResult q != 0 || q.mirrors.isEmpty then x.admitDone r.fn c q (x.admitResult q)
    else (x.openMirrors q).modStl q.stall fun s => { s with admitting := some (q, some (r.fn.val, c.ring, c.id)) }) s

/-- The admission whose mirrors are filled commits, unless its frame has passed or an engine was fenced meanwhile. -/
def Side.admitFilled (st : Nat) (q : AdmitReq) (f : Nat) (c : Cmd) (x : Side) : Side :=
  let x := x.modStl st fun s => { s with admitting := none }
  let code := if x.framePassed q then 14 else if x.engineFenced q then 15 else 0
  (x.closeMirrors (code == 0)).admitDone f c q code

/-- MIRROR_FILL_DONE (R405): FP-PLAN commits the admission, unless its command is gone (R310). -/
def execMirrorFillDone (n : Now) (d : Ch) (stall : Fin 8) (s : State) : Host.Outcome State Fault Refusal :=
  onLive n d (fun x =>
    if !x.pairUp 1 then x else
    match (x.stl stall).admitting with
    | some (q, some (f, ring, id)) =>
      match x.accepted f ring id with
      | none => (x.modStl stall fun s => { s with admitting := none }).closeMirrors false
      | some c => x.admitFilled stall q f c
    | _ => x) s

/-- A stall enters DRAINING for a REMOVE; a replacement that waits does not take effect any more, and goes with the stall at
EMPTY. DEDUCED, notes 32, 77. -/
def Side.drainFor (st : Nat) (r : CmdRef) (c : Cmd) (x : Side) : Side :=
  let was := x.psq st
  let x := x.setField (Reg.PSQ_STAT.inst st) 2 0 3
  let x := x.modStl st fun s => { s with remover := some (r.fn.val, c.ring, c.id), drainFrom := was, drained := was != 2 }
  x.fixCmd r.fn c.ring c.id

/-- REMOVE (R309): a stall that is not admitted is no target (R710), one that drains already is awaited. -/
def execRemove (n : Now) (d : Ch) (r : CmdRef) (st : Fin 8) (s : State) : Host.Outcome State Fault Refusal :=
  onLive n d (fun x => x.planCmd r 0x02 fun c x =>
    if x.psq st = 0 then x.complete r.fn c 5 4
    else if x.psq st = 3 then x
    else x.drainFor st r c) s

/-- A list of bridle values meets R450: instances 12 to 19, each once, under the admission equation. -/
def Side.chanOk (x : Side) (l : List BridleCfg) : Bool :=
  l.all (fun b => bridleOk b false && decide (12 ≤ b.inst)) && decide ((l.map (·.inst)).Nodup) && x.bandwidthOk l [] (x.stallMasters [])

/-- The bridles of no stall take values, which FP-PLAN keeps. -/
def Side.takeChan (l : List BridleCfg) (x : Side) : Side :=
  let x := (l.foldl Side.putBridle x.accrueAll).updBridles
  let kept := x.me.chanBr.filter fun b => !(l.map (·.inst)).contains b.inst
  { x with me := { x.me with chanBr := kept ++ l } }

/-- CHAN_CFG (R450). -/
def execChanCfg (n : Now) (d : Ch) (r : CmdRef) (l : List BridleCfg) (s : State) : Host.Outcome State Fault Refusal :=
  onLive n d (fun x => x.planCmd r 0x03 fun c x =>
    if x.chanOk l then (x.takeChan l).complete r.fn c 0 else x.complete r.fn c 0 9) s

end Sys2Proof.Machine
end

