-- ==== Sys2Proof/Machine/Boot.lean ====
section
/-!
DEFINITION. Cold reset and cold boot: power-up, the reset pin, brown-out, the boot ROM's steps, the firmware image, the
start-up self-test, the manifest (R685, R690 to R694, R766, R787, R795 to R800, R813, R814, R825, R829, R833), and the end
of a life-cycle change (R799).
-/

namespace Sys2Proof.Machine

/-! ## Resets of the die -/

/-- Change the reset control. -/
def Side.modRst (x : Side) (f : ResetSt → ResetSt) : Side := { x with me := { x.me with rst := f x.me.rst } }

/-- The hub's side of a channel that goes into reset (R661, R684): its register page shows OFFLINE and drops the command in
progress; the functions of the channel hold no ring and no doorbell value, and none is being reset. DEDUCED, notes 37, 38. -/
def Side.hubOffline (x : Side) : Side :=
  let x := (x.setMode 0).hwr (x.rm Reg.RM_CMD_STAT) 0
  (List.range 17).foldl (fun (x : Side) f =>
    let x := if x.iovState f = 0 then x else { x with hub := { x.hub with
      unmasked := x.hub.unmasked.delRange (x.fnIx f * 64) 64, pending := x.hub.pending.delRange (x.fnIx f * 64) 64 } }
    let x := if x.hub.down then x else x.hsetField (x.iov Reg.IOV_STAT f) 1 0 0
    (List.range 7).foldl (fun x k => x.hwr ((x.iov Reg.SQ_TAIL f) + 4 * k) 0) x) x

/-- The register page of Rhordo as a cold reset leaves it, its counters cleared (R683). -/
def Side.dropRm (x : Side) : Side :=
  { x with hub := { x.hub with regs := x.hub.regs.filter fun e =>
      !(e.1 / 0x40000 == T.RM && e.1 % 0x40000 / 0x1000 == x.d.die) } }

/-- A cold reset begins (R825, R826, R829): frames in transmission are cut short, the die loses everything but its fuses;
the serial flash beside it and the 25 MHz reference are not part of it, COLD_RESETS is kept. DEDUCED, note 37. -/
def Side.coldReset (x : Side) (trigger : Nat) : Side :=
  let n := x.rdN Reg.RST_COLD_RESETS
  let c := (if x.live then x.netCut else x).me
  let new := Chan.cold c.fuses true
  let x := { x with me := { new with
    regs := ((new.regs.put Reg.RST_CAUSE (pack [(3, trigger)])).put Reg.RST_COLD_RESETS (word n)).put Reg.CLK_STAT
      (pack [(6, nat1 c.pwr.refLost)])
    rst := { new.rst with phase := .coldReset, trigger := trigger }
    pwr := { new.pwr with refLost := c.pwr.refLost }
    flash := c.flash, out := c.out, free := c.free } }
  x.dropRm.hubOffline.count Ct.RST_COLD_RESETS

/-- POWER_UP (R825): the die's supply rises. -/
def execPowerUp (n : Now) (d : Ch) (s : State) : Host.Outcome State Fault Refusal :=
  onAny n d (fun x => x.coldReset 0) s

/-- RESET_PIN (R825, R829, R902): supersedes a fault reset and a supply emergency. -/
def execResetPin (n : Now) (d : Ch) (s : State) : Host.Outcome State Fault Refusal :=
  onAny n d (fun x => if x.me.rst.phase == .off then x else x.coldReset 1) s

/-- BROWN_OUT (R833): of the AON rail a cold reset; of any other rail a supply emergency. -/
def execBrownOut (n : Now) (d : Ch) (aon : Bool) (s : State) : Host.Outcome State Fault Refusal :=
  onAny n d (fun x =>
    if aon then (if x.me.rst.phase == .off then x else x.coldReset 2)
    else if x.me.ticking then x.emergency else x) s

/-- The identity record is valid (R802, R803): the ROLE of each die and the check code. -/
def idOk (f : Fuses) : Bool :=
  let b := wordsBytes f.identity
  b.getD 11 0 == 0 && b.getD 27 0 == 1 && b.getD 43 0 == 2 && crc32c (b.take 60) == f.identity.getD 15 0

/-- The die leaves its cold reset (R36, R54, R685, R729, R796, R800, R801, R803, R825): it starts at MT zero with its bases
UNSET and SAFE in INIT, debug open as its life-cycle state says. A life-cycle wipe that power loss cut short is made good first. In SCRAP the boot ROM stops with cause
LIFECYCLE. An identity record that is not valid shows and raises its event. -/
def Side.releaseCold (x : Side) : Side :=
  let x := { x with me := { x.me with fuses := { x.me.fuses with wiped := true } } }
  let x := (x.modRst fun r => { r with phase := .run }).setMode 1
  let x := (x.setCause (if x.lc = 4 then 7 else 0)).setFlag Reg.HBX_STAT 5 (decide (x.lc ≤ 1))
  if idOk x.me.fuses then x
  else ((x.wr Reg.ID_STAT 0).modHbx fun h => { h with idErr := true }).raise Ev.HBX_ID_ERR

/-- COLD_RESET_RELEASE (R825). -/
def execColdResetRelease (n : Now) (d : Ch) (s : State) : Host.Outcome State Fault Refusal :=
  onAny n d (fun x => if x.me.rst.phase != .coldReset then x else x.releaseCold) s

/-! ## Boot ROM (R691, R417) -/

/-- The boot ROM runs a step: MODE is ROM, and the life-cycle state permits a boot. -/
def Side.inRom (x : Side) : Bool := x.mode == 1 && x.lc != 4

/-- The wipes of a reset run (R424 to R426): WIPING and ZEROING read 1. DEDUCED, note 44. -/
def Side.startWipes (x : Side) : Side :=
  let x := x.modMem fun m => { m with wipeMt := some x.mt }
  ((x.setFlag Reg.LOFT_STAT 4 (!x.me.mem.wipe.isEmpty)).setFlag Reg.YARD_STAT 1 (!x.me.mem.zeroing.isEmpty)).count Ct.YARD_WIPES

/-- The Hatbox claims its signature block of this boot (R813, R814). -/
def Side.claimBlock (x : Side) : Side :=
  let x := x.burnBlock
  if 65536 < x.me.fuses.lmsBurnt + 1024 then x.raise Ev.HBX_ATTEST_LOW else x

/-- LOFT_TRAINING_DONE (R417, R691). -/
def execLoftTrainingDone (n : Now) (d : Ch) (ok : Bool) (s : State) : Host.Outcome State Fault Refusal :=
  onLive n d (fun x =>
    if !x.inRom || 2 ≤ x.field Reg.LOFT_STAT 1 0 then x
    else if ok then (x.setField Reg.LOFT_STAT 1 0 2).startWipes.claimBlock
    else ((x.setField Reg.LOFT_STAT 1 0 3).raise Ev.LOFT_TRAIN_FAIL).setCause 1) s

/-- FLASH_IMAGE_READ_DONE (R691): an image of a legal length goes to the Hatbox; anything else leaves the channel in
WAIT_IMAGE with cause NO_FLASH. -/
def execFlashImageReadDone (n : Now) (d : Ch) (len : Option Nat) (s : State) : Host.Outcome State Fault Refusal :=
  onLive n d (fun x =>
    if !x.inRom || x.field Reg.LOFT_STAT 1 0 != 2 then x
    else match len with
      | some k => if 4096 ≤ k && k ≤ 67108864 then (x.setMode 3).setFlag Reg.HBX_STAT 6 true else x.waitImage 2
      | none => x.waitImage 2) s

/-! ## The firmware image (R690 to R693, R787) -/

/-- An image was delivered by LOAD_IMAGE: the register command is still BUSY. -/
def Side.fromHost (x : Side) : Bool := x.hflag (x.rm Reg.RM_CMD_STAT) 0

/-- An image is refused (R691, R692, R786). -/
def Side.imageRefused (x : Side) (res : Nat) : Side :=
  let x := (x.setFlag Reg.HBX_STAT 6 false).containerRefused
  if x.fromHost then ((x.rmEnd 0x0A res).countRm Ct.RM_IMAGE_FAILS).waitImage 4 else x.waitImage 3

/-- The image's bytes: those in the staging window, those last written into the flash, or bytes that nothing here has
seen. DEDUCED, note 42. -/
def Side.imageBytes (x : Side) (len : Nat) : List Byte × Side :=
  if x.fromHost then (x.loftGet 0 len, x)
  else if x.me.flash.length = len then (x.me.flash, x)
  else
    let (l, x) := x.drawN (ceilDiv len 4)
    ((wordsBytes l).take len, x)

/-- Rhordo writes INLINE_EN once after a cold reset (R412), which sets the usable capacity (R411) and the figure of the
band in force (R443); only usable units are wiped. DEDUCED, note 42. -/
def Side.setInline (x : Side) (en : Bool) : Side :=
  if x.me.mem.inlineSet then x else
  let cap := if en then x.me.fuses.fitted / 8 * 7 else x.me.fuses.fitted
  let x := (x.wrN Reg.LOFT_CFG (nat1 en)).wrN Reg.LOFT_CAP cap
  let band := x.field Reg.LOFT_STAT 3 2
  let x := if band = 0 then x else x.wrN Reg.LOFT_DERATE (deliverable en band)
  (x.modMem fun m => { m with
    inlineSet := true
    wipe := m.wipe.filterMap fun (e : Nat × Nat) => if e.1 < cap then some (e.1, min e.2 (cap - e.1)) else none }).wipeShow

/-- Units that a copy has zeroed and written wait for no wipe (R691). -/
def dropUnits (w : List (Nat × Nat)) (u n : Nat) : List (Nat × Nat) := (List.range n).foldl (fun w k => wipeDrop w (u + k)) w

/-- The sealed copy of the image (R420, R788); it takes the place of a copy that failed re-verification, and nothing that
was admitted before is re-armed. -/
def Side.sealImage (x : Side) (img : ImageInfo) : Side :=
  let (l, x) := x.imageBytes img.bytes
  let x := ((x.me.hbx.seals.filter fun e => e.kind == 1).map (·.slot)).foldl Side.unsealSlot x
  let x := { x with me := { x.me with stalls := [] } }
  let base := img.sealBase * 0x200000
  let x := (x.passBridle 19 ⟨true, base, l.length, some l⟩).modMem fun m => { m with
    wipe := dropUnits m.wipe img.sealBase (ceilDiv img.bytes 0x200000) }
  let x := ((x.loftPut base l).runWaiting).wipeShow
  let k := x.freeSeal.getD 0
  x.sealRegion { slot := k, kind := 1, base := base, bytes := img.bytes, digest := bytesWords (parseHead l).digest, stall := 8,
                 fixed := true, pendingVerify := false }

/-- The rollback floor for firmware rises at a cold boot with an accepted image that commits it (R787). -/
def Side.raiseFloor (x : Side) (img : ImageInfo) : Side :=
  if !x.me.rst.warm && img.rollback && decide (x.me.fuses.fwFloor < img.secVer) then
    { x with me := { x.me with fuses := { x.me.fuses with fwFloor := min 64 img.secVer } } }
  else x

/-- The boot configuration of an accepted image (R615, R642, R690). -/
def Side.bootConfig (x : Side) (img : ImageInfo) : Side :=
  let x := { x with me := { x.me with pfWin := img.pfWin } }
  let x := x.hwr (x.iov Reg.IOV_WIN 0) img.pfWin
  img.cbb.foldl (fun (x : Side) e =>
    let a := headReg T.CBB 0 e.1
    if 0x100 ≤ e.1 && e.1 < 0x200 then x.store a e.2 else x) x

/-- An image is accepted: MODE is STARTING. DEDUCED, note 42. -/
def Side.imageAccepted (x : Side) (img : ImageInfo) : Side :=
  let x := (((x.setFlag Reg.HBX_STAT 6 false).count Ct.HBX_VERIFY_OK).raiseFloor img).setMode 4
  let x := ((x.setInline img.inline).sealImage img).bootConfig img
  let x := if x.fromHost then x.rmEnd 0 0 else x
  (x.modHbx fun h => { h with image := some (img.version, img.bytes) }).modRst fun r => { r with warm := false }

/-- IMAGE_VERIFICATION_DONE (R691 to R693): 0 accepted, else the first failing check of R786. -/
def execImageVerificationDone (n : Now) (d : Ch) (res : Fin 12) (img : ImageInfo) (s : State) : Host.Outcome State Fault Refusal :=
  onLive n d (fun x =>
    if x.mode != 3 then x
    else if res.val = 0 then x.imageAccepted img
    else x.imageRefused res) s

/-! ## Start-up self-test (R766) -/

/-- Fence the units that fail: engines with cause 3, any other unit under R742. -/
def Side.fenceFailed (x : Side) (bad : SelfTest) : Side :=
  let x := (members 8 bad.engines).foldl (fun (x : Side) e => if x.flag (Reg.TE_FENCE.inst e) 0 then x else x.fenceEngine e 3) x
  let other := ((List.finRange 32).filter fun (i : Fin 32) => bad.banks.testBit i).map TestUnit.bank
    ++ ((List.finRange 4).filter fun (i : Fin 4) => bad.pdmas.testBit i).map TestUnit.pdma ++ (if bad.fus then [TestUnit.fus] else [])
  other.foldl (fun (x : Side) u => if x.unitFenced u then x else (x.markUnit u).raise Ev.SAFE_UNIT_FENCE) x

/-- Mark the failing pairs DEGRADED (R744, R745); the channel is FENCED when any pair is (R729, R746). -/
def Side.degradeFailed (x : Side) (bad : SelfTest) : Side :=
  let x := (List.range 4).foldl (fun (x : Side) p =>
    if bad.pairMain.testBit p then x.degrade p false
    else if bad.pairChecker.testBit p then x.degrade p true else x) x
  if x.field Reg.SAFE_STAT 15 12 != 0 && x.safeState != 3 then
    ((x.setField Reg.SAFE_STAT 2 0 3).modSafe fun s => { s with faultLow := true }).faultMessage 4
      { cls := 0, block := T.GLV, inst := 0, ev := Ev.GLV_DEGRADED.bit, stream := 0 }
  else x

/-! ## What Rhordo sets up (R435, R574, R694, R732) -/

/-- Owners of pages (R574 and the chapters' register sections): FP-HOST the HUB_IOV pages of the channel, FP-SAFE the SAFE
and telltale pages. DEDUCED, note 43. -/
def Side.bootOwners (x : Side) : Side :=
  let x := (List.range 17).foldl (fun (x : Side) f => x.hsetField (headReg T.HUB_IOV (x.fnIx f) Reg.OWNER) 3 0 1) x
  (x.setField (headReg T.SAFE 0 Reg.OWNER) 3 0 9).ownTelltales

/-- An event drives the FAULT pin (R732). -/
def Side.pinEvent (x : Side) (e : Ev) : Side :=
  (x.setFlag (headReg e.t 0 Reg.EVT_PIN) e.bit true).setFlag (headReg e.t 0 Reg.EVT_ROUTE) 9 true

/-- The FAULT-pin routes that the reaction table gives to pages of no stall (R435, R731, R732, R755, R831, R832).
DEDUCED, note 43. -/
def Side.pinRoutes (x : Side) : Side :=
  let x := ((x.pinEvent Ev.LOFT_SEALED_POISON).setFlag (headReg T.LOFT 0 Reg.EVT_ROUTE) 8 true).setFlag (headReg T.LOFT 0 Reg.EVT_EN)
    Ev.LOFT_SEALED_POISON.bit true
  let x := ((x.pinEvent Ev.SAFE_AV_SELF).pinEvent Ev.CLK_FAULT).pinEvent Ev.CLK_REF_LOST
  (x.setFlag (headReg T.LOFT 0 Reg.LOCK) 0 true).setFlag (headReg T.CLK 0 Reg.LOCK) 0 true

/-- F_act of a manifest entry: the first multiple of 32 that is at least 2 greater than CAD_FRAME (R694). -/
def Side.manifestFrame (x : Side) : Nat := ceilDiv (x.rd64 Reg.CAD_FRAME + 2) 32 * 32

/-- One manifest entry (R694): admitted, or refused, logged, counted and skipped. After a fault reset a stall that FP-PLAN re-arms
(R311) is not admitted again. DEDUCED, note 28. DESIGN CHOICE, note 144. -/
def Side.manifestEntry (x : Side) (q : AdmitReq) : Side :=
  let refuse := fun (x : Side) (code : Nat) =>
    { x with me := { x.me with manifest := (x.me.manifest.1, x.me.manifest.2 + 1) } }.log 1 3 [pack [(0, code), (8, q.stall.val)]]
  if x.safeState = 3 then refuse x 0x0F
  else if (x.stl q.stall).cfg.isSome then x
  else
    let x := ((domainsOf q).filter fun k => !x.domOn k).foldl Side.domainUp x
    let q := { q with fAct := x.manifestFrame }
    let code := x.admitResult q
    if code = 0 then
      let x := ((x.openMirrors q).closeMirrors true).commitAdmit q
      { x with me := { x.me with manifest := (x.me.manifest.1 + 1, x.me.manifest.2) } }
    else refuse (x.admitRefused q code) code

/-! ## Re-arming after a fault reset (R311, R486, R792) -/

/-- Rhordo and FP-PLAN run, and the channel is not FENCED. -/
def Side.planRuns (x : Side) : Bool := x.rhordoRuns && x.safeState != 3 && x.pairUp 1

/-- A seal table entry belongs to the restart path: the image, network image, fusion banks, atlas, fixed stalls (R792). -/
def SealEntry.onPath (e : SealEntry) : Bool := !(e.kind == 2 || e.kind == 3) || e.fixed

/-- The restart path is verified: its three steps have ended. DEDUCED, note 41. -/
def Side.pathDone (x : Side) : Bool := x.me.hbx.seals.all fun e => !(e.onPath && e.pendingVerify)

/-- A stall waits to be re-armed and its containers are verified. DEDUCED, note 39. -/
def Side.mayRearm (x : Side) (st : Nat) : Bool :=
  x.psq st == 0 && (x.stl st).cfg.isSome && x.me.hbx.seals.all fun e => !(e.stall == st && e.pendingVerify)

/-- A stall is armed again to run from the next frame boundary (R218, R311). One that names a fenced bank or page DMA unit is
not, and its admission result tells so (R742); a fixed one with a fenced engine stays HALTED (R315), a served one goes on with
the engines that are left (R154). -/
def Side.rearm (x : Side) (st : Nat) : Side :=
  match (x.stl st).cfg with
  | none => x
  | some q =>
    let q := { q with fAct := 0 }
    if x.fencedUnit q then (x.admitRefused q 3).modStl st fun s => { s with cfg := none }
    else
      let x := ((domainsOf q).filter fun k => !x.domOn k).foldl Side.domainUp x
      let x := ((x.openMirrors q).closeMirrors true).takeAll q
      let x := (x.modStl st fun s => { s with cfg := some (x.actFrame q) }).resetLadders st
      if x.engineFenced q && !q.served then
        (x.setField (Reg.PSQ_STAT.inst st) 2 0 4).setField (Reg.PSQ_STAT.inst st) 18 16 1
      else x.setField (Reg.PSQ_STAT.inst st) 2 0 1

/-- FUS returns with the stall it is bound to, when its bank in force lies in a sealed region (R486). DEDUCED, note 41. -/
def Side.rearmFus (x : Side) : Side :=
  let bank := x.rd64 (if x.flag Reg.FUS_STAT 0 then Reg.FUS_BANK1 else Reg.FUS_BANK0)
  if x.me.rst.fus && !x.fusOn && x.psq (x.field Reg.FUS_STALL 2 0) == 1 && x.sealed bank 1 then
    (x.writeFusCtrl 1).modRst fun r => { r with fus := false }
  else x

/-- What FP-PLAN does once the restart path is verified: it writes the bridles it holds, and arms the stalls whose
containers are verified (R311, R472, R792). -/
def Side.rearmAll (x : Side) : Side :=
  if !x.me.rst.warm || !x.planRuns || !x.pathDone then x
  else
    let x := (x.me.chanBr.foldl Side.putBridle x.accrueAll).updBridles
    let x := ((List.range 8).filter x.mayRearm).foldl Side.rearm x
    x.rearmFus

/-- Rhordo starts (R691, R694, R695): MODE is REGISTER, the owners and routes of the boot stand, the manifest's stalls are
admitted, after a fault reset the stalls that were kept are armed again. -/
def Side.rhordoStarts (x : Side) (manifest : List AdmitReq) : Side :=
  let (v, x) := x.draw
  let x := ((x.setMode 5).hwr (x.rm Reg.RM_FW_IFVER) v).modSafe fun s => { s with kickMt := x.mt, slotsNoKick := 0 }
  let x := x.bootOwners.pinRoutes
  let x := if x.me.rst.warm && x.rd64 (Reg.NET_IMG_ADDR.inst 9) != 0 then x.requestImage else x
  let x := { x with me := { x.me with manifest := (0, 0) } }
  let x := if x.pairUp 1 then (manifest.take 8).foldl Side.manifestEntry x else x
  x.rearmAll

/-- The end of the start-up self-test (R766): failing units are fenced, failing pairs DEGRADED; Rhordo starts when FP-HOST
runs. -/
def Side.selftestEnd (bad : SelfTest) (manifest : List AdmitReq) (x : Side) : Side :=
  let x := (x.fenceFailed bad).degradeFailed bad
  if !x.pairUp 0 then x else x.rhordoStarts manifest

/-- STARTUP_SELFTEST_DONE (R691, R694, R695, R766). After a fault reset the image must have been verified again. -/
def execStartupSelftestDone (n : Now) (d : Ch) (bad : SelfTest) (manifest : List AdmitReq) (s : State) :
    Host.Outcome State Fault Refusal :=
  onLive n d (fun x =>
    if x.mode != 4 || x.me.hbx.seals.any (fun e => e.kind == 1 && e.pendingVerify) then x
    else x.selftestEnd bad manifest) s

/-! ## The end of a life-cycle change -/

/-- WIPED is burnt (R799). -/
def Side.burnWiped (x : Side) : Side := { x with me := { x.me with fuses := { x.me.fuses with wiped := true } } }

/-- LIFECYCLE_WIPE_DONE (R799): WIPED is burnt and a cold reset follows, which leaves every SRAM and the loft zero. -/
def execLifecycleWipeDone (n : Now) (d : Ch) (s : State) : Host.Outcome State Fault Refusal :=
  onLive n d (fun x =>
    if x.me.hbx.lcArmed.isNone then x else x.burnWiped.coldReset 3) s

end Sys2Proof.Machine
end

