-- ==== Sys2Proof/Machine/Replay.lean ====
section
/-!
DEFINITION. The REPLAY command and its frame boundaries (R852, R853, R857).
-/

namespace Sys2Proof.Machine

/-- The recording's PLAN record names the plan that the stall runs. -/
def Side.planMatches (x : Side) (st : Nat) (l : List RecWords) : Bool :=
  match l.find? fun r => rwType r == 6 with
  | some r => rwBody r 1 == x.rd (Reg.PSQ_PLAN_ID.inst st) && (List.range 12).map (fun k => rwBody r (4 + k)) == x.planDigest st
  | none => false

/-- The offsets that the records name lie inside the recording. -/
def Side.blobsInside (x : Side) (len : Nat) (l : List RecWords) : Bool :=
  l.all fun r =>
    if rwType r = 1 && x.kind (fld (rwBody r 0) 4 0) != 2 then decide (rwBody64 r 12 + (rwBody r 10).toNat ≤ len)
    else if rwType r = 0x0A then decide (rwBody64 r 4 ≤ len)
    else true

/-- Another fixed stall is RUNNING, or FUS_STALL names another stall; or a replay is in progress. DEDUCED, note 143. -/
def Side.replayBusy (x : Side) (st : Nat) : Bool :=
  (List.range 8).any (fun s => s != st && x.psq s == 2 && !x.served s) || x.fusStall != st
    || x.me.recorder.replay.isSome

/-- The first RESULT of R853 that refuses a replay; 0 when none does. -/
def Side.replayRefusal (x : Side) (r : Replay) : Nat :=
  if x.winSize 0 < r.base + r.len || (r.tol != 0 && x.winSize 0 < r.tol + 16) then 4
  else match parseRecs (r.len / 32) (x.recordingBytes r 0 r.len) with
    | none => 4
    | some l => if !x.planMatches r.stall l then 2 else if x.replayBusy r.stall then 3 else if !x.blobsInside r.len l then 4 else 0

/-- The replay that a REPLAY command asks for. -/
def Cmd.replayReq (c : Cmd) : Replay :=
  { ring := c.ring, id := c.id, stall := c.w 6 % 8, base := c.w64 2, len := c.w64 4, first := c.w64 7, count := c.w 9, tol := c.w64 10
    begun := false, frames := 0, diffs := 0, firstDiff := 0, edge := 0 }

/-- REPLAY (R852, R853): in DEVELOP and RETURN only, of a RUNNING fixed stall; it begins at the next frame boundary. A frame
count outside 1–65,535 is refused with a RESULT that the spec does not state: a free value. -/
def execReplay (n : Now) (d : Ch) (r : CmdRef) (s : State) : Host.Outcome State Fault Refusal :=
  onLive n d (fun x => x.hostCmd r 0x0F fun c x =>
    let q := c.replayReq
    let st := q.stall
    if x.me.recorder.replay.any fun p => p.ring == c.ring && p.id == c.id then x
    else if !(x.lc == 1 || x.lc == 3) then x.complete r.fn c 5 3
    else if q.count = 0 || 65535 < q.count then
      let (v, x) := x.draw
      x.complete r.fn c 5 (fld v 7 0)
    else if x.psq st != 2 || x.served st then x.complete r.fn c 5 4
    else
      let k := x.replayRefusal q
      if k != 0 then x.complete r.fn c 0 k
      else ((x.handOn r.fn c.ring c.id).modRec fun m => { m with replay := some q }).setFlag Reg.REC_CTRL 1 true) s

/-- A frame boundary during a replay: the frame that ends is counted, then the replay ends, is cut short by a removal, or
goes on with the next recorded frame (R854, R857). -/
def Side.replayFrame (x : Side) : Side :=
  match x.me.recorder.replay with
  | none => x
  | some r =>
    let x := if r.begun then (x.count Ct.REC_REPLAY_FRAMES).modRec fun m => { m with replay := m.replay.map fun p => { p with frames := p.frames + 1, edge := x.mt } } else x
    let done := if r.begun then r.frames + 1 else 0
    if done = r.count then x.endReplay 0
    else if x.psq r.stall != 2 then x.endReplay 1
    else
      let x := (x.modRec fun m => { m with replay := m.replay.map fun p => { p with begun := true } }).fixCmd 0 r.ring r.id
      match x.me.recorder.replay with
      | some p => x.feedFrame p
      | none => x

end Sys2Proof.Machine
end

