-- ==== Sys2Proof/Machine/Cadence.lean ====
section
/-!
DEFINITION. Cadence: the source that times the frames, frame boundaries, slot starts and what they launch, the age checks
of the Age Visor, frame-sync pulses, and the commands of the CAD page (R79 to R109, R914, R750 to R754).
-/

namespace Sys2Proof.Machine

/-- A command of the cadence: its counter lies in AON and runs through a fault reset (R97). On a running die triggers are
entered as always; in a reset none is. -/
def onTick (n : Now) (d : Ch) (f : Side → Side) (s : State) : Host.Outcome State Fault Refusal :=
  let s := s.elapse n
  .next (s.onSide d fun x =>
    if x.live then (f x).settle
    else if x.me.ticking then { f x with me := { (f x).me with fired := x.me.fired } }
    else x)

/-- Change what the cadence holds. -/
def Side.modCad (x : Side) (f : CadSt → CadSt) : Side := { x with me := { x.me with cad := f x.me.cad } }

/-- VT is LOCKED or SLEW. -/
def Side.vtFollows (x : Side) : Bool := x.vtState == 2 || x.vtState == 4

/-- VT is UNSET or HOLDOVER. -/
def Side.vtLost (x : Side) : Bool := x.vtState == 0 || x.vtState == 3

/-- The reading of VT at an earlier MT instant, at the rate in force. -/
def Side.vtAt (x : Side) (t : Nat) : Int := (x.vt : Int) - ((x.mt - t) * x.me.time.vt.inc / 2 ^ 32 : Nat)

/-- MT at an earlier reading of VT, at the rate in force. -/
def Side.mtAt (x : Side) (v : Nat) : Nat := x.mt - (x.vt - v) * 2 ^ 32 / max 1 x.me.time.vt.inc

/-! ## The grid (R81, R89, R90) -/

/-- The configuration that a launch written now is checked against: an apply that waits counts (R84). -/
def Side.cadCfg (x : Side) : Nat × Nat × Nat := x.me.cad.next.getD (x.me.cad.epoch, x.me.cad.period, x.me.cad.slots)

/-- The number of the grid boundary nearest a reading of VT, and the error e with −P/2 < e ≤ P/2 (R89). DEDUCED, note 161. -/
def gridNear (epoch p : Nat) (v : Int) : Int × Int :=
  let d := v - epoch
  let q : Int := max 1 p
  let r := d % q
  if q < 2 * r then (d / q + 1, r - q) else (d / q, r)

/-- The first grid boundary at or after a reading of VT (R81). -/
def gridFrom (epoch p : Nat) (v : Int) : Nat :=
  let d := v - epoch
  if d ≤ 0 then epoch else epoch + ceilDiv d.toNat (max 1 p) * p

/-- A frame number: 0 for the first frame after a cold reset, then the nearest boundary's while GRID_VALID is 1, and never
one that does not exceed the last (R90). -/
def frameNumber (begun valid : Bool) (prev : Nat) (near : Int) : Nat :=
  let n := near.toNat
  if !begun then 0
  else if valid && decide (prev < n) then n % 2 ^ 64 else (prev + 1) % 2 ^ 64

/-- The length of an ALIGN frame in MT: it ends on boundary n + 1, within P ± floor(P / 10,000) (R89). -/
def Side.alignLen (x : Side) (vt : Int) (near : Int) : Nat :=
  let c := x.me.cad
  let left := (c.epoch : Int) + (near + 1) * c.period - vt
  let mt := left * 2 ^ 32 / (max 1 x.me.time.vt.inc : Nat)
  let m : Nat := c.period / 10000
  (clampI ((c.period : Int) - m) ((c.period : Int) + m) mt).toNat

/-! ## Frame boundaries (R82 to R96, R914) -/

/-- The end of the frame in progress once it is reached, as VT and MT readings: a VT-driven frame ends P after its start in
VT, an MT or ALIGN frame at its length in MT, a start frame on the first grid boundary that VT reaches at or after the MT
instant one period after its start. DEDUCED, note 162. -/
def Side.frameEnd (x : Side) : Option (Int × Nat) :=
  let c := x.me.cad
  if c.startKind != 0 then
    let t := c.fMt + c.period
    if x.mt < t then none
    else
      let b := gridFrom c.epoch c.period (x.vtAt t)
      if b ≤ x.vt then some (b, x.mtAt b) else none
  else if x.cadSrc = 3 then
    if c.fVt + c.len ≤ x.vt then some ((c.fVt + c.len : Nat), x.mtAt (c.fVt + c.len)) else none
  else if c.fMt + c.len ≤ x.mt then some (x.vtAt (c.fMt + c.len), c.fMt + c.len) else none

/-- The cadence takes a source (R85). -/
def Side.setSrc (x : Side) (src : Nat) : Side :=
  if x.cadSrc = src then x else (x.setField Reg.CAD_STAT 1 0 src).raise Ev.CAD_SRC

/-- The source of the next frame (R85 to R87): `aligned` says that an ALIGN frame ended on its boundary. DEDUCED, note 23. -/
def Side.nextSrc (x : Side) (aligned : Bool) : Nat :=
  if x.vtLost then 1
  else if x.me.cad.startKind != 0 then 3
  else match x.cadSrc with
    | 1 => if x.vtFollows && x.flag Reg.CAD_STAT 2 then 2 else 1
    | 2 => if aligned then 3 else 2
    | s => s

/-- A frame begins whose sensor data a restarted channel receives in full (R29): fusion is on again, or was off before the
reset. DEDUCED, note 127. -/
def Side.seeFrame (x : Side) : Side :=
  if x.fusOn || !x.me.rst.fus then { x with me := { x.me with rst := { x.me.rst with blind := false } } } else x

/-- What a frame boundary does before the new frame begins: the slot that ends, a release (R736), the SOLO and
COVERAGE_LAPSED flags (R675, R763), accepted banks and images (R478, R580). DEDUCED, notes 22, 23, 26, 94, 123. -/
def Side.boundary (x : Side) : Side :=
  if !x.live then x else
  let x := (x.modSafe fun s => { s with solo := s.solo && !s.soloClear, soloClear := false }).wrN Reg.SAFE_LAPSED x.me.safe.lapsedNext
  x.seeFrame.releaseSafe.fusFrameStart.netFrameStart

/-- A frame begins (R82, R84, R89 to R91, R914): the configuration that waits takes effect, the grid error is read, the
number is given. `vt` and `mt` are its start. DEDUCED, notes 21, 22. -/
def Side.beginFrame (x : Side) (src : Nat) (vt : Int) (mt : Nat) : Side :=
  let running := x.cadSrc != 0
  let cfg := x.cadCfg
  let kind := if x.me.cad.next.isSome && running && decide (2 ≤ src) then 2 else 0
  let x := ((x.setFlag Reg.CAD_STAT 4 false).setSrc src).modCad fun c => { c with
    epoch := cfg.1, period := cfg.2.1, slots := cfg.2.2, next := none, fVt := vt.toNat, fMt := mt, startKind := kind, waiting := false
    slot := 0, ticks := 0 }
  let g := gridNear cfg.1 cfg.2.1 vt
  let num := frameNumber x.me.cad.begun (x.flag Reg.CAD_STAT 2) (x.rd64 Reg.CAD_FRAME) g.1
  let len := if src = 2 && kind = 0 then x.alignLen vt g.1 else cfg.2.1
  let x := ((x.wr64 Reg.CAD_FRAME num).wrN Reg.CAD_SLOT 0).modCad fun c => { c with len := len, begun := true }
  let far := decide (x.rdN Reg.CAD_GRID_LIMIT < g.2.natAbs)
  let x := (x.wr Reg.CAD_GRID_ERR (satI32 g.2)).setFlag Reg.CAD_STAT 3 far
  let x := if far then (x.count Ct.CAD_GRID_FAR_FRAMES).raise Ev.CAD_GRID_FAR else x
  let x := x.count Ct.CAD_FRAMES
  let x := if src = 1 then x.count Ct.CAD_MT_FRAMES else if src = 2 then x.count Ct.CAD_ALIGN_FRAMES else x
  if !x.live then x
  else
    let x := (x.wrN Reg.SAFE_COV_K (max 1 (100000000 / max 1 cfg.2.1))).modSafe fun s =>
      { s with slotsNoKick := if running then s.slotsNoKick else 0, tainted := s.tainted || !running }
    x.stallFrames.replayFrame

/-- The frame in progress ends (R85, R86, R89, R94, R96, R324, R914): what is left of its lists is stopped, the cadence stops when RUN reads 0, else the next frame
begins. DEDUCED, note 23. -/
def Side.endFrame (x : Side) (vt : Int) (mt : Nat) : Side :=
  let c := x.me.cad
  let x := if x.live then (List.range 8).foldl Side.endLists x else x
  let x := (x.modSafe fun s => { s with slotsNoKick := s.slotsNoKick + 1 }).boundary
  let x := if c.startKind != 0 then (x.setFlag Reg.CAD_STAT 2 true).raise Ev.CAD_STEP else x
  if !x.flag Reg.CAD_CTRL 0 then
    let x := (x.setSrc 0).modCad fun c => { c with startKind := 0, tickMt := mt, ticks := 1 }
    if x.live then (List.range 8).foldl Side.stallEdge (x.modSafe fun s => { s with tainted := true }) else x
  else
    let aligned := x.cadSrc == 2 && decide ((gridNear c.epoch c.period vt).2.natAbs ≤ 1)
    let src := x.nextSrc aligned
    let x := if aligned && src = 3 then x.raise Ev.CAD_ALIGN_DONE else x
    x.beginFrame src vt mt

/-- A cadence that waits starts VT-driven at the grid boundary after the reading it holds, and sets GRID_VALID (R92,
R93). DEDUCED, note 21. -/
def Side.startVt (x : Side) : Side :=
  let cfg := x.cadCfg
  let b := gridFrom cfg.1 cfg.2.1 ((x.me.cad.runVt : Int) + 1)
  if x.me.cad.waiting && x.vtFollows && decide (b ≤ x.vt) then
    (x.boundary.setFlag Reg.CAD_STAT 2 true).beginFrame 3 b (x.mtAt b)
  else x

/-- FRAME_START: every slot of the frame has started and its end is reached. -/
def execFrameStart (n : Now) (d : Ch) (s : State) : Host.Outcome State Fault Refusal :=
  onTick n d (fun x =>
    let x := x.commitFirst (sameCommits d s.pending)
    if x.cadSrc = 0 then x.startVt
    else if x.me.cad.slot < x.me.cad.slots then x
    else match x.frameEnd with
      | none => x
      | some (v, t) => x.endFrame v t) s

/-! ## Slot starts (R82, R98 to R105) -/

/-- Slot k has started: at F + floor(k · L / N), in VT for a VT-driven frame, else in MT. DEDUCED, note 24. -/
def Side.slotReached (x : Side) (k : Nat) : Bool :=
  let c := x.me.cad
  let o := k * c.len / max 1 c.slots
  if x.cadSrc = 3 then decide (c.fVt + o ≤ x.vt) else decide (c.fMt + o ≤ x.mt)

/-- The start of slot k as an MT reading. -/
def Side.slotMt (x : Side) (k : Nat) : Nat :=
  let c := x.me.cad
  let o := k * c.len / max 1 c.slots
  if x.cadSrc = 3 then (if c.fVt + o ≤ x.vt then x.mtAt (c.fVt + o) else x.mt + (c.fVt + o - x.vt)) else c.fMt + o

/-- A launch with START_SLOT s and EVERY m fires in slot k (R100). -/
def fires (en : Bool) (s m k : Nat) : Bool := en && decide (s ≤ k) && (k - s) % max 1 m == 0

/-- The display lock of pipe p, the gate launch and an Age Visor entry fire in slot k. -/
def Side.lockFires (x : Side) (p k : Nat) : Bool :=
  fires (x.flag (dpyLock p) 0) (x.field (dpyLock p) 10 1) (x.field (dpyLock p) 21 11) k
def Side.gateFires (x : Side) (k : Nat) : Bool :=
  fires (x.flag Reg.GATE_CFG 0) (x.field Reg.GATE_CFG 10 1) (x.field Reg.GATE_CFG 21 11) k
def avCfg (s : Nat) : Reg := (Reg.AV_CFG : Reg).el 0x10 s
def Side.avFires (x : Side) (s k : Nat) : Bool :=
  fires (x.flag (avCfg s) 0) (x.field (avCfg s) 18 9) (x.field (avCfg s) 29 19) k

/-- Launches whose block is in reset or off are counted and not made (R98). -/
def Side.launchTo (x : Side) (page : Reg) (f : Side → Side) : Side := if x.pageOn page then f x else x.count Ct.CAD_LAUNCH_SKIPPED

/-- The cause of the check of entry s (R751): 0 for a pass, 1 MISSING, 2 INVALID, 3 AGE. -/
def Side.ageCause (x : Side) (s : Nat) : Nat :=
  match (Tbl.get { seen := none } x.me.safe.av s).seen with
  | none => 1
  | some (false, _) => 2
  | some (true, age) => if x.rdN (avCfg s + 4) < age then 3 else 0

/-- An entry's miss run reaches MISS_N (R752, R753): an armed entry reacts, and the run restarts. DEDUCED, note 25. -/
def Side.ageLimit (x : Side) (s : Nat) : Side :=
  let st := avCfg s + 0xC
  let armed := x.flag st 8
  let x := x.setField st 7 0 0
  if !armed then x
  else
    let x := x.raise Ev.SAFE_AGE
    let t : Trigger := { cls := 4, block := T.SAFE, inst := 0, ev := Ev.SAFE_AGE.bit, stream := x.field (avCfg s) 8 1 }
    if x.flag (avCfg s + 8) 8 then x.fire t else x.faultMessage 3 t

/-- The check of entry s (R751 to R753). A result committed before it counts for it, none counts twice. DEDUCED, note 25. -/
def Side.ageCheck (x : Side) (s : Nat) : Side :=
  let st := avCfg s + 0xC
  let c := x.ageCause s
  let x := x.modSafe fun q => { q with av := q.av.put s { seen := none } }
  if c = 0 then
    let x := ((x.setField st 7 0 0).setFlag st 9 true).setField st 11 10 0
    if x.safeState = 1 then x.setFlag st 8 true else x
  else
    let x := ((x.count Ct.SAFE_AGE_MISSES).setFlag st 9 false).setField st 11 10 c
    let run := x.field st 7 0 + 1
    if max 1 (x.field (avCfg s + 8) 7 0) ≤ run then x.ageLimit s else x.setField st 7 0 run

/-- What slot k launches, in the order of R75: fusion, plan lists, display frames, gate lists, age checks. -/
def Side.launch (x : Side) (k : Nat) : Side :=
  let x := if x.live then (x.fusSlot k).launchLists k else x
  let x := (List.range 4).foldl (fun (x : Side) p =>
    if x.lockFires p k then x.launchTo (Reg.DPY_CTRL.inst p) (·.dpyLaunch p) else x) x
  let x := if x.gateFires k then x.launchTo (Reg.NET_STAT.inst 9) Side.gateLaunch else x
  if x.live then (List.range 16).foldl (fun (x : Side) s => if x.avFires s k then x.ageCheck s else x) x else x

/-- The stamp pair of slot k, which all of its launches share (R105): the slot start in VT and MT. -/
def Side.slotStamp (x : Side) (k : Nat) : Stamp :=
  let c := x.me.cad
  let o := k * c.len / max 1 c.slots
  { vt := if x.cadSrc = 3 then c.fVt + o else (x.vtAt (c.fMt + o)).toNat, mt := x.slotMt k
    st := x.vtState, valid := x.vtState != 0 }

/-- Slot k starts. DEDUCED, note 24. -/
def Side.startSlot (k : Nat) (x : Side) : Side :=
  let x := (x.wrN Reg.CAD_SLOT k).modCad fun c => { c with slot := k + 1, slotAt := x.slotStamp k }
  let x := if k = 0 then x else x.modSafe fun s => { s with slotsNoKick := s.slotsNoKick + 1 }
  x.launch k

/-- SLOT_START: the next slot of the frame starts. -/
def execSlotStart (n : Now) (d : Ch) (s : State) : Host.Outcome State Fault Refusal :=
  onTick n d (fun x =>
    let x := x.commitFirst (sameCommits d s.pending)
    let k := x.me.cad.slot
    if x.cadSrc = 0 || x.me.cad.slots ≤ k || !x.slotReached k then x
    else x.startSlot k) s

/-! ## Frame-sync pulses (R98, R99) -/

def fsyncCfg (i : Nat) : Reg := (Reg.FSYNC_CFG : Reg).el 0x10 i

/-- Output i changes: the ball is high while the pulse is active, or low with ACTIVE_LOW. -/
def Side.putFsync (x : Side) (i since : Nat) (active : Bool) (at_ : Stamp) : Side :=
  (x.modCad fun c => { c with fsync := c.fsync.put i (since, active) }).emit (.fsync i (active != x.flag (fsyncCfg i) 1) at_)

/-- FSYNC_PULSE: the leading edge at S + FSYNC_n_DELAY of a slot in which the launch fires, once, with the stamp pair of the
slot (R105); the trailing edge
FSYNC_n_WIDTH later. During a die reset the output is high-impedance and the launch is counted as skipped. -/
def execFsyncPulse (n : Now) (d : Ch) (i : Fin 8) (rise : Bool) (s : State) : Host.Outcome State Fault Refusal :=
  onTick n d (fun x =>
    let c := x.rd (fsyncCfg i)
    let was := Tbl.get (0, false) x.me.cad.fsync i
    let k := x.slotNow
    let at_ := x.slotMt k + x.rdN (fsyncCfg i + 4)
    if rise then
      if x.cadSrc = 0 || x.me.cad.slot = 0 || was.2 || !fires (bit c 0) (fld c 11 2) (fld c 22 12) k then x
      else if x.mt < at_ || at_ ≤ was.1 then x
      else if x.live then x.putFsync i x.mt true x.me.cad.slotAt
      else (x.count Ct.CAD_LAUNCH_SKIPPED).modCad fun c => { c with fsync := c.fsync.put i (x.mt, false) }
    else if was.2 && decide (was.1 + x.rdN (fsyncCfg i + 8) ≤ x.mt) then x.putFsync i was.1 false x.stamp
    else x) s

/-- STOPPED_FRAME_TICK (R150). -/
def execStoppedFrameTick (n : Now) (d : Ch) (s : State) : Host.Outcome State Fault Refusal :=
  onTick n d (fun x =>
    if x.cadSrc = 0 && decide (x.me.cad.tickMt + 33333333 ≤ x.mt) then
      x.modCad fun c => { c with ticks := c.ticks + 1, tickMt := c.tickMt + 33333333 }
    else x) s

/-! ## The CAD page (R79, R80, R84, R92 to R96, R100, R101) -/

/-- A launch or a fixed-stall plan that forbids an apply (R84). -/
def Side.applyBlocked (x : Side) : Bool :=
  ((List.range 8).any fun st => x.psq st != 0 && !x.served st) || (List.range 4).any (fun p => x.flag (dpyLock p) 0)
    || x.flag Reg.GATE_CFG 0 || (List.range 8).any (fun i => x.flag (fsyncCfg i) 0)
    || (List.range 16).any fun s => x.flag (avCfg s) 0

/-- CAD_PERIOD and CAD_SLOTS hold a configuration that may be applied (R79, R80). -/
def cadCfgOk (p n : Nat) : Bool :=
  decide (1000000 ≤ p) && decide (p ≤ 200000000) && decide (2 ≤ n) && decide (n ≤ 1024) && decide (10000 ≤ p / max 1 n)

/-- A write of 1 to CAD_APPLY (R80, R84). -/
def Side.cadApply (x : Side) (v : Word) : Side :=
  if !bit v 0 then x
  else
    let p := x.rdN Reg.CAD_PERIOD
    let k := x.rdN Reg.CAD_SLOTS
    if !cadCfgOk p k || x.applyBlocked then x.raise Ev.CAD_CFG_ERR
    else (x.modCad fun c => { c with next := some (x.rd64 Reg.CAD_EPOCH, p, k) }).setFlag Reg.CAD_STAT 4 true

/-- CAD_APPLY. -/
def execCadApply (n : Now) (d : Ch) (w : Init) (v : Word) (s : State) : Host.Outcome State Fault Refusal :=
  onLive n d (fun x => x.access w Reg.CAD_APPLY fun x => x.cadApply v) s

/-- RUN takes effect on a STOPPED cadence (R92 to R94): it waits for the grid, waits for VT, or starts MT-driven at the
write with GRID_VALID = 0. While the cadence runs, a 1 withdraws a pending stop and does nothing more (R96).
DEDUCED, note 23. -/
def Side.cadStart (x : Side) : Side :=
  if x.cadSrc != 0 then x
  else if x.vtFollows || !x.flag Reg.CAD_CTRL 1 then
    if x.me.cad.waiting then x else x.modCad fun c => { c with waiting := true, runVt := x.vt }
  else (x.boundary.setFlag Reg.CAD_STAT 2 false).beginFrame 1 x.vt x.mt

/-- A write of CAD_CTRL. -/
def Side.cadCtrl (x : Side) (v : Word) : Side :=
  let x := x.store Reg.CAD_CTRL v
  if bit v 0 then x.cadStart else x.modCad fun c => { c with waiting := false }

/-- CAD_RUN: RUN is written 1, with START_MT. -/
def execCadRun (n : Now) (d : Ch) (w : Init) (startMt : Bool) (s : State) : Host.Outcome State Fault Refusal :=
  onLive n d (fun x => x.access w Reg.CAD_CTRL fun x => x.cadCtrl (pack [(0, 1), (1, nat1 startMt)])) s

/-- CAD_STOP (R96): RUN is written 0, START_MT as it is. -/
def execCadStop (n : Now) (d : Ch) (w : Init) (s : State) : Host.Outcome State Fault Refusal :=
  onLive n d (fun x => x.access w Reg.CAD_CTRL fun x => x.cadCtrl (pack [(1, x.field Reg.CAD_CTRL 1 1)])) s

/-- START_SLOT and EVERY fit the slot count (R100). -/
def Side.launchOk (x : Side) (s m : Nat) : Bool :=
  decide (s < x.cadCfg.2.2) && decide (1 ≤ m) && decide (m ≤ x.cadCfg.2.2)

/-- The timing tests of an enabled frame-sync launch (R101). -/
def Side.fsyncOk (x : Side) (delay width m : Nat) : Bool :=
  let slot := x.cadCfg.2.1 / max 1 x.cadCfg.2.2
  decide (delay < slot) && decide (width < m * slot)

/-- A write of an Age Visor entry's configuration: one that enables it starts its interval and leaves it unarmed. -/
def Side.writeAv (x : Side) (s : Nat) (v : Word) : Side :=
  let was := x.flag (avCfg s) 0
  let x := x.store (avCfg s) v
  if bit v 0 && !was then (x.disarmAv s).modSafe fun q => { q with av := q.av.put s { seen := none } } else x

/-- A write of a frame-sync configuration: a disabled output ends its pulse. -/
def Side.writeFsync (x : Side) (i : Nat) (v : Word) : Side :=
  let was := Tbl.get (0, false) x.me.cad.fsync i
  let x := x.store (fsyncCfg i) v
  if !bit v 0 && was.2 then x.putFsync i was.1 false x.stamp else x

/-- The register of a launch. -/
def launchReg : LaunchReg → Reg
  | .fsync i => fsyncCfg i
  | .dpyLock p => dpyLock p
  | .gate => Reg.GATE_CFG
  | .av s => avCfg s

/-- A write of a launch configuration (R100, R101): one that leaves EN at 1 is checked. -/
def Side.writeLaunch (x : Side) (r : LaunchReg) (v : Word) : Side :=
  let en := bit v 0
  match r with
  | .fsync i =>
    if en && !(x.launchOk (fld v 11 2) (fld v 22 12)
        && x.fsyncOk (x.rdN (fsyncCfg i + 4)) (x.rdN (fsyncCfg i + 8)) (fld v 22 12)) then x.raise Ev.CAD_CFG_ERR
    else x.writeFsync i v
  | .dpyLock p =>
    if en && !x.launchOk (fld v 10 1) (fld v 21 11) then x.raise Ev.CAD_CFG_ERR
    else (x.store (dpyLock p) v).lockWritten p (x.flag (dpyLock p) 0)
  | .gate =>
    if en && !x.launchOk (fld v 10 1) (fld v 21 11) then x.raise Ev.CAD_CFG_ERR else x.store Reg.GATE_CFG v
  | .av s =>
    if en && !x.launchOk (fld v 18 9) (fld v 29 19) then x.raise Ev.CAD_CFG_ERR else x.writeAv s v

/-- LAUNCH_CFG_WRITE. -/
def execLaunchCfgWrite (n : Now) (d : Ch) (w : Init) (r : LaunchReg) (v : Word) (s : State) :
    Host.Outcome State Fault Refusal :=
  onLive n d (fun x => x.access w (launchReg r) fun x => x.writeLaunch r v) s

/-- A write of FSYNC_n_WIDTH or FSYNC_n_DELAY (R101): the width's range always, the timing tests while the launch is
enabled. -/
def Side.writeFsyncTiming (x : Side) (i : Nat) (width : Bool) (v : Word) : Side :=
  let c := x.rd (fsyncCfg i)
  let del := if width then x.rdN (fsyncCfg i + 4) else v.toNat
  let wid := if width then v.toNat else x.rdN (fsyncCfg i + 8)
  if (width && (decide (v.toNat < 100) || decide (10000000 < v.toNat))) || (bit c 0 && !x.fsyncOk del wid (fld c 22 12)) then
    x.raise Ev.CAD_CFG_ERR
  else x.store (fsyncCfg i + (if width then 8 else 4)) v

/-- FSYNC_TIMING_WRITE. -/
def execFsyncTimingWrite (n : Now) (d : Ch) (w : Init) (i : Fin 8) (width : Bool) (v : Word) (s : State) :
    Host.Outcome State Fault Refusal :=
  onLive n d (fun x => x.access w (fsyncCfg i + (if width then 8 else 4)) fun x => x.writeFsyncTiming i width v) s

end Sys2Proof.Machine
end

