-- ==== Sys2Proof/Machine/Heads.lean ====
section
/-!
DEFINITION. The common head of a page (R867 to R879, R884): BLK_CTRL with its quiesce, disable and soft reset (R828), the
event registers, CNT_OVF, LOCK. A command names a page of its region by number: type code × 64 + instance (R860).
-/

namespace Sys2Proof.Machine

/-! ## Pages -/

/-- The page that a number names, as type code and instance, when the region has it (R865). -/
def pageNamed (hub : Bool) (page : Nat) : Option (Nat × Nat) :=
  let t := page / 64
  let i := page % 64
  if i < (if hub then pagesOnHub t else pagesOnDie t) then some (t, i) else none

/-- A register of the die or of the hub. -/
def Side.prd (x : Side) (hub : Bool) (a : Reg) : Word := if hub then x.hrd a else x.rd a

/-- Hardware's own write of it. -/
def Side.pwr (x : Side) (hub : Bool) (a : Reg) (v : Word) : Side := if hub then x.hwr a v else x.wr a v

/-- The stored part of a write from outside. -/
def Side.pstore (x : Side) (hub : Bool) (a : Reg) (v : Word) : Side := if hub then x.hstore a v else x.store a v

/-- A write of head register r of a page: of a die's page as R871 gives, of a hub's page toward each channel it serves. -/
def onPage (n : Now) (d : Ch) (w : Init) (hub : Bool) (page : Nat) (r : Reg) (f : Nat → Nat → Side → Side) (s : State) :
    Host.Outcome State Fault Refusal :=
  match pageNamed hub page with
  | none => .next (s.elapse n)
  | some (t, i) =>
    let a := headReg t i r
    if hub then
      let s := s.elapse n
      let x := s.side d
      if !x.reachesHub w || !x.hubPageOn a then .next s
      else if !x.hpermits w a then .next (s.hubDenied d w)
      else .next (s.onServed t i (f t i))
    else onLive n d (fun x => x.access w a (f t i)) s

/-! ## Events of a page -/

/-- The EVT_RAW bits of a block (R875). -/
def eventMask (t : Nat) : Word := word (2 ^ eventCount t - 1)

/-- The function whose table and ring take a hub page's HOST delivery (R645, R880). -/
def hubFn (t i b : Nat) : Nat := if t = T.HUB_IOV && b == Ev.HUB_IOV_WINDOW.bit then i % 17 else 0

/-- Raise event bit b of a page. -/
def Side.praise (x : Side) (hub : Bool) (t i b : Nat) : Side :=
  if hub then x.hraise ⟨t, b⟩ i (hubFn t i b) else x.raise ⟨t, b⟩ i

/-- Deliver event bit b of a page, its EVT_STAT bit having become 1 (R876). -/
def Side.pdeliver (x : Side) (hub : Bool) (t i b : Nat) : Side :=
  if hub then x.hdeliver Side.hcountEva ⟨t, b⟩ i (hubFn t i b)
  else
    let owner := x.rd (headReg t i Reg.OWNER)
    x.deliver Side.countEva (x.rd (headReg t i Reg.EVT_ROUTE)) owner x.d.die ⟨t, b⟩ i 0 (fld owner 12 8)

/-- The bits of a word that are set, ascending. -/
def setBits (v : Word) : List Nat := (List.range 32).filter fun b => bit v b

/-- A write of EVT_RAW (R878): the bits written 1 are cleared, and those of them that are raised in the same cycle are
raised again. -/
def Side.writeEvtRaw (hub : Bool) (v raisedNow : Word) (t i : Nat) (x : Side) : Side :=
  let raw := headReg t i Reg.EVT_RAW
  (setBits (v &&& raisedNow &&& eventMask t)).foldl (fun (x : Side) b => x.praise hub t i b) (x.pwr hub raw (x.prd hub raw &&& ~~~v))

/-- EVT_RAW_CLEAR: `raisedNow` are the bits that are raised in the cycle of the write. -/
def execEvtRawClear (n : Now) (d : Ch) (w : Init) (hub : Bool) (page : Nat) (v raisedNow : Word) (s : State) :
    Host.Outcome State Fault Refusal :=
  onPage n d w hub page Reg.EVT_RAW (Side.writeEvtRaw hub v raisedNow) s

/-- A write of EVT_EN (R877): an enabled bit whose raw bit is set is delivered at once. -/
def Side.writeEvtEn (hub : Bool) (v : Word) (t i : Nat) (x : Side) : Side :=
  let en := headReg t i Reg.EVT_EN
  let new := v &&& eventMask t
  let fresh := x.prd hub (headReg t i Reg.EVT_RAW) &&& new &&& ~~~(x.prd hub en)
  (setBits fresh).foldl (fun (x : Side) b => x.pdeliver hub t i b) (x.pwr hub en new)

/-- EVT_EN_WRITE. -/
def execEvtEnWrite (n : Now) (d : Ch) (w : Init) (hub : Bool) (page : Nat) (v : Word) (s : State) :
    Host.Outcome State Fault Refusal :=
  onPage n d w hub page Reg.EVT_EN (Side.writeEvtEn hub v) s

/-- A write of EVT_SET (R879): each event written 1 is raised with all its consequences, and the write is counted once;
ignored in FIELD and SCRAP (R796). DEDUCED, note 12. -/
def Side.writeEvtSet (hub : Bool) (v : Word) (t i : Nat) (x : Side) : Side :=
  let l := setBits (v &&& eventMask t)
  if x.lc = 2 || x.lc = 4 || l.isEmpty then x
  else l.foldl (fun (x : Side) b => x.praise hub t i b)
    (if hub then (if x.d == .a || t == T.HUB_IOV || t == T.HUB_SHED then x.hcountEva Ct.EVA_INJECTED else x)
     else x.countEva Ct.EVA_INJECTED)

/-- EVT_SET. -/
def execEvtSet (n : Now) (d : Ch) (w : Init) (hub : Bool) (page : Nat) (v : Word) (s : State) :
    Host.Outcome State Fault Refusal :=
  onPage n d w hub page Reg.EVT_SET (Side.writeEvtSet hub v) s

/-! ## Counters and lock -/

/-- A write of CNT_OVF (R884): a bit written 1 is cleared and its counter is zero, or 1 when an increment falls in the
same cycle. -/
def Side.writeCntOvf (hub : Bool) (v incNow : Word) (t i : Nat) (x : Side) : Side :=
  let ovf := headReg t i Reg.CNT_OVF
  (setBits v).foldl (fun (x : Side) b =>
    let c := headReg t i (0xF00 + 4 * b)
    if (rowAt c).isSome then x.pwr hub c (word (nat1 (bit incNow b))) else x) (x.pwr hub ovf (x.prd hub ovf &&& ~~~v))

/-- CNT_OVF_CLEAR: `incNow` are the counters that count in the cycle of the write. -/
def execCntOvfClear (n : Now) (d : Ch) (w : Init) (hub : Bool) (page : Nat) (v incNow : Word) (s : State) :
    Host.Outcome State Fault Refusal :=
  onPage n d w hub page Reg.CNT_OVF (Side.writeCntOvf hub v incNow) s

/-- A write of 1 to LOCK (R9): the lock takes effect after every write of its cycle (R874). -/
def Side.writeLock (hub : Bool) (v : Word) (t i : Nat) (x : Side) : Side :=
  let a := headReg t i Reg.LOCK
  let x' := x.pwr hub a (x.prd hub a ||| (v &&& 1#32))
  if bit v 0 && !bit (x.prd hub a) 0 then
    { x' with me := { x'.me with lockedAt := x'.me.lockedAt.put (lockKey hub a) x.mt } }
  else x'

/-- LOCK. -/
def execLock (n : Now) (d : Ch) (w : Init) (hub : Bool) (page : Nat) (s : State) : Host.Outcome State Fault Refusal :=
  onPage n d w hub page Reg.LOCK (Side.writeLock hub 1) s

/-! ## BLK_CTRL -/

/-- The block of a hub page has no work in progress: no instance reset, no swap through the shed area. -/
def Side.hubIdle (x : Side) (t i : Nat) : Bool :=
  (t != T.HUB_IOV || fld (x.hrd (Reg.IOV_STAT.inst i)) 1 0 == 0) && (t != T.HUB_SHED || x.me.stalls.all fun e => e.2.swap.isNone)

/-- BLK_STAT.QUIESCED of a page of the hub. -/
def Side.hquiesced (x : Side) (t i : Nat) : Bool := bit (x.hrd (headReg t i Reg.BLK_CTRL)) 1 && x.hubIdle t i

/-- BLK_STAT.QUIESCED of a page. -/
def Side.pquiesced (x : Side) (hub : Bool) (t i : Nat) : Bool := if hub then x.hquiesced t i else x.quiesced t i

/-- What QUIESCE means at once where a chapter gives it a meaning: a served stall is pre-empted, and serves again when the
bit is cleared (R335); that of a fixed stall acts at frame boundaries (R316). -/
def Side.quiesceWritten (x : Side) (t i : Nat) (was : Bool) : Side :=
  if t = T.BSQ then
    let now := x.bsqQuiesce i
    if now && !was then x.bsqSettle i
    else if !now && was && x.field (Reg.BSQ_STAT.inst i) 2 0 == 3 then (x.setField (Reg.BSQ_STAT.inst i) 2 0 (x.serveState i)).updBsq i
    else x
  else x

/-- The registers that a soft reset does not return (R828): beside locked RWL fields, what a page reports of state that the
reset does not change: AON and hardware status, identity, fences, the loft's boot settings. DEDUCED, note 13. -/
def softKeeps (locked : Bool) (a : Reg) : Bool :=
  let t := a / 0x40000
  let ro := match rowAt a with
    | some r => r.acc == .ro || (r.acc == .rwl && locked)
    | none => true
  let rwl := match rowAt a with
    | some r => r.acc == .rwl && locked
    | none => false
  let logs := [T.PSQ, T.BSQ, T.GFX, T.DPY, T.CBB, T.FUS].contains t
    || (t == T.TE && a % 0x1000 != 0x40 && keepMask a == 0) || (t == T.BRDL && a % 0x1000 == 0x60)
  rwl || (ro && !logs) || a = Reg.LOFT_CFG || (Reg.LOFT_SEAL ≤ a && a < Reg.LOFT_SEAL + 32)

/-- The block-specific registers of a page return to their reset values. -/
def softRegs (locked : Bool) (t i : Nat) (regs : Tbl Word) : Tbl Word :=
  regs.filter fun e =>
    !(pageOf e.1 == pageAt t i && decide (0x40 ≤ e.1 % 0x1000) && decide (e.1 % 0x1000 < 0xF00)) || softKeeps locked e.1

/-- What a block does when its registers are reset: what a write of the same values would do. -/
def Side.softEffects (x y : Side) (t i : Nat) : Side :=
  if t = T.TIME then
    let y := if x.isGm false then y.gmStop false else y
    let y := if x.isGm true then y.gmStop true else y
    let y := y.setHoldref none
    (y.setFlag Reg.TIME_STATE 9 false).setFlag Reg.TIME_STATE 10 false
  else if t = T.CAD then
    let y := (y.modCad fun c => { c with waiting := false })
    let y := (List.range 4).foldl (fun (y : Side) p => y.lockWritten p (x.flag (dpyLock p) 0)) y
    (List.range 8).foldl (fun (y : Side) k => y.writeFsync k 0) y
  else if t = T.FUS then if x.fusOn then y.fusFresh else y
  else if t = T.DPY then if i < 4 && x.pipeOn i then y.pipeDisabled i else y
  else if t = T.CANG then if i < 16 then y.canMode i else y
  else if t = T.BRDL then y.updBridles
  else if t = T.BSQ then if y.psq i = 0 then y else y.updBsq i
  else y

/-- OWNER of a page holds a stall that is not EMPTY. -/
def Side.stallOwned (x : Side) (hub : Bool) (t i : Nat) : Bool :=
  let o := x.prd hub (headReg t i Reg.OWNER)
  bit o 7 && x.psq (fld o 6 4) != 0

/-- A soft reset of a page (R828). DEDUCED, note 13. -/
def Side.softReset (x : Side) (hub : Bool) (t i : Nat) : Side :=
  if !x.pquiesced hub t i || x.stallOwned hub t i then
    if hub then x else x.raise Ev.RST_CFG_ERR
  else
    let locked := bit (x.prd hub (headReg t i Reg.LOCK)) 0
    if hub then
      let x := if t = T.HUB_IOV then x.setTargetInstance (x.hrd (Reg.IOV_MAP.inst i)) 0 else x
      { x with hub := { x.hub with regs := softRegs locked t i x.hub.regs } }
    else x.softEffects { x with me := { x.me with regs := softRegs locked t i x.me.regs } } t i

/-- A write of BLK_CTRL (R868): one that would clear ENABLE before the block is QUIESCED is ignored whole with its event. -/
def Side.writeBlkCtrl (hub : Bool) (v : Word) (t i : Nat) (x : Side) : Side :=
  let c := headReg t i Reg.BLK_CTRL
  let old := x.prd hub c
  if bit old 0 && !bit v 0 && !x.pquiesced hub t i then
    if hub then x.hraise Ev.EVA_CFG_ERR 0 0 else x.raise Ev.EVA_CFG_ERR
  else
    let x := if bit v 2 then x.softReset hub t i else x
    let x := x.pwr hub c (v &&& 3#32)
    if hub then x else x.quiesceWritten t i (bit old 1)

/-- BLK_CTRL as it stands, with QUIESCE set or cleared. -/
def Side.ctrlQuiesce (hub set : Bool) (t i : Nat) (x : Side) : Side :=
  x.writeBlkCtrl hub (setBit (x.prd hub (headReg t i Reg.BLK_CTRL)) 1 set) t i

/-- BLK_QUIESCE (R868): QUIESCE is set or cleared, ENABLE as it is. -/
def execBlkQuiesce (n : Now) (d : Ch) (w : Init) (hub : Bool) (page : Nat) (set : Bool) (s : State) :
    Host.Outcome State Fault Refusal :=
  onPage n d w hub page Reg.BLK_CTRL (Side.ctrlQuiesce hub set) s

/-- BLK_DISABLE (R868): a write of BLK_CTRL with ENABLE 0. -/
def execBlkDisable (n : Now) (d : Ch) (w : Init) (hub : Bool) (page : Nat) (v : Word) (s : State) :
    Host.Outcome State Fault Refusal :=
  onPage n d w hub page Reg.BLK_CTRL (Side.writeBlkCtrl hub (v &&& ~~~1#32)) s

/-- SOFT_RESET (R828): BLK_CTRL as it stands, with SOFT_RESET written 1. -/
def Side.ctrlReset (hub : Bool) (t i : Nat) (x : Side) : Side :=
  x.writeBlkCtrl hub (x.prd hub (headReg t i Reg.BLK_CTRL) ||| 4#32) t i

/-- SOFT_RESET. -/
def execSoftReset (n : Now) (d : Ch) (w : Init) (hub : Bool) (page : Nat) (s : State) : Host.Outcome State Fault Refusal :=
  onPage n d w hub page Reg.BLK_CTRL (Side.ctrlReset hub) s

end Sys2Proof.Machine
end

