-- ==== Sys2Proof/Machine/Registers.lean ====
section
/-!
DEFINITION. Reading a register, with the capture of high words (R863), and a write of a register (R861, R862, R871): one
that has a command of its own goes there, the rest are stored with the ranges and effects their tables give.
-/

namespace Sys2Proof.Machine

/-! ## What registers read -/

/-- The access code of a register. -/
def accOf (a : Reg) : Option Acc := (rowAt a).map (·.acc)

/-- EVT_STAT of a page (R867). -/
def Side.evtStat (x : Side) (hub : Bool) (t i : Nat) : Word :=
  x.prd hub (headReg t i Reg.EVT_RAW) &&& x.prd hub (headReg t i Reg.EVT_EN)

/-- Some page of a block has EVT_STAT non-zero. -/
def Side.typePending (x : Side) (hub : Bool) (t : Nat) : Bool :=
  (List.range (if hub then pagesOnHub t else pagesOnDie t)).any fun i => x.evtStat hub t i != 0

/-- EVA_PEND_TYPE: bit T for type code T, or T − 0x20 on the hub. -/
def Side.pendTypes (x : Side) (hub : Bool) : Nat :=
  ((List.range 0x24).map fun t => if x.typePending hub t then 2 ^ (t % 0x20) else 0).foldl (· ||| ·) 0

/-- EVA_PEND_INST of the type that EVA_SEL selects, as a 64-bit number. -/
def Side.pendInsts (x : Side) (hub : Bool) : Nat :=
  let t := fld (x.prd hub Reg.EVA_SEL) 7 0
  ((List.range (if hub then pagesOnHub t else pagesOnDie t)).map fun i => if x.evtStat hub t i != 0 then 2 ^ i else 0).sum

/-- Cycles of the engine clock since the issue of the descriptor in execution: 600 MHz against MT's 1 GHz. DEDUCED, note 116. -/
def Side.curCycles (x : Side) (e : Nat) : Nat :=
  match (x.eng e).run with
  | some r => if r.started then min 0xFFFFFFFF ((x.mt - r.issueMt) * 3 / 5) else 0
  | none => 0

/-- Age of the oldest outstanding loft request of a bridle, in ns. DEDUCED, note 116. -/
def Side.oldestAge (x : Side) (b : Nat) : Nat :=
  match (x.bridle b).out with
  | [] => 0
  | e :: _ => x.mt - e.2

/-- What the registers of a block report that the register store does not hold; none for the others. DESIGN CHOICE, note 166. -/
def Side.computed (x : Side) (t i o : Nat) : Option Word :=
  if t = T.EVA then
    if o = 0x40 then some (word (x.pendTypes false))
    else if o = 0x48 then some (word (x.pendInsts false))
    else if o = 0x4C then some (word (x.pendInsts false / 2 ^ 32))
    else none
  else if t = T.TE then if o = 0x50 then some (word (x.curCycles i)) else none
  else if t = T.BSQ then
    let sel := x.rdN (Reg.BSQ_PSTATE_SEL.inst i)
    if o = 0x144 then some (word (x.freePages i 0))
    else if o = 0x148 then some (word (x.freePages i 1))
    else if o = 0x14C then some (word (x.freePages i 2))
    else if o = 0x154 then some (word (x.pword i sel))
    else if o = 0x158 then some (if pageTier sel = 2 then Tbl.get 0 (x.stl i).crc sel else 0)
    else none
  else if t = T.BRDL then
    if 20 ≤ i then none
    else if o = 0x58 then some (setFld (x.rd (Reg.BRDL_STAT.inst i)) 4 2 (x.ramp i))
    else if o = 0x68 then some (word (x.oldestAge i))
    else if o = 0xF08 then some (word (min 0xFFFFFFFF (x.rdN (Ct.BRDL_HELD_CYCLES.reg.inst i) + x.heldSince i)))
    else none
  else if t = T.GFX then
    if i != 0 then none
    else
      let h := Tbl.get (0, 0, 0) x.me.gfx.hints (x.field Reg.GFX_HINT_SEL 3 0)
      if o = 0x40 then some (pack [(0, (if x.domOn 12 then 0x3F else 0) + (if x.domOn 13 then 0xFC0 else 0)),
        (12, (x.me.gfx.comp.map fun c => 2 ^ c).sum)])
      else if o = 0x4C then some (word h.1) else if o = 0x50 then some (word h.2.1) else if o = 0x54 then some (word h.2.2) else none
  else if t = T.FUS then
    let k := x.field Reg.FUS_SEN_SEL 4 0
    let s := Tbl.get SenSt.zero x.me.fus.sen k
    if o = 0x44 then some (setBit (x.rd Reg.FUS_STAT) 6 (x.psq (x.field Reg.FUS_STALL 2 0) == 2))
    else if o = 0x78 then some (pack [(0, nat1 s.aligned), (1, s.relock % 256), (9, s.reason % 16)])
    else if o = 0x7C then some (satI32 s.delta)
    else none
  else if t = T.PWR then
    if o = 0x5C then some (wordI (Tbl.get 0 x.me.pwr.sensors (x.field Reg.PWR_SENSOR_SEL 3 0)) &&& 0xFFF#32) else none
  else if t = T.HBX then if o = 0x44 then some (x.rd Reg.HBX_CLAIM ||| word (2 ^ 22 + 2 ^ 23)) else none
  else if t = T.CBB then if 0x50 ≤ o && o < 0x60 then some (x.semWord ((o - 0x50) / 4) false) else none
  else if t = T.YARD then
    if o = 0x44 then some (setBit (x.rd Reg.YARD_STAT) 0 (x.me.mem.wipeMt.any fun t => decide (x.mt < t + 10000))) else none
  else if t = T.LOFT then
    if o = 0x58 then some (if x.field Reg.LOFT_STAT 1 0 = 2 then word (wipeLeft x.me.mem.wipe) else 0) else none
  else none

/-- What a register of the die reads: write-only ones read zero, and so does a page that does not answer (R9, R861, R864).
DESIGN CHOICE, note 117. -/
def Side.regRead (x : Side) (a : Reg) : Word :=
  let t := a / 0x40000
  let i := a % 0x40000 / 0x1000
  let o := a % 0x1000
  if !x.pageOn a || pagesOnDie t ≤ i then 0
  else if o = Reg.BLK_STAT then x.blkStat t i
  else if o = Reg.EVT_STAT then x.evtStat false t i
  else if accOf a = some .wo || o = Reg.EVT_SET then 0
  else (x.computed t i o).getD (x.rd a)

/-- What a register of the hub reads; PCI_AER_SUM shows what was reported since its last read (R634), and a rail voltage is a
free value (R833). DESIGN CHOICE, note 117. -/
def Side.hregRead (x : Side) (a : Reg) : Word × Side :=
  let t := a / 0x40000
  let i := a % 0x40000 / 0x1000
  let o := a % 0x1000
  if !x.hubPageOn a || pagesOnHub t ≤ i then (0, x)
  else if o = Reg.BLK_STAT then
    let c := x.hrd (headReg t i Reg.BLK_CTRL)
    (pack [(0, nat1 (bit c 0)), (1, nat1 (x.hquiesced t i)), (2, nat1 (!x.hubIdle t i))], x)
  else if o = Reg.EVT_STAT then (x.evtStat true t i, x)
  else if accOf a = some .wo || o = Reg.EVT_SET then (0, x)
  else if a = Reg.PCI_AER_SUM then (x.hrd a, x.hwr a 0)
  else if t = T.EVA && o = 0x40 then (word (x.pendTypes true), x)
  else if t = T.EVA && o = 0x48 then (word (x.pendInsts true), x)
  else if t = T.EVA && o = 0x4C then (word (x.pendInsts true / 2 ^ 32), x)
  else if t = T.PWR && o = 0x5C then (wordI (Tbl.get 0 x.hub.sensors (x.hfield Reg.PWR_SENSOR_SEL 3 0)) &&& 0xFFF#32, x)
  else if t = T.PWR && 0x60 ≤ o && o < 0xC4 then let (v, x) := x.draw; (v &&& 0xFFFF#32, x)
  else (x.hrd a, x)

/-! ## Reads (R863) -/

/-- The low words of the pairs whose value hardware changes, by block. -/
def lowWords (t i : Nat) : List Nat :=
  if t = T.TIME then [0x50, 0x58, 0x60, 0x68, 0xB0, 0xB8]
  else if t = T.CAD then [0x60]
  else if t = T.TE then [0x48, 0x60, 0x7C]
  else if t = T.PSQ || t = T.BSQ then [0x80]
  else if t = T.LOFT then [0x60]
  else if t = T.SNS then [0x48]
  else if t = T.FUS then [0x90]
  else if t = T.GFX then (if i = 0 then [] else [0x6C])
  else if t = T.DPY then (if i < 4 then [0x48] else [])
  else if t = T.SAFE then [0x7C]
  else if t = T.GLV then [0x44]
  else if t = T.RST then [0x44]
  else if t = T.EVA then [0x48]
  else if t = T.HUB_IOV then [0x54]
  else if t = T.RM then [0x64, 0x6C]
  else []

/-- A place is the low word of such a pair. -/
def isLow (a : Reg) : Bool := (lowWords (a / 0x40000) (a % 0x40000 / 0x1000)).contains (a % 0x1000)

/-- The key of an initiator's capture of the pair at a. DEDUCED, note 14. -/
def captureKey (d : Ch) (w : Init) (a : Reg) : Nat :=
  16 * a + match w with
    | .pf c => c.die
    | .pair p => 2 + p.val + 4 * d.die
    | .hatbox => 10 + d.die
    | .vf _ _ => 12

/-- What an initiator reads at a place whose word is v and whose next word is hi: a low word captures the high word; the
next read of the high word returns what was captured. DEDUCED, note 14. -/
def capRead (d : Ch) (w : Init) (a : Reg) (v hi : Word) (c : Tbl Word) : Word × Tbl Word :=
  if isLow a then (v, c.put (captureKey d w a) hi)
  else if a % 0x1000 ≥ 4 && isLow (a - 4) then
    match c.find? fun e => e.1 == captureKey d w (a - 4) with
    | some e => (e.2, c.drop (captureKey d w (a - 4)))
    | none => (v, c)
  else (v, c)

/-- A mailbox slot of the HBX page (R778): a pair reads its own response slot only; the Hatbox reads every slot. -/
def Side.slotRead (x : Side) (w : Init) (o : Nat) : Word :=
  match w with
  | .pair p => if 0x200 + 0x40 * p.val ≤ o && o < 0x240 + 0x40 * p.val then x.rd (headReg T.HBX 0 o) else 0
  | .pf _ => 0
  | .vf _ _ => 0
  | .hatbox => x.rd (headReg T.HBX 0 o)

/-- Whether a place is a mailbox slot. -/
def isSlot (a : Reg) : Bool := a / 0x1000 == T.HBX * 64 && decide (0x100 ≤ a % 0x1000) && decide (a % 0x1000 < 0x300)

/-- The bridge's number of an initiator (R612); no host instance reaches the bridge. -/
def cbbInit : Init → Option Nat
  | .pf _ => none
  | .vf _ _ => none
  | .pair p => some (pairInit p)
  | .hatbox => some 0

/-- A read of CBB_SEM_c through the register map: an initiator of the bridge takes a free semaphore by it (R626). -/
def Side.semRegRead (x : Side) (w : Init) (a : Reg) : Side :=
  let c := a % 0x1000 / 4 - 20
  let r := match cbbInit w with
    | some i => x.semTake i c
    | none => (false, x)
  r.2.emit (.readData a (wordBytes (r.2.semWord c r.1)))

/-- A read of a word of the die: zero where no page lies or its page does not answer (R861, R864). DEDUCED, note 9. -/
def Side.readDie (x : Side) (w : Init) (a : Reg) : Side :=
  if !x.pageOn a || pagesOnDie (a / 0x40000) ≤ a % 0x40000 / 0x1000 then x.emit (.readData a (wordBytes 0))
  else if isSlot a then x.emit (.readData a (wordBytes (x.slotRead w (a % 0x1000))))
  else if Reg.CBB_SEM ≤ a && a < Reg.CBB_SEM + 16 then x.semRegRead w a
  else
    let r := capRead x.d w a (x.regRead a) (x.regRead (a + 4)) x.me.capture
    ({ x with me := { x.me with capture := r.2 } }).emit (.readData a (wordBytes r.1))

/-- A read of a word of the hub. -/
def Side.readHub (x : Side) (w : Init) (a : Reg) : Side :=
  if !x.hubPageOn a || pagesOnHub (a / 0x40000) ≤ a % 0x40000 / 0x1000 then x.hemit (.readData a (wordBytes 0))
  else
  let v := x.hregRead a
  let r := capRead x.d w a v.1 (x.hregRead (a + 4)).1 x.hub.capture
  ({ v.2 with hub := { v.2.hub with capture := r.2 } }).hemit (.readData a (wordBytes r.1))

/-- A read of a word of the register page, readable in every mode (R683). DEDUCED, note 15. -/
def Side.readRm (x : Side) (w : Init) (o : Nat) : Side :=
  let a := T.RM * 0x40000 + o % 0x1000
  let r := capRead x.d w a (x.hrd (x.rm a)) (x.hrd (x.rm (a + 4))) x.hub.capture
  ({ x with hub := { x.hub with capture := r.2 } }).hemit (.readData o (wordBytes r.1))

/-- The place lies on the HUB_IOV page of a virtual function, which it may read (R639, R641). DESIGN CHOICE, note 117. -/
def vfPage (w : Init) (off : Nat) : Bool :=
  match w with
  | .vf c v => off / 0x1000 == T.HUB_IOV * 64 + 17 * c.die + v + 1
  | _ => false

/-- LOW_WORD_READ (R639 to R641, R861 to R864): a read of the aligned word at an offset in a region. The register page is read
by its channel's physical function (R682). -/
def execLowWordRead (n : Now) (d : Ch) (w : Init) (sp : RegSpace) (off : Nat) (s : State) :
    Host.Outcome State Fault Refusal :=
  onAny n d (fun x =>
    if off % 4 != 0 || !x.reachesHub w then x
    else match sp with
      | .die => if w.wide then x.readDie w off else x
      | .hub => if w.wide || vfPage w off then x.readHub w off else x
      | .rm => if w = .pf x.d && !x.hub.down then x.readRm w off else x) s

/-! ## Writes of a die's registers -/

/-- TIME_CTRL: grandmaster roles begin and end (R43, R913), WT_EN hides WT (R40), DT starts anew on another pipe (R38). -/
def Side.writeTimeCtrl (x : Side) (v : Word) : Side :=
  let gmV := x.isGm false
  let gmW := x.isGm true
  let pipe := x.field Reg.TIME_CTRL 3 2
  let x := x.store Reg.TIME_CTRL v
  let x := if bit v 4 && !gmV then x.gmStart false else if !bit v 4 && gmV then x.gmStop false else x
  let x := if bit v 5 && !gmW then x.gmStart true else if !bit v 5 && gmW then x.gmStop true else x
  let x := x.setFlag Reg.TIME_STATE 9 (bit v 1 && x.baseState true != 0)
  if fld v 3 2 = pipe then x else x.setFlag Reg.TIME_STATE 10 false

/-- Registers of the TIME page (R58 and the table's ranges). -/
def Side.writeTime (x : Side) (a : Reg) (v : Word) : Side :=
  if a = Reg.TIME_CTRL then x.writeTimeCtrl v
  else if a = Reg.WT_DOMAIN then if fld v 6 0 = 0 then x else x.store a v
  else if a = Reg.HOLDREF_CFG then x.writeHoldref v
  else if a = Reg.JUMP_THRESH then x.store a (word (clampN 100 10000000 v.toNat))
  else if a = Reg.JUMP_PERSIST then x.store a (if fld v 3 0 = 0 then 1 else v)
  else if a = Reg.SLEW_CTRL then x.store a (setFld v 15 8 (min 100 (fld v 15 8)))
  else x.store a v

/-- Store when a test holds, else ignore the write with an event. -/
def Side.storeIf (x : Side) (ok : Bool) (a : Reg) (v : Word) (e : Ev) (i : Nat := 0) : Side :=
  if ok then x.store a v else x.raise e i

/-- Registers of a BSQ page: the ranges of the run-time fields. -/
def Side.writeBsq (x : Side) (i o : Nat) (a : Reg) (v : Word) : Side :=
  let in_ := fun lo hi n => decide (lo ≤ n) && decide (n ≤ hi)
  if o = 0x44 then x.storeIf (in_ 1 256 (fld v 8 0)) a v Ev.BSQ_CFG_ERR i
  else if o = 0x48 then
    let top := (List.range 8).foldl (fun m k => max m (x.field ((Reg.BSQ_BUCKET : Reg).inst i + 4 * k) 10 0)) 0
    x.storeIf (in_ 16 1024 (fld v 10 0) && decide (fld v 10 0 ≤ top)) a v Ev.BSQ_CFG_ERR i
  else if o = 0x4C then x.storeIf (in_ 16 1024 (fld v 10 0)) a v Ev.BSQ_CFG_ERR i
  else if o = 0x140 then x.storeIf (in_ 100 31500 v.toNat) a v Ev.BSQ_PAGE_CFG_ERR i
  else x.store a v

/-- GFX_CTX_CFG of a context (R533, R534): EN makes a DISABLED context READY, its clearing a READY one DISABLED; a FAULTED
context and one that is being reset take their state at a reset's end. -/
def Side.writeCtxCfg (x : Side) (i : Nat) (a : Reg) (v : Word) : Side :=
  let x := x.store a v
  let st := x.ctxState (i - 1)
  if st = 3 || st = 2 then x
  else if !bit v 0 then x.wr (Reg.GFX_CTX_STAT.inst i) 0
  else if st = 0 then x.wr (Reg.GFX_CTX_STAT.inst i) 1
  else x

/-- TT_CTRL of a telltale page: from its enable on, its pipe owes it frames (R572). -/
def Side.writeTtCtrl (x : Side) (i : Nat) (a : Reg) (v : Word) : Side :=
  let was := x.flag a 0
  let x := x.store a v
  if bit v 0 && !was then x.modDpy (i - 4) fun s => { s with ttFrom := some x.mt } else x

/-- No plan has been admitted: every stall is EMPTY. DEDUCED, note 83. -/
def Side.noStall (x : Side) : Bool := (List.range 8).all fun st => x.psq st == 0

/-- A write of a block-specific register of the die that WORLD and LOCK permit. -/
def Side.writeReg (x : Side) (a : Reg) (v : Word) : Side :=
  let t := a / 0x40000
  let i := a % 0x40000 / 0x1000
  let o := a % 0x1000
  if !((accOf a == some .rw) || (accOf a == some .rwl)) then x
  else if t = T.TIME then x.writeTime a v
  else if a = Reg.CAD_GRID_LIMIT then
    x.storeIf (decide (1000 ≤ v.toNat) && decide (v.toNat ≤ x.me.cad.period / 2)) a v Ev.CAD_CFG_ERR
  else if t = T.BSQ then x.writeBsq i o a v
  else if a = Reg.YARD_SCRUB_CFG then x.storeIf (decide (1 ≤ fld v 3 0) && decide (fld v 3 0 ≤ 10)) a v Ev.YARD_CFG_ERR
  else if a = Reg.LOFT_SCRUB_CFG then x.storeIf (decide (1 ≤ fld v 4 0) && decide (fld v 4 0 ≤ 24)) a v Ev.LOFT_CFG_ERR
  else if t = T.BRDL then
    if i = 20 then if fld v 1 0 = 0 || !x.noStall then x else x.store a v else ((x.accrueAll.store a v).fillBridle i).updBridles
  else if t = T.PDMA && o = 0x44 then x.store a (setFld v 6 0 (max 1 (min 64 (fld v 6 0))))
  else if t = T.GFX && o = 0x60 then x.writeCtxCfg i a v
  else if t = T.DPY && 4 ≤ i && o = 0x40 then x.writeTtCtrl i a v
  else if t = T.CANG && i < 16 && o = 0x40 then (x.store a v).canMode i
  else if t = T.CBB && 0x50 ≤ o && o < 0x60 then x
  else if a = Reg.SAFE_CFG then x.store a (if x.lc = 2 || x.lc = 4 then setBit v 9 false else v)
  else if t = T.SAFE && 0x100 ≤ o && o % 0x10 = 8 then x.store a (if fld v 7 0 = 0 then setFld v 7 0 1 else v)
  else if a = Reg.PWR_TH_CFG then x.storeIf (decide (100 ≤ fld v 7 0) && decide (fld v 7 0 ≤ 115)) a v Ev.PWR_CFG_ERR
  else x.store a v

/-- The low byte of OWNER is RWL; INSTANCE is FP-HOST's, exempt from WORLD and LOCK (R869, R870). `ok` says that WORLD and
LOCK permit the rest. -/
def ownerWord (old v : Word) (fpHost ok : Bool) : Word :=
  let o := if fpHost then setFld old 12 8 (fld v 12 8) else old
  if ok then setFld o 7 0 (fld v 7 0) else o

/-- A write of OWNER on a page of the die. DEDUCED, note 10. -/
def Side.writeOwner (x : Side) (w : Init) (a : Reg) (v : Word) : Side :=
  if !x.pageOn a then x
  else
    let old := x.rd a
    let ok := worldPermits old x.d false w && !bit (x.rd (pageOf a + Reg.LOCK)) 0
    let x := x.wr a (ownerWord old v (w == .pair 0) ok)
    if ok || (w == .pair 0 && fld v 7 0 == fld old 7 0) then x else x.denied w

/-- LOFT_CFG is written by the boot alone; a later write is ignored with its event (R412). -/
def Side.writeLoftCfg (x : Side) (w : Init) : Side :=
  if !x.pageOn Reg.LOFT_CFG then x
  else if worldPermits (x.rd (headReg T.LOFT 0 Reg.OWNER)) x.d false w then x.raise Ev.LOFT_CFG_ERR
  else x.denied w

/-- A mailbox slot: a pair writes its own request slot only (R778). -/
def Side.writeSlot (x : Side) (w : Init) (a : Reg) (v : Word) : Side :=
  if !x.pageOn a then x
  else match w with
    | .pair p => if 0x100 + 0x40 * p.val ≤ a % 0x1000 && a % 0x1000 < 0x140 + 0x40 * p.val then x.wr a v else x.denied w
    | .pf _ => x.denied w
    | .vf _ _ => x.denied w
    | .hatbox => if 0x200 ≤ a % 0x1000 then x.wr a v else x

/-- Any other register of the die. DEDUCED, note 165. -/
def Side.writeOther (x : Side) (w : Init) (a : Reg) (v : Word) : Side :=
  if a % 0x1000 = Reg.OWNER then x.writeOwner w a v
  else if a = Reg.LOFT_CFG then x.writeLoftCfg w
  else if Reg.LOFT_SEAL ≤ a && a < Reg.LOFT_SEAL + 32 && w != .hatbox then (if x.pageOn a then x.denied w else x)
  else if isSlot a then x.writeSlot w a v
  else if a % 0x1000 = Reg.EVT_PIN then x.access w a fun x => x.store a (v &&& eventMask (a / 0x40000))
  else x.access w a fun x => x.writeReg a v

/-- A register of a telltale region by its offset in the region's block. -/
def ttRegOf : Nat → Option TtReg
  | 0x00 => some .pos
  | 0x04 => some .size
  | 0x08 => some .rctrl
  | 0x0C => some .bg
  | 0x10 => some .crcOn
  | 0x14 => some .crcOff
  | _ => none

/-- A register of a companion-bus window by its offset in the window's block. -/
def winRegOf : Nat → Option WindowReg
  | 0x0 => some .near
  | 0x4 => some .far
  | 0x8 => some .cfg
  | _ => none

/-- The head registers of a page that a write acts on; the rest are stored. -/
def headWrite (n : Now) (d : Ch) (w : Init) (hub : Bool) (page o : Nat) (v : Word) : Option (State → Host.Outcome State Fault Refusal) :=
  if o = Reg.BLK_CTRL then some (onPage n d w hub page Reg.BLK_CTRL (Side.writeBlkCtrl hub v))
  else if o = Reg.EVT_RAW then some (execEvtRawClear n d w hub page v 0)
  else if o = Reg.EVT_EN then some (execEvtEnWrite n d w hub page v)
  else if o = Reg.EVT_SET then some (execEvtSet n d w hub page v)
  else if o = Reg.CNT_OVF then some (execCntOvfClear n d w hub page v 0)
  else if o = Reg.LOCK then some (onPage n d w hub page Reg.LOCK (Side.writeLock hub v))
  else none

/-- The registers of TIME, CAD and FUS that have a command of their own. -/
def timeWrite (n : Now) (d : Ch) (w : Init) (t o : Nat) (v : Word) : Option (State → Host.Outcome State Fault Refusal) :=
  if t = T.TIME then
    if o = 0x48 then some (execSnap n d w v)
    else if o = 0x80 then some (execGmAccept n d w v)
    else if 0x200 ≤ o && o < 0x280 && o % 0x10 = 0xC then some (execPortRoleWrite n d w (Fin.ofNat 8 ((o - 0x200) / 0x10)) v)
    else none
  else if t = T.CAD then
    if o = 0x48 then some (execCadApply n d w v)
    else if o = 0x40 then some (onLive n d fun x => x.access w Reg.CAD_CTRL fun x => x.cadCtrl v)
    else if 0x80 ≤ o && o < 0x100 then
      let i := Fin.ofNat 8 ((o - 0x80) / 0x10)
      if o % 0x10 = 0 then some (execLaunchCfgWrite n d w (.fsync i) v)
      else if o % 0x10 = 4 then some (execFsyncTimingWrite n d w i false v)
      else if o % 0x10 = 8 then some (execFsyncTimingWrite n d w i true v)
      else none
    else if 0x100 ≤ o && o < 0x120 && o % 8 = 0 then some (execLaunchCfgWrite n d w (.dpyLock (Fin.ofNat 4 ((o - 0x100) / 8))) v)
    else if o = 0x120 then some (execLaunchCfgWrite n d w .gate v)
    else none
  else if t = T.FUS then
    if o = 0x40 then some (execFusEnable n d w v) else if o = 0x60 then some (execFusSwap n d w v) else none
  else none

/-- The registers of BRDL, DPY, NET, CANG and CBB that have a command of their own. -/
def portWrite (n : Now) (d : Ch) (w : Init) (t i o : Nat) (v : Word) : Option (State → Host.Outcome State Fault Refusal) :=
  if t = T.BRDL then if o = 0x64 && i < 20 then some (execBrdlMaxlatClr n d w (Fin.ofNat 20 i) v) else none
  else if t = T.DPY then
    if i < 4 then
      if o = 0x40 then some (execDpyEnable n d w (Fin.ofNat 4 i) v)
      else if 0x100 ≤ o && o < 0x1C0 && o % 0x20 = 0x18 then
        some (execPlFlip n d w (Fin.ofNat 4 i) (Fin.ofNat 6 ((o - 0x100) / 0x20)) v)
      else none
    else if 0x100 ≤ o && o < 0x300 then
      (ttRegOf (o % 0x20)).map fun r => execTtRegionWrite n d w (Fin.ofNat 4 (i - 4)) (Fin.ofNat 16 ((o - 0x100) / 0x20)) r v
    else none
  else if t = T.NET then if i = 9 && o = 0x4C then some (execNetImgLoad n d w v) else none
  else if t = T.CANG then if i < 16 && o = 0x54 then some (execCangRecover n d w (Fin.ofNat 16 i) v) else none
  else if t = T.CBB then
    if 0x50 ≤ o && o < 0x60 then
      (cbbInit w).map fun k => execCbbSemRelease n d (Fin.ofNat 6 k) (Fin.ofNat 4 ((o - 0x50) / 4)) v
    else if 0x100 ≤ o && o < 0x200 then
      (winRegOf (o % 0x10)).map fun r => execCbbWindowWrite n d w (Fin.ofNat 16 ((o - 0x100) / 0x10)) r v
    else none
  else none

/-- The registers of SAFE, HBX, PWR and REC that have a command of their own. -/
def safeWrite (n : Now) (d : Ch) (w : Init) (t o : Nat) (v : Word) : Option (State → Host.Outcome State Fault Refusal) :=
  if t = T.SAFE then
    if o = 0x48 then some (execSafeKick n d w v)
    else if o = 0x4C then some (execSafeReady n d w v)
    else if o = 0x50 then some (execSafeEnter n d w v)
    else if o = 0x54 then some (execSafeRelease n d w v)
    else if 0x100 ≤ o && o < 0x200 && o % 0x10 = 0 then some (execLaunchCfgWrite n d w (.av (Fin.ofNat 16 ((o - 0x100) / 0x10))) v)
    else none
  else if t = T.HBX then if o = 0x48 then some (execHatboxDoorbell n d w v) else none
  else if t = T.PWR then
    if o = 0x44 then some (onLive n d fun x => x.access w Reg.PWR_REQ fun x => x.pwrReq (fld v 4 0) (bit v 8)) else none
  else if t = T.REC then if o = 0x40 then some (execRecEnable n d w v) else none
  else none

/-- A write of a word of the die. -/
def writeDie (n : Now) (d : Ch) (w : Init) (off : Nat) (v : Word) (s : State) : Host.Outcome State Fault Refusal :=
  let t := off / 0x40000
  let i := off % 0x40000 / 0x1000
  let o := off % 0x1000
  if pagesOnDie t ≤ i || ((rowAt off).isNone && !isSlot off) then .next (s.elapse n)
  else match headWrite n d w false (off / 0x1000) o v with
    | some f => f s
    | none => match (timeWrite n d w t o v).or ((portWrite n d w t i o v).or (safeWrite n d w t o v)) with
      | some f => f s
      | none => onLive n d (fun x => x.writeOther w off v) s

/-! ## Writes of the hub's registers -/

/-- The channel whose view a write of a hub page acts on: the one that a HUB_IOV or HUB_SHED instance serves. -/
def hubSide (d : Ch) (t i : Nat) : Ch :=
  if t = T.HUB_IOV then (if i / 17 = 0 then .a else .b) else if t = T.HUB_SHED then (if i = 0 then .a else .b) else d

/-- IOV_MAP of function f (R647, R649, R870). -/
def Side.writeIovMap (x : Side) (f : Nat) (v : Word) : Side :=
  let map := v &&& 0x3F#32
  if f = 0 || !x.mapOk f map then x.hraise Ev.HUB_IOV_CFG_ERR (x.fnIx f) 0
  else x.remap f map

/-- A permitted write of a block-specific register of the hub. -/
def Side.writeHubReg (x : Side) (t i : Nat) (a : Reg) (v : Word) : Side :=
  let o := a % 0x1000
  if o = Reg.EVT_PIN then x.hstore a (v &&& eventMask t)
  else if t = T.HUB_IOV && o = 0x40 then x.writeIovMap (i % 17) v
  else if t = T.HUB_IOV && o = 0x48 then
    let x := x.hstore a v
    if bit v 1 then x.beginReset (i % 17) (bit v 0) else x
  else if t = T.HUB_SHED && o < 0x50 then x.writeShed a v
  else if accOf a = some .rw || accOf a = some .rwl then x.hstore a v
  else x

/-- The registers of the hub whose effect reaches beyond one channel's view, or that only one initiator writes. -/
def peerWrite (n : Now) (d : Ch) (w : Init) (t o : Nat) (v : Word) : Option (State → Host.Outcome State Fault Refusal) :=
  if t = T.HUB_PEER && o = 0x180 + 4 * d.die then some (execMailboxSend n d w v)
  else if t = T.HUB_PEER && o = 0x280 + 4 * d.die then some (execMailboxPop n d w v)
  else if t = T.HUB_PEER && 0x100 + 0x40 * d.die ≤ o && o < 0x140 + 0x40 * d.die then
    some (mailboxBuffer n d w (T.HUB_PEER * 0x40000 + o) v)
  else none

/-- A permitted write of the hub's PWR page: a request there is counted, a threshold out of range is ignored with its event. -/
def State.writeHubPwr (s : State) (d : Ch) (a : Reg) (v : Word) : State :=
  if a = Reg.PWR_REQ then s.hubCount Ct.PWR_REQUESTS 0
  else if a % 0x1000 = Reg.EVT_PIN then s.onSide d fun x => x.hstore a (v &&& eventMask T.PWR)
  else if a = Reg.PWR_TH_CFG && (fld v 7 0 < 100 || 115 < fld v 7 0) then s.raiseBoth Ev.PWR_CFG_ERR
  else if accOf a = some .rw || accOf a = some .rwl then s.onSide d fun x => x.hstore a v
  else s

/-- A write of OWNER on a page of the hub. -/
def State.writeHubOwner (s : State) (d : Ch) (w : Init) (a : Reg) (v : Word) : State :=
  let x := s.side d
  let old := x.hrd a
  let fp := w == .pair 0 && x.hubServes a
  let ok := x.hpermits w a
  let s := s.onSide d fun x => x.hwr a (ownerWord old v fp ok)
  if ok || (fp && fld v 7 0 == fld old 7 0) then s else s.hubDenied d w

/-- The receive queue's head is the driver's (R671): the channel's physical function writes it whoever owns the page.
DEDUCED, note 86. -/
def rxqHead (d : Ch) (w : Init) (off : Nat) : Bool := w == .pf d && off == Reg.RXQ_HEAD.inst (17 * d.die)

/-- A write of a word of the hub. -/
def writeHub (n : Now) (d : Ch) (w : Init) (off : Nat) (v : Word) (s : State) : Host.Outcome State Fault Refusal :=
  let t := off / 0x40000
  let i := off % 0x40000 / 0x1000
  let o := off % 0x1000
  if pagesOnHub t ≤ i || (rowAt off).isNone then .next (s.elapse n)
  else match (headWrite n d w true (off / 0x1000) o v).or (peerWrite n d w t o v) with
    | some f => f s
    | none =>
      let s := s.elapse n
      let x := s.side d
      if !x.reachesHub w || !x.hubPageOn off then .next s
      else if o = Reg.OWNER then .next (s.writeHubOwner d w off v)
      else if rxqHead d w off then .next (s.onSide d fun x => x.hwr off v)
      else if !x.hpermits w off then .next (s.hubDenied d w)
      else if t = T.PWR then .next (s.writeHubPwr d off v)
      else .next (s.onSide (hubSide d t i) fun x => (x.writeHubReg t i off v).settle)

/-! ## The register page of Rhordo -/

/-- A write of the register page (R682, R684, R687): dropped while MODE is OFFLINE. A 1 written to RM_CNT_OVF clears the
bit and its counter. DEDUCED, note 15. -/
def Side.writeRm (x : Side) (o : Nat) (v : Word) : Side :=
  if x.mode = 0 then x
  else if o = 0x18 then if x.live then x.rmWrite v else x
  else if o = 0x10 || (0x20 ≤ o && o < 0x40) then x.hwr (x.rm (T.RM * 0x40000 + o)) v
  else if o = 0xF0 then
    (setBits v).foldl (fun (x : Side) b =>
      let c := T.RM * 0x40000 + 0xF00 + 4 * b
      if (rowAt c).isSome then x.hwr (x.rm c) 0 else x) (x.hwr (x.rm Reg.RM_CNT_OVF) (x.hrd (x.rm Reg.RM_CNT_OVF) &&& ~~~v))
  else x

/-- REGISTER_WRITE (R861, R862, R871): a write of an aligned word at an offset in a region; any other access is ignored. -/
def execRegisterWrite (n : Now) (d : Ch) (w : Init) (sp : RegSpace) (off : Nat) (v : Word) (s : State) :
    Host.Outcome State Fault Refusal :=
  if off % 4 != 0 then .next (s.elapse n)
  else match sp with
    | .die => writeDie n d w off v s
    | .hub => writeHub n d w off v s
    | .rm => onAny n d (fun x => if w = .pf x.d && !x.hub.down then x.writeRm off v else x) s

end Sys2Proof.Machine
end

