-- ==== Sys2Proof/Machine/Restart.lean ====
section
/-!
DEFINITION. Fault reset and restart: the request of the SAFE block, the reset of every domain but AON, the release, and the
re-verification of the sealed containers (R28, R695, R738, R791 to R794, R825 to R829, R840).
-/

namespace Sys2Proof.Machine

/-! ## The request (R738, R829, R832, R838) -/

/-- The trigger code of RST_CAUSE for the causes in force: emergency, glove-pair limit, Hatbox limit, SAFE. -/
def Side.resetTrigger (x : Side) : Nat :=
  let causes := x.me.safe.causes.map (·.1)
  if x.flag Reg.PWR_THERM_STAT 3 then 7
  else if causes.any fun t => t.cls == 3 && t.block == T.HBX then 6
  else if causes.any fun t => t.cls == 3 then 5
  else 4

/-- The instant of the request is reached: RESET_DELAY after the entry, and the SAFE_ENTER message has left or one slot has
passed since the entry. -/
def Side.requestDue (x : Side) : Bool :=
  let s := x.me.safe
  let delay := clampN 1 100 (x.field Reg.SAFE_CFG 31 24) * 100000
  decide (s.enterMt + delay ≤ x.mt)
    && (s.enterSent || decide (s.enterMt + x.me.cad.period / max 1 x.me.cad.slots ≤ x.mt))

/-- In an emergency the reset waits until every reading of the die has stayed below T_TH for 1 s (R838), and for the 25 MHz
reference (R832). -/
def Side.calm (x : Side) : Bool :=
  !x.me.pwr.refLost
    && (!x.flag Reg.PWR_THERM_STAT 3 || x.me.pwr.coolMt.any fun t => decide (t + 1000000000 ≤ x.mt))

/-- SAFE requests the reset: a RESTARTING heartbeat and the fault message leave at once (R673, R738). -/
def Side.requestReset (x : Side) (code : Nat) : Side :=
  let x := x.modRst fun r => { r with req := some (code, x.mt) }
  let x := (x.count Ct.SAFE_FAULT_RESETS).sendBeat
  x.faultMessage 2 { cls := x.field Reg.SAFE_STAT 10 3, block := 0, inst := 0, ev := 0, stream := 0 }

/-- FAULT_RESET_REQUEST (R673, R738): a RESTARTING heartbeat leaves at once; the reset begins 20 µs later. -/
def execFaultResetRequest (n : Now) (d : Ch) (s : State) : Host.Outcome State Fault Refusal :=
  onLive n d (fun x =>
    if x.safeState != 2 || !x.me.safe.resetDue || x.me.rst.req.isSome || !x.requestDue || !x.calm then x
    else x.requestReset x.resetTrigger) s

/-! ## The reset (R37, R423 to R426, R825 to R827) -/

/-- Ranges of units without the sealed regions. -/
def Side.minusSeals (x : Side) (l : List (Nat × Nat)) : List (Nat × Nat) :=
  (List.range 8).foldl (fun l k => l.flatMap fun (r : Nat × Nat) => rangeMinus r.1 r.2 (x.sealUnits k).1 (x.sealUnits k).2) l

/-- Loft units of the admitted stalls of a kind, ascending. -/
def Side.unitsOf (x : Side) (served : Bool) : List (Nat × Nat) :=
  (List.range 8).filterMap fun st => ((x.stl st).cfg.filter fun q => q.served == served).map fun q => (q.loftBase, q.loftUnits)

/-- The wipe order of a fault reset (R423, R426): fixed stalls, served stalls, unallocated units; no sealed one. -/
def Side.wipeOrder (x : Side) : List (Nat × Nat) :=
  let held := x.unitsOf false ++ x.unitsOf true
  let free := held.foldl (fun l h => l.flatMap fun (r : Nat × Nat) => rangeMinus r.1 r.2 h.1 h.2) [(0, x.rdN Reg.LOFT_CAP)]
  (x.minusSeals (held ++ free)).filter fun r => r.2 != 0

/-- The memories after a fault reset: the loft outside the sealed regions and every SRAM read zero, the wipes are pending. -/
def Side.wipeAll (x : Side) : Side :=
  let order := x.wipeOrder
  x.wipeSrams.modMem fun m => { m with
    loft := m.loft.filter fun (e : Nat × Byte) => x.sealed e.1 1
    poison := m.poison.filter fun b => x.sealed (64 * b) 64
    cells := m.cells.filter fun k => (cellWord true k).any fun w => x.sealed (64 * w.1) 64
    wipe := order, zeroing := List.range 32, mirrorPending := [], wb := [], loftFixed := [], lost := [], waiting := [], bandLow := none, gdmaZero := [] }

/-- A base through the reset (R37): HOLDOVER, but UNSET stays and a grandmaster goes on (R43). DEDUCED, note 18. -/
def Side.holdThrough (x : Side) (wt : Bool) : Side := if x.isGm wt then x else x.holdoverOf wt

/-- An admitted stall keeps its configuration for FP-PLAN to re-arm (R311); one that was being removed does not.
DEDUCED, note 39. -/
def Side.keptStalls (x : Side) : Tbl StallSt :=
  (List.range 8).filterMap fun st =>
    match (x.stl st).cfg with
    | some q => if x.psq st == 3 then none else some (st, { StallSt.zero with cfg := some q })
    | none => none

/-- What the Hatbox keeps in AON: its seal table, now to be verified again, marks and signature index (R788, R792, R805,
R813). -/
def HbxSt.restart (h : HbxSt) : HbxSt :=
  { HbxSt.zero with
    seals := h.seals.map (fun e => { e with pendingVerify := true }), marks := h.marks, lmsNext := h.lmsNext
    lcArmed := h.lcArmed, idErr := h.idErr, image := h.image }

/-- Everything of the die but AON is lost. DEDUCED, notes 138, 157. -/
def Side.dropDie (x : Side) : Side :=
  let lc := x.rd Reg.HBX_STAT &&& 0x27#32
  let stalls := x.keptStalls
  let x := (x.wipeAll.dropPages fun _ _ => true).pipesOff
  let c := x.me
  let x := { x with me := { c with
    safe := SafeSt.zero, fired := [], glv := [], fns := [], logSeq := 0, logBuf := [], manifest := (0, 0)
    recorder := RecSt.zero, hbx := c.hbx.restart, engines := [], stalls := stalls, breached := [], bridles := []
    pwr := { PwrSt.zero with sensors := c.pwr.sensors, coolMt := c.pwr.coolMt, refLost := c.pwr.refLost }
    cbb := CbbSt.zero, net := NetSt.zero, gfx := GfxSt.zero, dpy := [], fus := FusSt.zero, capture := [], lockedAt := [], driven := []
    time := { c.time with syncAt := [], sentAt := [], pdelayAt := [], pdelayLast := [], relay := [] }
    cad := { c.cad with fsync := c.cad.fsync.map fun (e : Nat × Nat × Bool) => (e.1, e.2.1, false) } } }
  (x.wr Reg.HBX_STAT lc).wr (headReg T.HBX 0 Reg.OWNER) 2

/-- The die goes into fault reset with a trigger code (R825 to R827): what is in AON stays, RST_CAUSE and RST_VT tell of it. -/
def Side.resetNow (x : Side) (code : Nat) : Side :=
  let cut := x.me.recorder.export_.isSome
  let fus := x.fusOn
  let domains := if x.flag Reg.PWR_THERM_STAT 3 then x.me.rst.domains else x.rdN Reg.PWR_DOM_STAT
  let x := ((x.netCut.cutExport.holdThrough false).holdThrough true).dropDie
  let x := (x.wr Reg.RST_CAUSE (pack [(0, 1), (3, code)])).wr64 Reg.RST_VT x.vt
  let x := x.modRst fun r => { r with
    phase := .faultReset, trigger := code, req := none, paused := false, domains := domains, warm := true
    fus := fus || r.fus }
  let x := x.modSafe fun s => { s with faultLow := false }
  (if cut then x.count Ct.REC_EXPORT_CUT else x).hubOffline

/-- FAULT_RESET (R594, R825 to R827, R851): the die's reset begins 20 µs after the request. -/
def execFaultReset (n : Now) (d : Ch) (s : State) : Host.Outcome State Fault Refusal :=
  onLive n d (fun x => match x.me.rst.req with
    | none => x
    | some (code, t) =>
      if x.mt < t + 20000 then x else x.resetNow code) s

/-! ## The release (R695, R696, R729, R746, R791, R829, R840) -/

/-- The boot setting of bridle 19 (R791): PROTECTED, loft RATE 9,600 MB/s, BURST 65,536, LAT_TARGET 8,000 ns. -/
def bootBridle : BridleCfg :=
  { inst := 19, cls := 2, gprio := 0, uprio := 0, loftRate := 9600, loftBurst := 65536, yardRate := 0, yardBurst := 512,
    lat := 8000 }

/-- DEGRADED pairs are held in reset. DEDUCED, note 36. -/
def Side.holdDegraded (x : Side) : Side :=
  (List.range 4).foldl (fun (x : Side) p =>
    if x.flag (Reg.GLV_STAT.inst p) 2 then (x.setField (Reg.GLV_STAT.inst p) 1 0 1).modPair p fun g => { g with down := true }
    else x) x

/-- SAFE right after the reset: FENCED with a DEGRADED pair, else INIT (R729); FAULT_x_N is driven low. -/
def Side.startSafe (x : Side) : Side :=
  let x := x.modSafe fun s => { s with faultLow := true, kickMt := x.mt, hbMt := x.mt, hbWatch := x.mt }
  if x.field Reg.SAFE_STAT 15 12 = 0 then x.setField Reg.SAFE_STAT 2 0 0
  else (x.setField Reg.SAFE_STAT 2 0 3).faultMessage 4
    { cls := 0, block := T.GLV, inst := 0, ev := Ev.GLV_DEGRADED.bit, stream := 0 }

/-- The die leaves its fault reset: the domains that were on come back; Rhordo starts from the sealed copy and the
re-verification begins. A channel with no sealed image waits for one. -/
def Side.releaseReset (x : Side) : Side :=
  let x := x.modRst fun r => { r with phase := .run, paused := false, blind := true }
  let x := (x.wrN Reg.PWR_DOM_STAT x.me.rst.domains).setFlag Reg.PWR_THERM_STAT 3 false
  let x := x.holdDegraded.startSafe.startWipes
  let x := ((x.accrueAll).putBridle bootBridle).updBridles
  let x := x.hwr (x.iov Reg.IOV_WIN 0) x.me.pfWin
  if x.me.hbx.seals.any fun e => e.kind == 1 then (x.setMode 4).setFlag Reg.HBX_STAT 6 true
  else (x.setMode 1).waitImage 3

/-- FAULT_RESET_RELEASE (R829, R838, R840): a reset that an emergency paused resumes once the die is calm. -/
def execFaultResetRelease (n : Now) (d : Ch) (s : State) : Host.Outcome State Fault Refusal :=
  onAny n d (fun x => if x.me.rst.phase != .faultReset || !x.calm then x else x.releaseReset) s

/-! ## Re-verification (R792, R794) -/

/-- The place of a container in the order of R792. DEDUCED, note 40. -/
def verifyRank (e : SealEntry) : Nat :=
  if e.kind = 1 then 0
  else if !(e.kind == 2 || e.kind == 3) then 1
  else if e.fixed then 2 + e.stall else 16 + e.stall

/-- The container that is being verified: of those still pending the first in the order, then in the table. -/
def Side.verifying (x : Side) : Option SealEntry :=
  (x.me.hbx.seals.filter (·.pendingVerify)).foldl (fun (o : Option SealEntry) e => match o with
    | none => some e
    | some b => if verifyRank e < verifyRank b then some e else some b) none

/-- Its entry is verified. -/
def Side.markVerified (x : Side) (slot : Nat) : Side :=
  x.modHbx fun h => { h with seals := h.seals.map fun e => if e.slot = slot then { e with pendingVerify := false } else e }

/-- A served stall's container fails: that stall is removed, its sealed regions with it. -/
def Side.dropServed (x : Side) (st : Nat) : Side :=
  let mine := (x.me.hbx.seals.filter fun e => e.stall == st).map (·.slot)
  (mine.foldl Side.unsealSlot x).modStl st fun s => { s with cfg := none }

/-- A container was verified again (R792, R794): a failure on the restart path leaves the channel in WAIT_IMAGE, one of a
served stall removes that stall; what waits for the path goes on. DEDUCED, note 40. -/
def Side.reverified (x : Side) (e : SealEntry) (ok : Bool) : Side :=
  let x :=
    if ok then (x.markVerified e.slot).count Ct.HBX_VERIFY_OK
    else if e.onPath then x.containerRefused.waitImage 3
    else x.containerRefused.dropServed e.stall
  let x := if x.verifying.isNone || x.mode = 2 then x.setFlag Reg.HBX_STAT 6 false else x
  if x.mode = 2 then x else x.rearmAll

/-- The payload of a sealed container still has the digest in the seal table (R788, R792). -/
def Side.sealIntact (x : Side) (e : SealEntry) : Bool :=
  bytesWords (sha384 (x.loftGet (e.base + 512) (parseHead (x.loftGet e.base 512)).payload)) == e.digest

/-- SEALED_REVERIFY_DONE (R695, R792, R794): `ok` says what the signature engines find. -/
def execSealedReverifyDone (n : Now) (d : Ch) (ok : Bool) (s : State) : Host.Outcome State Fault Refusal :=
  onLive n d (fun x =>
    if !x.me.rst.warm || !x.flag Reg.HBX_STAT 6 then x
    else match x.verifying with
      | none => x
      | some e => x.reverified e (ok && x.sealIntact e)) s

end Sys2Proof.Machine
end

