-- ==== Sys2Proof/Machine/SelfTest.lean ====
section
/-!
DEFINITION. Where online self-test places its slices: the windows of R757, R760 and R761, and the start of a slice (R756,
R758).
-/

namespace Sys2Proof.Machine

/-- The plan-table entry of slot k and engine e is RESERVE (R312). -/
def Side.reserves (x : Side) (st e k : Nat) : Bool := fld (x.planEntry st k e).1 1 0 == 3

/-- Nanoseconds left of the run of RESERVE slots in which an engine stands; none outside one (R320, R760). -/
def Side.reserveLeft (x : Side) (st e : Nat) : Option Nat :=
  let c := x.me.cad
  if x.cadSrc = 0 || !x.reserves st e x.slotNow then none
  else
    let k := ((List.range (c.slots - x.slotNow)).find? fun k => decide (0 < k) && !x.reserves st e (x.slotNow + k)).getD (c.slots - x.slotNow)
    some (x.slotLeft (x.slotNow + k))

/-- The window of an engine of a stall: a RESERVE run, for a served stall a SERVE window too; the engine is at rest, so that
a step is suspended at a descriptor boundary (R757, R761). -/
def Side.engineWindow (x : Side) (st e : Nat) : Option Nat :=
  if x.teState e != 0 then none
  else (x.reserveLeft st e).or (if x.served st then x.serveLeft st e else none)

/-- Slot k lies in the projection or the track budget of the fusion block (R515, R525). -/
def Side.fusBudget (x : Side) (k : Nat) : Bool :=
  (decide (x.pf 0 20 10 ≤ k) && decide (k < x.pf 0 31 21))
    || (bit (x.pw 1) 21 && decide (x.pf 1 9 0 ≤ k) && decide (k < x.pf 1 20 10))

/-- The window of the fusion block: the slots up to the next budget, while no stage runs (R757). -/
def Side.fusWindow (x : Side) : Option Nat :=
  let c := x.me.cad
  if !x.fusOn || x.me.fus.proj.isSome || x.me.fus.trk.isSome then none
  else if x.cadSrc = 0 then some (2 ^ 64)
  else if x.fusBudget x.slotNow then none
  else
    let k := ((List.range (c.slots - x.slotNow)).find? fun k => x.fusBudget (x.slotNow + k)).getD (c.slots - x.slotNow)
    some (x.slotLeft (x.slotNow + k))

/-- The window in which a slice of a unit may start now, as the nanoseconds that remain in it; none outside one (R757). A
bank that no stall holds and an idle page DMA unit have no end of their window. DEDUCED, note 134. -/
def Side.sliceWindow (x : Side) (u : TestUnit) : Option Nat :=
  match u with
  | .te e => (x.unitStall u).bind fun st => x.engineWindow st e
  | .bank _ => match x.unitStall u with
    | some st => (x.engines st).findSome? (x.reserveLeft st)
    | none => some (2 ^ 64)
  | .pdma i => if x.field (Reg.PDMA_STAT.inst i) 1 0 = 0 then some (2 ^ 64) else none
  | .fus => x.fusWindow

/-- The time left for a slice: that of the window, or less where FP-SAFE allows it less. DEDUCED, note 134. -/
def Side.sliceLeft (x : Side) (u : TestUnit) (leftNs : Nat) : Nat := min leftNs ((x.sliceWindow u).getD 0)

/-- SELFTEST_SLICE_START (R756 to R758, R761): only with 40,338 ns left in the unit's window; a slice not started is
counted. -/
def execSelftestSliceStart (n : Now) (d : Ch) (u : TestUnit) (leftNs : Nat) (s : State) :
    Host.Outcome State Fault Refusal :=
  onLive n d (fun x =>
    if x.sliceLeft u leftNs < 40338 then x.count Ct.SAFE_SLICES_SKIPPED
    else if x.unitFenced u || x.me.safe.slices.any (fun e => e.1 == u) then x
    else x.startSlice u) s

end Sys2Proof.Machine
end

