-- ==== Sys2Proof/Machine/Dispatch.lean ====
section
/-!
DEFINITION. The dispatch of commands to their meanings: one arm for each row of the table, each one call.
-/

namespace Sys2Proof.Machine

/-- The effect of a command on everything but the queue. -/
def exec (i : Instr) (s : State) : Host.Outcome State Fault Refusal :=
  match i with
  | .csiFrameStart n d port vc num => Sys2Proof.Machine.execCsiFrameStart n d port vc num s
  | .csiLine n d port vc dtype payload err => Sys2Proof.Machine.execCsiLine n d port vc dtype payload err s
  | .csiFrameEnd n d port vc => Sys2Proof.Machine.execCsiFrameEnd n d port vc s
  | .csiFrameTimeout n d port vc => Sys2Proof.Machine.execCsiFrameTimeout n d port vc s
  | .imuDrdy n d u => Sys2Proof.Machine.execImuDrdy n d u s
  | .imuBurstDone n d u burst => Sys2Proof.Machine.execImuBurstDone n d u burst s
  | .ethSensorFrame n d fcsOk => Sys2Proof.Machine.execEthSensorFrame n d fcsOk s
  | .projectionCommit n d => Sys2Proof.Machine.execProjectionCommit n d s
  | .projectionBudgetEnd n d => Sys2Proof.Machine.execProjectionBudgetEnd n d s
  | .trackCommit n d => Sys2Proof.Machine.execTrackCommit n d s
  | .trackBudgetEnd n d => Sys2Proof.Machine.execTrackBudgetEnd n d s
  | .fusSwap n d w v => Sys2Proof.Machine.execFusSwap n d w v s
  | .fusEnable n d w v => Sys2Proof.Machine.execFusEnable n d w v s
  | .csiLinkChange n d port up => Sys2Proof.Machine.execCsiLinkChange n d port up s
  | .gfxJob n d r j => Sys2Proof.Machine.execGfxJob n d r j s
  | .workgroupDispatch n d core => Sys2Proof.Machine.execWorkgroupDispatch n d core s
  | .workgroupEnd n d core acc w => Sys2Proof.Machine.execWorkgroupEnd n d core acc w s
  | .workgroupKill n d core => Sys2Proof.Machine.execWorkgroupKill n d core s
  | .compJobStart n d r => Sys2Proof.Machine.execCompJobStart n d r s
  | .compLatestStart n d r => Sys2Proof.Machine.execCompLatestStart n d r s
  | .jobCommit n d r acc gone => Sys2Proof.Machine.execJobCommit n d r acc gone s
  | .displayFrameStart n d p => Sys2Proof.Machine.execDisplayFrameStart n d p s
  | .dpyLineStart n d p starved => Sys2Proof.Machine.execDpyLineStart n d p starved s
  | .telltaleCrcCheck n d p r wrong flips => Sys2Proof.Machine.execTelltaleCrcCheck n d p r wrong flips s
  | .telltaleStall n d p => Sys2Proof.Machine.execTelltaleStall n d p s
  | .telltaleAtlasLoad n d p => Sys2Proof.Machine.execTelltaleAtlasLoad n d p s
  | .plFlip n d w p k v => Sys2Proof.Machine.execPlFlip n d w p k v s
  | .dpyEnable n d w p v => Sys2Proof.Machine.execDpyEnable n d w p v s
  | .dpyRetrain n d w p trains => Sys2Proof.Machine.execDpyRetrain n d w p trains s
  | .dpHpdChange n d p up => Sys2Proof.Machine.execDpHpdChange n d p up s
  | .ttRegionWrite n d w p r reg v => Sys2Proof.Machine.execTtRegionWrite n d w p r reg v s
  | .ethFrameRx n d p f fcsOk par => Sys2Proof.Machine.execEthFrameRx n d p f fcsOk par s
  | .ethFrameTxStart n d p => Sys2Proof.Machine.execEthFrameTxStart n d p s
  | .ethFrameTxEnd n d p => Sys2Proof.Machine.execEthFrameTxEnd n d p s
  | .gateEntryAdvance n d p => Sys2Proof.Machine.execGateEntryAdvance n d p s
  | .streamGateAdvance n d g => Sys2Proof.Machine.execStreamGateAdvance n d g s
  | .cbRecoveryReset n d h => Sys2Proof.Machine.execCbRecoveryReset n d h s
  | .fdbAgeing n d mac vid => Sys2Proof.Machine.execFdbAgeing n d mac vid s
  | .ethLinkChange n d p up verified => Sys2Proof.Machine.execEthLinkChange n d p up verified s
  | .netImgLoad n d w v => Sys2Proof.Machine.execNetImgLoad n d w v s
  | .netImgLoadDone n d => Sys2Proof.Machine.execNetImgLoadDone n d s
  | .canFrameRx n d c f par => Sys2Proof.Machine.execCanFrameRx n d c f par s
  | .canFrameTx n d c => Sys2Proof.Machine.execCanFrameTx n d c s
  | .canBusOff n d c => Sys2Proof.Machine.execCanBusOff n d c s
  | .cangRecover n d w c v => Sys2Proof.Machine.execCangRecover n d w c v s
  | .acfMaxWaitExpiry n d t => Sys2Proof.Machine.execAcfMaxWaitExpiry n d t s
  | .busOffRecoveryDone n d c => Sys2Proof.Machine.execBusOffRecoveryDone n d c s
  | .canProtocolError n d c e => Sys2Proof.Machine.execCanProtocolError n d c e s
  | .cbbNearWrite n d ix off bytes => Sys2Proof.Machine.execCbbNearWrite n d ix off bytes s
  | .cbbNearRead n d ix off len => Sys2Proof.Machine.execCbbNearRead n d ix off len s
  | .cbbAtomic n d ix off op => Sys2Proof.Machine.execCbbAtomic n d ix off op s
  | .cbbReadReissue n d ix off len => Sys2Proof.Machine.execCbbReadReissue n d ix off len s
  | .cbbFarCycleStart n d => Sys2Proof.Machine.execCbbFarCycleStart n d s
  | .cbbFarCycleEnd n d waits data err => Sys2Proof.Machine.execCbbFarCycleEnd n d waits data err s
  | .cbbCycleTimeout n d => Sys2Proof.Machine.execCbbCycleTimeout n d s
  | .cbbRbExpiry n d buf => Sys2Proof.Machine.execCbbRbExpiry n d buf s
  | .cbbSemRead n d ix c => Sys2Proof.Machine.execCbbSemRead n d ix c s
  | .cbbSemRelease n d ix c v => Sys2Proof.Machine.execCbbSemRelease n d ix c v s
  | .cbbSemForced n d c => Sys2Proof.Machine.execCbbSemForced n d c s
  | .cbbWindowWrite n d w win r v => Sys2Proof.Machine.execCbbWindowWrite n d w win r v s
  | .descriptorStart n d e => Sys2Proof.Machine.execDescriptorStart n d e s
  | .workUnitDone n d e upsets => Sys2Proof.Machine.execWorkUnitDone n d e upsets s
  | .descriptorCommit n d e => Sys2Proof.Machine.execDescriptorCommit n d e s
  | .wcetOverrun n d e => Sys2Proof.Machine.execWcetOverrun n d e s
  | .listBudgetEnd n d e => Sys2Proof.Machine.execListBudgetEnd n d e s
  | .engineStopDrained n d e => Sys2Proof.Machine.execEngineStopDrained n d e s
  | .serveWindowEnd n d e => Sys2Proof.Machine.execServeWindowEnd n d e s
  | .stepForm n d st => Sys2Proof.Machine.execStepForm n d st s
  | .stepCommit n d st outs => Sys2Proof.Machine.execStepCommit n d st outs s
  | .pdmaPageDeliver n d u e => Sys2Proof.Machine.execPdmaPageDeliver n d u e s
  | .pageMoveDone n d st u => Sys2Proof.Machine.execPageMoveDone n d st u s
  | .swapOutCommit n d st => Sys2Proof.Machine.execSwapOutCommit n d st s
  | .shedPageArrived n d st u => Sys2Proof.Machine.execShedPageArrived n d st u s
  | .swapInCommit n d st => Sys2Proof.Machine.execSwapInCommit n d st s
  | .admission n d r q => Sys2Proof.Machine.execAdmission n d r q s
  | .remove n d r st => Sys2Proof.Machine.execRemove n d r st s
  | .stallDrainEnd n d st => Sys2Proof.Machine.execStallDrainEnd n d st s
  | .chanCfg n d r l => Sys2Proof.Machine.execChanCfg n d r l s
  | .seqSubmit n d r => Sys2Proof.Machine.execSeqSubmit n d r s
  | .seqAbort n d r => Sys2Proof.Machine.execSeqAbort n d r s
  | .gdmaUnitZeroed n d => Sys2Proof.Machine.execGdmaUnitZeroed n d s
  | .alternateWindowToggle n d => Sys2Proof.Machine.execAlternateWindowToggle n d s
  | .powerUp n d => Sys2Proof.Machine.execPowerUp n d s
  | .resetPin n d => Sys2Proof.Machine.execResetPin n d s
  | .brownOut n d aon => Sys2Proof.Machine.execBrownOut n d aon s
  | .coldResetRelease n d => Sys2Proof.Machine.execColdResetRelease n d s
  | .loftTrainingDone n d ok => Sys2Proof.Machine.execLoftTrainingDone n d ok s
  | .flashImageReadDone n d len => Sys2Proof.Machine.execFlashImageReadDone n d len s
  | .startupSelftestDone n d bad manifest => Sys2Proof.Machine.execStartupSelftestDone n d bad manifest s
  | .faultResetRequest n d => Sys2Proof.Machine.execFaultResetRequest n d s
  | .faultReset n d => Sys2Proof.Machine.execFaultReset n d s
  | .faultResetRelease n d => Sys2Proof.Machine.execFaultResetRelease n d s
  | .hubReset n t => Sys2Proof.Machine.execHubReset n t s
  | .hubReturn n => Sys2Proof.Machine.execHubReturn n s
  | .syncReceived n d port domain gm originPs corr logIv => Sys2Proof.Machine.execSyncReceived n d port domain gm originPs corr logIv s
  | .announceReceived n d port domain gm => Sys2Proof.Machine.execAnnounceReceived n d port domain gm s
  | .syncReceiptTimeout n d wt => Sys2Proof.Machine.execSyncReceiptTimeout n d wt s
  | .syncTransmit n d port wt => Sys2Proof.Machine.execSyncTransmit n d port wt s
  | .pdelayExchange n d port resp => Sys2Proof.Machine.execPdelayExchange n d port resp s
  | .holdrefEdge n d periodPs => Sys2Proof.Machine.execHoldrefEdge n d periodPs s
  | .holdoverExpired n d wt => Sys2Proof.Machine.execHoldoverExpired n d wt s
  | .gmRoleClear n d w wt => Sys2Proof.Machine.execGmRoleClear n d w wt s
  | .gmAccept n d w v => Sys2Proof.Machine.execGmAccept n d w v s
  | .snap n d w v => Sys2Proof.Machine.execSnap n d w v s
  | .portRoleWrite n d w port v => Sys2Proof.Machine.execPortRoleWrite n d w port v s
  | .frameStart n d => Sys2Proof.Machine.execFrameStart n d s
  | .slotStart n d => Sys2Proof.Machine.execSlotStart n d s
  | .fsyncPulse n d ix rise => Sys2Proof.Machine.execFsyncPulse n d ix rise s
  | .stoppedFrameTick n d => Sys2Proof.Machine.execStoppedFrameTick n d s
  | .cadApply n d w v => Sys2Proof.Machine.execCadApply n d w v s
  | .cadRun n d w startMt => Sys2Proof.Machine.execCadRun n d w startMt s
  | .cadStop n d w => Sys2Proof.Machine.execCadStop n d w s
  | .launchCfgWrite n d w r v => Sys2Proof.Machine.execLaunchCfgWrite n d w r v s
  | .fsyncTimingWrite n d w ix width v => Sys2Proof.Machine.execFsyncTimingWrite n d w ix width v s
  | .instanceCfg n d r => Sys2Proof.Machine.execInstanceCfg n d r s
  | .instanceReset n d r => Sys2Proof.Machine.execInstanceReset n d r s
  | .iovMap n d r => Sys2Proof.Machine.execIovMap n d r s
  | .logMask n d r => Sys2Proof.Machine.execLogMask n d r s
  | .imageUpdate n d r => Sys2Proof.Machine.execImageUpdate n d r s
  | .attest n d r => Sys2Proof.Machine.execAttest n d r s
  | .lifecycle n d r => Sys2Proof.Machine.execLifecycle n d r s
  | .replay n d r => Sys2Proof.Machine.execReplay n d r s
  | .nop n d r => Sys2Proof.Machine.execNop n d r s
  | .abort n d r => Sys2Proof.Machine.execAbort n d r s
  | .commandAccept n d fn => Sys2Proof.Machine.execCommandAccept n d fn s
  | .doorbellWrite n d fn reg v => Sys2Proof.Machine.execDoorbellWrite n d fn reg v s
  | .loadImage n d len => Sys2Proof.Machine.execLoadImage n d len s
  | .enterRing n d off => Sys2Proof.Machine.execEnterRing n d off s
  | .query n d => Sys2Proof.Machine.execQuery n d s
  | .leaveRing n d => Sys2Proof.Machine.execLeaveRing n d s
  | .glovePairCrash n d p c => Sys2Proof.Machine.execGlovePairCrash n d p c s
  | .glvWatchdogExpiry n d p => Sys2Proof.Machine.execGlvWatchdogExpiry n d p s
  | .glvLockup n d p => Sys2Proof.Machine.execGlvLockup n d p s
  | .glovePairRestartDone n d p => Sys2Proof.Machine.execGlovePairRestartDone n d p s
  | .glvMismatch n d p port => Sys2Proof.Machine.execGlvMismatch n d p port s
  | .glvSelftestDone n d p mainPass checkerPass => Sys2Proof.Machine.execGlvSelftestDone n d p mainPass checkerPass s
  | .safeReady n d w v => Sys2Proof.Machine.execSafeReady n d w v s
  | .safeEnter n d w v => Sys2Proof.Machine.execSafeEnter n d w v s
  | .safeRelease n d w v => Sys2Proof.Machine.execSafeRelease n d w v s
  | .safeKick n d w v => Sys2Proof.Machine.execSafeKick n d w v s
  | .safeKickTimeout n d => Sys2Proof.Machine.execSafeKickTimeout n d s
  | .safeReleaseMaxExpiry n d => Sys2Proof.Machine.execSafeReleaseMaxExpiry n d s
  | .faultMessageSend n d x => Sys2Proof.Machine.execFaultMessageSend n d x s
  | .selftestSliceStart n d u leftNs => Sys2Proof.Machine.execSelftestSliceStart n d u leftNs s
  | .selftestSliceEnd n d u pass => Sys2Proof.Machine.execSelftestSliceEnd n d u pass s
  | .coveragePeriodEnd n d => Sys2Proof.Machine.execCoveragePeriodEnd n d s
  | .bridleIssue n d b req => Sys2Proof.Machine.execBridleIssue n d b req s
  | .loftRequestComplete n d b e => Sys2Proof.Machine.execLoftRequestComplete n d b e s
  | .yardAccess n d m r addr len write flips => Sys2Proof.Machine.execYardAccess n d m r addr len write flips s
  | .loftBurstRetry n d block ok => Sys2Proof.Machine.execLoftBurstRetry n d block ok s
  | .mirrorRefetchDone n d line srcOk => Sys2Proof.Machine.execMirrorRefetchDone n d line srcOk s
  | .mirrorFillDone n d stall => Sys2Proof.Machine.execMirrorFillDone n d stall s
  | .writebackIssue n d => Sys2Proof.Machine.execWritebackIssue n d s
  | .loftUnitWiped n d => Sys2Proof.Machine.execLoftUnitWiped n d s
  | .yardZeroDone n d => Sys2Proof.Machine.execYardZeroDone n d s
  | .dqsTracking n d x16 => Sys2Proof.Machine.execDqsTracking n d x16 s
  | .mr4Poll n d fields => Sys2Proof.Machine.execMr4Poll n d fields s
  | .yardPatrolScrub n d line flips => Sys2Proof.Machine.execYardPatrolScrub n d line flips s
  | .loftPatrolScrub n d block e => Sys2Proof.Machine.execLoftPatrolScrub n d block e s
  | .bridleDerate n d => Sys2Proof.Machine.execBridleDerate n d s
  | .brdlMaxlatClr n d w b v => Sys2Proof.Machine.execBrdlMaxlatClr n d w b v s
  | .pcieLinkDown n => Sys2Proof.Machine.execPcieLinkDown n s
  | .pcieLinkUp n rate width => Sys2Proof.Machine.execPcieLinkUp n rate width s
  | .flr n d fn => Sys2Proof.Machine.execFlr n d fn s
  | .iovCtrlReset n d w fn v => Sys2Proof.Machine.execIovCtrlReset n d w fn v s
  | .instanceResetDrained n d fn => Sys2Proof.Machine.execInstanceResetDrained n d fn s
  | .instanceResetDrainTimeout n d fn => Sys2Proof.Machine.execInstanceResetDrainTimeout n d fn s
  | .instanceResetDone n d fn => Sys2Proof.Machine.execInstanceResetDone n d fn s
  | .apertureWrite n d fn off bytes ep ecrcOk => Sys2Proof.Machine.execApertureWrite n d fn off bytes ep ecrcOk s
  | .apertureRead n d fn off len => Sys2Proof.Machine.execApertureRead n d fn off len s
  | .shedCfgWrite n d w size hi v => Sys2Proof.Machine.execShedCfgWrite n d w size hi v s
  | .msixUnmask n d fn vec => Sys2Proof.Machine.execMsixUnmask n d fn vec s
  | .heartbeatSend n d => Sys2Proof.Machine.execHeartbeatSend n d s
  | .heartbeatReceived n d => Sys2Proof.Machine.execHeartbeatReceived n d s
  | .heartbeatPeriodMiss n d => Sys2Proof.Machine.execHeartbeatPeriodMiss n d s
  | .mailboxSend n d w v => Sys2Proof.Machine.execMailboxSend n d w v s
  | .mailboxReceive n d => Sys2Proof.Machine.execMailboxReceive n d s
  | .mailboxPop n d w v => Sys2Proof.Machine.execMailboxPop n d w v s
  | .hatboxDoorbell n d w v => Sys2Proof.Machine.execHatboxDoorbell n d w v s
  | .verify n d p sig => Sys2Proof.Machine.execVerify n d p sig s
  | .unseal n d p => Sys2Proof.Machine.execUnseal n d p s
  | .authCheck n d p tagOk => Sys2Proof.Machine.execAuthCheck n d p tagOk s
  | .attestRequest n d p => Sys2Proof.Machine.execAttestRequest n d p s
  | .lifecycleRequest n d p sig => Sys2Proof.Machine.execLifecycleRequest n d p sig s
  | .random n d p => Sys2Proof.Machine.execRandom n d p s
  | .flashWrite n d p sig => Sys2Proof.Machine.execFlashWrite n d p sig s
  | .debugUnlock n d p sig => Sys2Proof.Machine.execDebugUnlock n d p sig s
  | .hatboxRequestDone n d => Sys2Proof.Machine.execHatboxRequestDone n d s
  | .sealedReverifyDone n d ok => Sys2Proof.Machine.execSealedReverifyDone n d ok s
  | .lifecycleWipeDone n d => Sys2Proof.Machine.execLifecycleWipeDone n d s
  | .rngHealthFail n d => Sys2Proof.Machine.execRngHealthFail n d s
  | .hatboxCrash n d => Sys2Proof.Machine.execHatboxCrash n d s
  | .hatboxRestartDone n d => Sys2Proof.Machine.execHatboxRestartDone n d s
  | .claimChange n d dom claim => Sys2Proof.Machine.execClaimChange n d dom claim s
  | .claimDeferTimeout n d => Sys2Proof.Machine.execClaimDeferTimeout n d s
  | .pwrReqOn n d w dom => Sys2Proof.Machine.execPwrReqOn n d w dom s
  | .pwrReqOff n d w dom => Sys2Proof.Machine.execPwrReqOff n d w dom s
  | .domainPowerUpDone n d dom => Sys2Proof.Machine.execDomainPowerUpDone n d dom s
  | .domainPowerOff n d dom => Sys2Proof.Machine.execDomainPowerOff n d dom s
  | .thermalPoll n hub d temps => Sys2Proof.Machine.execThermalPoll n hub d temps s
  | .clockCheck n d clock dev locked => Sys2Proof.Machine.execClockCheck n d clock dev locked s
  | .refClockLost n d => Sys2Proof.Machine.execRefClockLost n d s
  | .refClockReturn n d => Sys2Proof.Machine.execRefClockReturn n d s
  | .recEnable n d w v => Sys2Proof.Machine.execRecEnable n d w v s
  | .recordWrite n d => Sys2Proof.Machine.execRecordWrite n d s
  | .recordDropTimeout n d => Sys2Proof.Machine.execRecordDropTimeout n d s
  | .exportDone n d => Sys2Proof.Machine.execExportDone n d s
  | .blkQuiesce n d w hub page set => Sys2Proof.Machine.execBlkQuiesce n d w hub page set s
  | .blkDisable n d w hub page v => Sys2Proof.Machine.execBlkDisable n d w hub page v s
  | .softReset n d w hub page => Sys2Proof.Machine.execSoftReset n d w hub page s
  | .evtRawClear n d w hub page v raisedNow => Sys2Proof.Machine.execEvtRawClear n d w hub page v raisedNow s
  | .evtEnWrite n d w hub page v => Sys2Proof.Machine.execEvtEnWrite n d w hub page v s
  | .evtSet n d w hub page v => Sys2Proof.Machine.execEvtSet n d w hub page v s
  | .cntOvfClear n d w hub page v incNow => Sys2Proof.Machine.execCntOvfClear n d w hub page v incNow s
  | .lock n d w hub page => Sys2Proof.Machine.execLock n d w hub page s
  | .lowWordRead n d w sp off => Sys2Proof.Machine.execLowWordRead n d w sp off s
  | .registerWrite n d w sp off v => Sys2Proof.Machine.execRegisterWrite n d w sp off v s
  | .holdrefReferenceStopped n d => Sys2Proof.Machine.execHoldrefReferenceStopped n d s
  | .announceTransmit n d port wt => Sys2Proof.Machine.execAnnounceTransmit n d port wt s
  | .debugAccess n d p act => Sys2Proof.Machine.execDebugAccess n d p act s
  | .entropyStartupTestsPass n d => Sys2Proof.Machine.execEntropyStartupTestsPass n d s
  | .imageVerificationDone n d res img => Sys2Proof.Machine.execImageVerificationDone n d res img s

end Sys2Proof.Machine
end

