-- ==== Sys2Proof/Safety.lean ====
section
/-!
DEFINITION. The terms in which statements speak of the machine: when a channel takes commands undisturbed, when a
register write is performed, what a state reads, which command belongs to which channel, and the invariant of safe runs.
-/

namespace Sys2Proof.Machine

/-- A register of a channel's die, and of the hub. -/
def State.reg (s : State) (d : Ch) (a : Reg) : Word := (s.side d).rd a
def State.hreg (s : State) (a : Reg) : Word := Tbl.get (resetOf 2 a) s.hub.regs a

/-- A write of a register of the die is performed: its page answers, WORLD and LOCK permit it (R864, R871). -/
def Side.may (x : Side) (w : Init) (a : Reg) : Bool :=
  x.pageOn a && worldPermits (x.rd (pageOf a + Reg.OWNER)) x.d false w &&
    !(lockedOut a (x.rd (pageOf a + Reg.LOCK)) && !x.lockedJust false a)

/-- A write of a register of the hub is performed: the initiator reaches the hub, the page answers, WORLD and LOCK permit
it. -/
def Side.hmay (x : Side) (w : Init) (a : Reg) : Bool := x.reachesHub w && x.hubPageOn a && x.hpermits w a

/-- No page of the die or of the hub routes an event to the FAULT pin (R876). -/
def Side.NoPins (x : Side) : Prop :=
  (∀ t i, bit (x.rd (headReg t i Reg.EVT_ROUTE)) 9 = false) ∧ ∀ t i, bit (x.hrd (headReg t i Reg.EVT_ROUTE)) 9 = false

/-- The die runs and no safe-state trigger waits: what a command of the channel does is its own effect. -/
def Side.Ready (x : Side) : Prop := x.live = true ∧ x.me.fired = []

/-- The same with no event routed to the FAULT pin: no event that a command raises enters safe state. -/
def Side.Calm (x : Side) : Prop := x.Ready ∧ x.NoPins

/-- The channel's view after the time that a command carries. -/
def State.at_ (s : State) (n : Now) (d : Ch) : Side := (s.elapse n).side d

/-- Rhordo takes the accepted ring command c that r names, of opcode op: FP-HOST runs, its function is not being reset, and
its AUTH check is done (R711, R723). -/
def Side.Takes (x : Side) (r : CmdRef) (op : Nat) (c : Cmd) : Prop :=
  x.pairUp 0 = true ∧ (r.fn.val < 17 → x.resetHolds r.fn = false) ∧ x.cmd r = some c ∧ c.op = op ∧ c.checked = true

/-- The same for a command that FP-PLAN carries out: it runs, and the channel is not FENCED (R725, R746). -/
def Side.Plans (x : Side) (r : CmdRef) (op : Nat) (c : Cmd) : Prop :=
  x.pairUp 1 = true ∧ x.safeState ≠ 3 ∧ x.cmd r = some c ∧ c.op = op ∧ c.checked = true

/-- The same for a command that the module's hardware carries out. -/
def Side.Holds (x : Side) (r : CmdRef) (op : Nat) (c : Cmd) : Prop := x.cmd r = some c ∧ c.op = op ∧ c.checked = true

/-- The state after a command of channel d: the time that it carries passes, then an operation on the channel's view, and
nothing more. -/
def State.after (s : State) (n : Now) (d : Ch) (f : Side → Side) : State := (s.elapse n).onSide d f

/-- The same, and then every safe-state trigger that the operation fired is entered (R731). -/
def State.ends (s : State) (n : Now) (d : Ch) (f : Side → Side) : State := s.after n d fun x => (f x).settle

/-- The state after a command of the cadence (R97): on a running die as after any other, in a reset that leaves AON alone
with no trigger entered. -/
def State.runs (s : State) (n : Now) (d : Ch) (f : Side → Side) : State :=
  if (s.at_ n d).live then s.ends n d f
  else s.after n d fun x => { f x with me := { (f x).me with fired := x.me.fired } }

/-- The Hatbox works on a request of pair p with a code that the pair may make, and has no answer yet (R778 to R780). -/
def Side.Serves (x : Side) (p : Fin 4) (code : Nat) : Prop :=
  x.me.hbx.busy = true ∧ x.me.hbx.waiting.head? = some p.val ∧ x.me.hbx.answer = none ∧ x.flag Reg.HBX_STAT 7 = false
    ∧ x.arg p 0 % 256 = code ∧ requestOk code p = true

/-- The die that a command is of, with its times: the command is one of that die's blocks, or an access of its region. None
for a command of the hub: of the host link, of the peer paths, or of a page of the hub. DEDUCED, note 124. -/
def dieOf : Instr → Option (Now × Ch)
  | .csiFrameStart n d .. | .csiLine n d .. | .csiFrameEnd n d .. | .csiFrameTimeout n d .. | .imuDrdy n d ..
    | .imuBurstDone n d .. | .ethSensorFrame n d .. | .projectionCommit n d | .projectionBudgetEnd n d
    | .trackCommit n d | .trackBudgetEnd n d | .fusSwap n d .. | .fusEnable n d .. | .csiLinkChange n d ..
    | .gfxJob n d .. | .workgroupDispatch n d .. | .workgroupEnd n d .. | .workgroupKill n d .. | .compJobStart n d ..
    | .compLatestStart n d .. | .jobCommit n d .. | .displayFrameStart n d .. | .dpyLineStart n d ..
    | .telltaleCrcCheck n d .. | .telltaleStall n d .. | .telltaleAtlasLoad n d .. | .plFlip n d ..
    | .dpyEnable n d .. | .dpyRetrain n d .. | .dpHpdChange n d .. | .ttRegionWrite n d .. | .ethFrameRx n d ..
    | .ethFrameTxStart n d .. | .ethFrameTxEnd n d .. | .gateEntryAdvance n d .. | .streamGateAdvance n d ..
    | .cbRecoveryReset n d .. | .fdbAgeing n d .. | .ethLinkChange n d .. | .netImgLoad n d .. | .netImgLoadDone n d
    | .canFrameRx n d .. | .canFrameTx n d .. | .canBusOff n d .. | .cangRecover n d .. | .acfMaxWaitExpiry n d ..
    | .busOffRecoveryDone n d .. | .canProtocolError n d .. | .cbbNearWrite n d .. | .cbbNearRead n d ..
    | .cbbAtomic n d .. | .cbbReadReissue n d .. | .cbbFarCycleStart n d | .cbbFarCycleEnd n d ..
    | .cbbCycleTimeout n d | .cbbRbExpiry n d .. | .cbbSemRead n d .. | .cbbSemRelease n d .. | .cbbSemForced n d ..
    | .cbbWindowWrite n d .. | .descriptorStart n d .. | .workUnitDone n d .. | .descriptorCommit n d ..
    | .wcetOverrun n d .. | .listBudgetEnd n d .. | .engineStopDrained n d .. | .serveWindowEnd n d ..
    | .stepForm n d .. | .stepCommit n d .. | .pdmaPageDeliver n d .. | .pageMoveDone n d .. | .swapOutCommit n d ..
    | .shedPageArrived n d .. | .swapInCommit n d .. | .admission n d .. | .remove n d .. | .stallDrainEnd n d ..
    | .chanCfg n d .. | .seqSubmit n d .. | .seqAbort n d .. | .gdmaUnitZeroed n d | .alternateWindowToggle n d
    | .powerUp n d | .resetPin n d | .brownOut n d .. | .coldResetRelease n d | .loftTrainingDone n d ..
    | .flashImageReadDone n d .. | .startupSelftestDone n d .. | .faultResetRequest n d | .faultReset n d
    | .faultResetRelease n d | .syncReceived n d .. | .announceReceived n d .. | .syncReceiptTimeout n d ..
    | .syncTransmit n d .. | .pdelayExchange n d .. | .holdrefEdge n d .. | .holdoverExpired n d ..
    | .gmRoleClear n d .. | .gmAccept n d .. | .snap n d .. | .portRoleWrite n d .. | .frameStart n d | .slotStart n d
    | .fsyncPulse n d .. | .stoppedFrameTick n d | .cadApply n d .. | .cadRun n d .. | .cadStop n d ..
    | .launchCfgWrite n d .. | .fsyncTimingWrite n d .. | .instanceCfg n d .. | .instanceReset n d .. | .iovMap n d ..
    | .logMask n d .. | .imageUpdate n d .. | .attest n d .. | .lifecycle n d .. | .replay n d .. | .nop n d ..
    | .abort n d .. | .commandAccept n d .. | .doorbellWrite n d .. | .loadImage n d .. | .enterRing n d ..
    | .query n d | .leaveRing n d | .glovePairCrash n d .. | .glvWatchdogExpiry n d .. | .glvLockup n d ..
    | .glovePairRestartDone n d .. | .glvMismatch n d .. | .glvSelftestDone n d .. | .safeReady n d ..
    | .safeEnter n d .. | .safeRelease n d .. | .safeKick n d .. | .safeKickTimeout n d | .safeReleaseMaxExpiry n d
    | .faultMessageSend n d .. | .selftestSliceStart n d .. | .selftestSliceEnd n d .. | .coveragePeriodEnd n d
    | .bridleIssue n d .. | .loftRequestComplete n d .. | .yardAccess n d .. | .loftBurstRetry n d ..
    | .mirrorRefetchDone n d .. | .mirrorFillDone n d .. | .writebackIssue n d | .loftUnitWiped n d
    | .yardZeroDone n d | .dqsTracking n d .. | .mr4Poll n d .. | .yardPatrolScrub n d .. | .loftPatrolScrub n d ..
    | .bridleDerate n d | .brdlMaxlatClr n d .. | .flr n d .. | .instanceResetDrained n d ..
    | .instanceResetDrainTimeout n d .. | .instanceResetDone n d .. | .apertureWrite n d .. | .apertureRead n d ..
    | .msixUnmask n d .. | .heartbeatSend n d | .hatboxDoorbell n d .. | .verify n d .. | .unseal n d ..
    | .authCheck n d .. | .attestRequest n d .. | .lifecycleRequest n d .. | .random n d .. | .flashWrite n d ..
    | .debugUnlock n d .. | .hatboxRequestDone n d | .sealedReverifyDone n d .. | .lifecycleWipeDone n d
    | .rngHealthFail n d | .hatboxCrash n d | .hatboxRestartDone n d | .claimChange n d .. | .claimDeferTimeout n d
    | .pwrReqOn n d .. | .pwrReqOff n d .. | .domainPowerUpDone n d .. | .domainPowerOff n d .. | .clockCheck n d ..
    | .refClockLost n d | .refClockReturn n d | .recEnable n d .. | .recordWrite n d | .recordDropTimeout n d
    | .exportDone n d | .lowWordRead n d .. | .holdrefReferenceStopped n d | .announceTransmit n d ..
    | .debugAccess n d .. | .entropyStartupTestsPass n d | .imageVerificationDone n d .. => some (n, d)
  | .blkQuiesce n d _ hub .. | .blkDisable n d _ hub .. | .softReset n d _ hub _ | .evtRawClear n d _ hub ..
    | .evtEnWrite n d _ hub .. | .evtSet n d _ hub .. | .cntOvfClear n d _ hub .. | .lock n d _ hub _
    | .thermalPoll n hub d _ => if hub then none else some (n, d)
  | .registerWrite n d _ sp .. => if sp = .hub then none else some (n, d)
  | .iovCtrlReset .. | .mailboxPop .. | .hubReset .. | .hubReturn .. | .pcieLinkDown .. | .pcieLinkUp .. | .shedCfgWrite ..
    | .heartbeatReceived .. | .heartbeatPeriodMiss .. | .mailboxSend .. | .mailboxReceive .. => none

/-- No safe-state trigger waits on either die: every one that fired has been entered (R731). -/
def State.NoTriggerWaits (s : State) : Prop := s.a.fired = [] ∧ s.b.fired = []

end Sys2Proof.Machine
end

