-- ==== Sys2Proof/Certificates/Slice0/Obligations.lean ====
section
/-!
DEFINITION. The statements of this model, for the provers. In each, `s.at_ n d` is channel d's view when a command of d with
the times n runs; `s.after n d f` is the state after those times and then f on that view, and nothing else; `s.ends n d f`
adds the entry of the safe-state triggers that f fired.
-/

open Sys2Proof Sys2Proof.Machine

/-! ## Sensor ingress and fusion -/

/-- CSI-2 frames and links: every camera port command completes with the effect of R488 to R493 and R529; a frame that has
lasted a frame period without its end is committed DAMAGED, and a port's link change shows and raises its event. -/
def Obligations.CameraFramesComplete : Prop :=
  (∀ (s : State) (n : Now) (d : Ch) (port : Fin 4) (vc : Fin 16) (num c : Nat), (s.at_ n d).live = true → (s.at_ n d).snsOn = true →
    (vc.val < 4 → (s.at_ n d).cameraAt port vc = none → exec (.csiFrameStart n d port vc num) s = .next (s.ends n d fun x =>
      (x.portState port vc true true).showLast port x.vt num)) ∧
    (vc.val < 4 → (s.at_ n d).cameraAt port vc = some c → exec (.csiFrameStart n d port vc num) s = .next (s.ends n d fun x =>
      (x.portState port vc true true).cameraFrame port c num)) ∧
    (vc.val < 4 → (s.at_ n d).cameraAt port vc = some c → exec (.csiFrameEnd n d port vc) s = .next (s.ends n d fun x =>
      (x.portState port vc false false).commitFrame port c (x.frameWhole c))) ∧
    (vc.val < 4 → (s.at_ n d).cameraAt port vc = none → exec (.csiFrameEnd n d port vc) s = .next (s.ends n d fun x =>
      x.portState port vc false false)) ∧
    (4 ≤ vc.val → exec (.csiFrameStart n d port vc num) s = .next (s.ends n d fun x => x.unsupportedPacket port)
      ∧ exec (.csiFrameEnd n d port vc) s = .next (s.ends n d fun x => x.unsupportedPacket port))) ∧
  (∀ (s : State) (n : Now) (d : Ch) (port : Fin 4), (s.at_ n d).live = true → (s.at_ n d).snsOn = true →
    (∀ (vc : Fin 4) (c : Nat) (q : Intake), (s.at_ n d).cameraAt port vc = some c → ((s.at_ n d).sen c).intake = some q →
      q.mt + (s.at_ n d).me.cad.period ≤ (s.at_ n d).mt →
      exec (.csiFrameTimeout n d port vc) s = .next (s.ends n d fun x =>
        (x.commitFrame port c false).setFlag (Reg.SNS_STAT.inst port) (2 + vc.val) false)) ∧
    (∀ up : Bool, (s.at_ n d).flag (Reg.SNS_STAT.inst port) 0 = !up →
      exec (.csiLinkChange n d port up) s = .next (s.ends n d fun x =>
        (x.setFlag (Reg.SNS_STAT.inst port) 0 up).raise Ev.SNS_LINK port)))

/-- CSI-2 lines: a sound or damaged line is taken as R488, R489 and R492 give, one with a header error or of an unsupported
kind is not. -/
def Obligations.CameraLinesComplete : Prop :=
  ∀ (s : State) (n : Now) (d : Ch) (port : Fin 4) (vc : Fin 16) (dtype : Nat) (payload : List Byte) (err : CsiErr),
    (s.at_ n d).live = true → (s.at_ n d).snsOn = true → dtype ≠ 2 → dtype ≠ 3 →
    (err.header = false → vc.val < 4 → planesOf dtype 2 ≠ [] →
      exec (.csiLine n d port vc dtype payload err) s = .next (s.ends n d fun x =>
        ((((if err.fixed then x.count Ct.SNS_HDR_ECC_FIXED port else x).lineError port (x.cameraAt port vc) Ct.SNS_CRC_ERRORS
          err.crc).lineError port (x.cameraAt port vc) Ct.SNS_OVERFLOWS err.overflow).lineFor (x.cameraAt port vc) dtype payload
          err.overflow))) ∧
    (err.header = true → exec (.csiLine n d port vc dtype payload err) s = .next (s.ends n d fun x =>
        ((if err.fixed then x.count Ct.SNS_HDR_ECC_FIXED port else x).spoil (x.cameraAt port vc)).setFlag
          (Reg.SNS_STAT.inst port) 6 true)) ∧
    (err.header = false → (4 ≤ vc.val ∨ planesOf dtype 2 = []) →
      exec (.csiLine n d port vc dtype payload err) s = .next (s.ends n d fun x =>
        (if err.fixed then x.count Ct.SNS_HDR_ECC_FIXED port else x).unsupportedPacket port))

/-- Stamp units and Ethernet ingress (R494 to R498): an edge is stamped or counted, a burst or a frame becomes part of a
sample. -/
def Obligations.SamplesComplete : Prop :=
  ∀ (s : State) (n : Now) (d : Ch), (s.at_ n d).live = true → (s.at_ n d).snsOn = true →
    (∀ u : Fin 2, (s.at_ n d).me.recorder.replay = none → (s.at_ n d).flag (Reg.SNS_STAT.inst (4 + u)) 1 = false →
      exec (.imuDrdy n d u) s = .next (s.ends n d fun x =>
        let st := x.stamp
        ((x.setFlag (Reg.SNS_STAT.inst (4 + u)) 1 true).wr64 (Reg.SNS_LAST_VT.inst (4 + u)) st.vt).modFus fun f =>
          { f with edges := f.edges.put u st })) ∧
    (∀ u : Fin 2, (s.at_ n d).me.recorder.replay = none → (s.at_ n d).flag (Reg.SNS_STAT.inst (4 + u)) 1 = true →
      exec (.imuDrdy n d u) s = .next (s.ends n d fun x => x.count Ct.SNS_OVERFLOWS (4 + u))) ∧
    (∀ (u : Fin 2) (burst : List Byte) (c : Nat), (s.at_ n d).flag (Reg.SNS_STAT.inst (4 + u)) 1 = true →
      (s.at_ n d).listening = true → (s.at_ n d).imuAt u = some c → (s.at_ n d).sf c 17 15 8 ≠ 0xFF →
      exec (.imuBurstDone n d u burst) s = .next (s.ends n d fun x =>
        let l := burst.take (x.burstLen (4 + u))
        let seq := burst16 l (bit (x.sw c 17) 16) (x.sf c 17 15 8)
        ((x.burstEnd u).burstCount (4 + u) u (x.sf c 17 15 8) seq).burstSample (4 + u) c seq (Tbl.get x.stamp x.me.fus.edges u)
          l)) ∧
    (∀ (u : Fin 2) (burst : List Byte) (c : Nat), (s.at_ n d).flag (Reg.SNS_STAT.inst (4 + u)) 1 = true →
      (s.at_ n d).listening = true → (s.at_ n d).imuAt u = some c → (s.at_ n d).sf c 17 15 8 = 0xFF →
      exec (.imuBurstDone n d u burst) s = .next (s.ends n d fun x =>
        (x.burstEnd u).burstSample (4 + u) c 0 (Tbl.get x.stamp x.me.fus.edges u) (burst.take (x.burstLen (4 + u))))) ∧
    (∀ (h : Nat) (f : EthFrame) (st : Stamp) (w : Nat) (t : List (Nat × EthFrame × Stamp × Nat)) (c : Nat),
      (s.at_ n d).me.net.sensorIn = (h, f, st, w) :: t → (s.at_ n d).listening = true → (s.at_ n d).ethAt h = some c →
      exec (.ethSensorFrame n d true) s = .next (s.ends n d fun x =>
          Side.ethFrame c f st w { x with me := { x.me with net := { x.me.net with sensorIn := t } } })
      ∧ exec (.ethSensorFrame n d false) s = .next (s.ends n d fun x =>
          Side.spoil (Side.count { x with me := { x.me with net := { x.me.net with sensorIn := t } } } Ct.SNS_CRC_ERRORS 6)
            (some c)))

/-- Projection and track stages (R515 to R527): a stage within its budget commits, one whose budget has ended stops. Fusion's
two control writes (R478, R480, R486, R509, R742): a requested swap is checked at once, and one that passes waits for the frame
boundary; a change of EN starts fusion afresh, and EN stays 0 while the block is fenced. -/
def Obligations.FusionStagesComplete : Prop :=
  (∀ (s : State) (n : Now) (d : Ch) (g : Stage), (s.at_ n d).live = true →
    ((s.at_ n d).me.fus.proj = some g → (s.at_ n d).stageOver g ((s.at_ n d).pf 0 31 21) = false →
      exec (.projectionCommit n d) s = .next (s.ends n d (Side.projCommit g))) ∧
    ((s.at_ n d).me.fus.proj = some g → (s.at_ n d).stageOver g ((s.at_ n d).pf 0 31 21) = true →
      exec (.projectionBudgetEnd n d) s = .next (s.ends n d (Side.projStop g))) ∧
    ((s.at_ n d).me.fus.trk = some g → (s.at_ n d).stageOver g ((s.at_ n d).pf 1 20 10) = false →
      exec (.trackCommit n d) s = .next (s.ends n d (Side.trkCommit g))) ∧
    ((s.at_ n d).me.fus.trk = some g → (s.at_ n d).stageOver g ((s.at_ n d).pf 1 20 10) = true →
      exec (.trackBudgetEnd n d) s = .next (s.ends n d (Side.trkStop g)))) ∧
  (∀ (s : State) (n : Now) (d : Ch) (w : Init) (v : Word), (s.at_ n d).live = true →
    ((s.at_ n d).may w Reg.FUS_SWAP = true → bit v 0 = true →
      exec (.fusSwap n d w v) s = .next (s.ends n d fun x => Side.drive (
        if x.swapCheck = 0 then
          ((x.wrN Reg.FUS_SWAP_RESULT 0).setFlag Reg.FUS_STAT 1 true).modFus fun u => { u with swap := true }
        else
          (Side.count (((x.wrN Reg.FUS_SWAP_RESULT x.swapCheck).setFlag Reg.FUS_STAT 1 false).modFus fun u =>
            { u with swap := false }) Ct.FUS_SWAPS_REFUSED).raise Ev.FUS_SWAP_REFUSED) (Reg.FUS_SWAP / 0x40000))) ∧
    ((s.at_ n d).may w Reg.FUS_CTRL = true → (s.at_ n d).fusOn = (bit v 0 && !(s.at_ n d).flag Reg.SAFE_UNIT_FENCE 4) →
      exec (.fusEnable n d w v) s = .next (s.ends n d fun x =>
        (x.wr Reg.FUS_CTRL (word (nat1 (bit v 0 && !x.flag Reg.SAFE_UNIT_FENCE 4)))).drive (Reg.FUS_CTRL / 0x40000))) ∧
    ((s.at_ n d).may w Reg.FUS_CTRL = true → (s.at_ n d).fusOn ≠ (bit v 0 && !(s.at_ n d).flag Reg.SAFE_UNIT_FENCE 4) →
      exec (.fusEnable n d w v) s = .next (s.ends n d fun x =>
        ((x.wr Reg.FUS_CTRL (word (nat1 (bit v 0 && !x.flag Reg.SAFE_UNIT_FENCE 4)))).fusFresh).drive (Reg.FUS_CTRL / 0x40000))))

/-! ## Raster cluster and display -/

/-- A GFX_JOB that Rhordo takes is queued in an enabled context, and refused with WINDOW_FAULT in a DISABLED one (R531, R535).
Workgroups (R535 to R545, R551): a free core takes one of the next context's job; one that runs ends once the reorder buffers
of the ROP partitions have room for its fragments, and until then waits with them; one that holds a claimed core for 200 µs is
killed, unless it ends in that cycle of its own accord. -/
def Obligations.WorkgroupsComplete : Prop :=
  (∀ (s : State) (n : Now) (d : Ch) (r : CmdRef) (j : GfxJob) (c : Cmd), (s.at_ n d).live = true → (s.at_ n d).Takes r 0x06 c →
    ((s.at_ n d).me.gfx.jobs.any fun k => k.is r) = false →
    ((s.at_ n d).ctxState ((s.at_ n d).jobCtx r j) ≠ 0 → (j.comp.isSome = true ↔ (s.at_ n d).jobCtx r j = 0) →
      exec (.gfxJob n d r j) s = .next (s.ends n d (Side.queueJob r j c))) ∧
    ((s.at_ n d).ctxState ((s.at_ n d).jobCtx r j) = 0 →
      exec (.gfxJob n d r j) s = .next (s.ends n d fun x => x.complete r.fn c 0x05))) ∧
  (∀ (s : State) (n : Now) (d : Ch) (core : Fin 12), (s.at_ n d).live = true →
    (∀ (c : Nat) (j : GJob), (s.at_ n d).coreFree core = true → (s.at_ n d).nextCtx core = some c →
      (s.at_ n d).ctxJob c core = some j →
      exec (.workgroupDispatch n d core) s = .next (s.ends n d (Side.runWorkgroup core c j))) ∧
    (∀ (q : CoreRun) (acc : List GfxAccess) (w : Shaded), (s.at_ n d).workOn core = some q →
      ((s.at_ n d).robFits q w.frags = true →
        exec (.workgroupEnd n d core acc w) s = .next (s.ends n d (Side.endWorkgroup core q acc w))) ∧
      ((s.at_ n d).robFits q w.frags = false →
        exec (.workgroupEnd n d core acc w) s = .next (s.ends n d id))) ∧
    (∀ q : CoreRun, (s.at_ n d).workOn core = some q → (s.at_ n d).me.gfx.claimed.contains core.val = true →
      q.at_ + 200000 ≤ (s.at_ n d).mt →
      (sameEnds d core s.pending = false → exec (.workgroupKill n d core) s = .next (s.ends n d (Side.killWorkgroup core q))) ∧
      (sameEnds d core s.pending = true → exec (.workgroupKill n d core) s = .next (s.ends n d id))))

/-- Compositor and raster jobs (R539, R547, R553 to R555): a ready compositor job starts; one whose latest start has passed is
dropped LATE; a started one commits; a raster job commits when its workgroups have ended. -/
def Obligations.GfxJobsComplete : Prop :=
  ∀ (s : State) (n : Now) (d : Ch) (r : CmdRef) (j : GJob), (s.at_ n d).live = true → (s.at_ n d).jobOf r = some j →
    (∀ k : CompJob, j.comp = some k →
      ((s.at_ n d).compReady j k = true → exec (.compJobStart n d r) s = .next (s.ends n d (Side.startComp j k))) ∧
      (j.started = false → (s.at_ n d).frameAt k.pipe k.frame - k.budget ≤ (s.at_ n d).vt →
        exec (.compLatestStart n d r) s = .next (s.ends n d fun x =>
          ((x.jobDone j 0x02).count Ct.GFX_COMP_DROPPED).raise Ev.GFX_COMP_MISS)) ∧
      (j.started = true → ∀ acc gone, exec (.jobCommit n d r acc gone) s = .next (s.ends n d (Side.commitComp j k acc gone)))) ∧
    (j.comp = none → (s.at_ n d).rasterOver j = true →
      ∀ acc gone, exec (.jobCommit n d r acc gone) s = .next (s.ends n d fun x =>
        (x.modGfx fun g => { g with hints := (j.pass.map fun p => g.hints.put j.ctx (p.prims.length, j.frags,
          (p.prims.flatten.map fun b => (b.1 / 4, b.2 / 4)).dedup.length)).getD g.hints }).jobDone j 0))

/-- DPY_CTRL writes (R103, R565, R915): EN over a timing that is not valid is ignored with its event; EN set enables the pipe,
unless another pipe drives its output (the model's choice: note 133), EN cleared disables it; a retrain of a DisplayPort pipe restores or loses its link. -/
def Obligations.DisplayControlWrites : Prop :=
  ∀ (s : State) (n : Now) (d : Ch) (w : Init) (p : Fin 4) (v : Word), (s.at_ n d).live = true →
    (s.at_ n d).may w (Reg.DPY_CTRL.inst p) = true →
    (bit v 0 = true → (s.at_ n d).timingOk p (fld v 2 1) = false →
      exec (.dpyEnable n d w p v) s = .next (s.ends n d fun x =>
        (x.raise Ev.DPY_CFG_ERR p).drive (Reg.DPY_CTRL.inst p / 0x40000))) ∧
    (bit v 0 = true → (s.at_ n d).timingOk p (fld v 2 1) = true → (s.at_ n d).pipeOn p = false →
      (s.at_ n d).outputTaken p (fld v 2 1) = false → exec (.dpyEnable n d w p v) s = .next (s.ends n d fun x =>
        ((x.store (Reg.DPY_CTRL.inst p) v).pipeEnabled p).drive (Reg.DPY_CTRL.inst p / 0x40000))) ∧
    (bit v 0 = true → (s.at_ n d).timingOk p (fld v 2 1) = true → (s.at_ n d).pipeOn p = false →
      (s.at_ n d).outputTaken p (fld v 2 1) = true →
      exec (.dpyEnable n d w p v) s = .next (s.ends n d fun x => x.drive (Reg.DPY_CTRL.inst p / 0x40000))) ∧
    (bit v 0 = false → (s.at_ n d).pipeOn p = true →
      exec (.dpyEnable n d w p v) s = .next (s.ends n d fun x =>
        ((x.store (Reg.DPY_CTRL.inst p) v).pipeDisabled p).drive (Reg.DPY_CTRL.inst p / 0x40000))) ∧
    ((s.at_ n d).pipeOn p = true → (s.at_ n d).isDp p = true →
      exec (.dpyRetrain n d w p true) s = .next (s.ends n d fun x =>
        (x.setFlag (Reg.DPY_STAT.inst p) 2 true).drive (Reg.DPY_CTRL.inst p / 0x40000)) ∧
      exec (.dpyRetrain n d w p false) s = .next (s.ends n d fun x =>
        ((x.setFlag (Reg.DPY_STAT.inst p) 2 false).raise Ev.DPY_LINK p).drive (Reg.DPY_CTRL.inst p / 0x40000)))

/-- Display events (R38, R103, R560 to R565): a due frame and a line start; a hot-plug change of an enabled DisplayPort pipe is
taken: a sink that is lost shows and raises its event, one that is connected changes nothing before the retrain; a flip is armed
for a display frame. -/
def Obligations.DisplayPipesComplete : Prop :=
  ∀ (s : State) (n : Now) (d : Ch) (p : Fin 4), (s.at_ n d).live = true →
    ((s.at_ n d).pipeOn p = true → (s.at_ n d).pageOn (Reg.DPY_CTRL.inst p) = true → (s.at_ n d).frameDue p = true →
      exec (.displayFrameStart n d p) s = .next (s.ends n d (Side.dpyFrame p))) ∧
    (∀ (m v : Nat) (starved : List (Fin 6 × Nat)), (s.at_ n d).pipeOn p = true → ((s.at_ n d).dpy p).start = some (m, v) →
      exec (.dpyLineStart n d p starved) s = .next (s.ends n d (Side.dpyLine p v starved))) ∧
    ((s.at_ n d).pipeOn p = true → (s.at_ n d).isDp p = true →
      exec (.dpHpdChange n d p false) s = .next (s.ends n d fun x =>
        (x.setFlag (Reg.DPY_STAT.inst p) 2 false).raise Ev.DPY_LINK p) ∧
      exec (.dpHpdChange n d p true) s = .next (s.ends n d id)) ∧
    ((s.at_ n d).pipeOn p = false ∨ (s.at_ n d).isDp p = false → ∀ connected : Bool,
      exec (.dpHpdChange n d p connected) s = .next (s.ends n d id)) ∧
    (∀ (w : Init) (k : Fin 6) (v : Word), (s.at_ n d).may w (plReg Reg.PL_FLIP p k) = true →
      exec (.plFlip n d w p k v) s = .next (s.ends n d fun x =>
        ((x.store (plReg Reg.PL_FLIP p k) v).armFlip p k v.toNat (x.rd64 (plReg Reg.PL_ADDR p k))).drive
          (plReg Reg.PL_FLIP p k / 0x40000)))

/-- Telltales (R566 to R574): a region write is taken unless it makes the regions illegal; a check of a live region meets
the errors of the icon SRAM, leaves the CRC-32C of the region's output in TT_CRC_LAST, and clears or counts its differences; a
pixel of a region is its opaque background where its icon is transparent or not shown, and the icon where that is opaque; a
stalled pipe and an atlas load show on the page. -/
def Obligations.TelltalesComplete : Prop :=
  ∀ (s : State) (n : Now) (d : Ch) (p : Fin 4) (r : Fin 16), (s.at_ n d).live = true →
    (∀ (w : Init) (q : TtReg) (v : Word), (s.at_ n d).may w (ttReg p r q) = true →
      let f := fun x : Side => (x.store (ttReg p r q) v).modDpy p fun t => { t with wrote := t.wrote.put r x.mt }
      ((f (s.at_ n d)).ttBad p = false →
        exec (.ttRegionWrite n d w p r q v) s = .next (s.ends n d fun x => (f x).drive (ttReg p r q / 0x40000))) ∧
      ((f (s.at_ n d)).ttBad p = true →
        exec (.ttRegionWrite n d w p r q v) s = .next (s.ends n d fun x =>
          (x.raise Ev.DPY_CFG_ERR (4 + p)).drive (ttReg p r q / 0x40000)))) ∧
    ((s.at_ n d).ttLive p r = true →
      ∀ wrong flips : List (Nat × Byte),
        let upset := fun x : Side => { x with me := { x.me with icons := flips.foldl Sram.flip x.me.icons } }
        let crc := crc32c ((upset (s.at_ n d)).ttOutput ((s.at_ n d).ttRegion p r) wrong)
        let checked := fun x : Side =>
          ((upset x).ttParity p (x.ttRegion p r)).wr ((Reg.TT_CRC_LAST.inst (4 + p)).el 0x20 r) crc
        (crc = ((s.at_ n d).ttRegion p r).expected →
          exec (.telltaleCrcCheck n d p r wrong flips) s = .next (s.ends n d fun x => (checked x).modDpy p fun t =>
            { t with regions := t.regions.put r { x.ttRegion p r with bad := 0 } })) ∧
        (crc ≠ ((s.at_ n d).ttRegion p r).expected →
          exec (.telltaleCrcCheck n d p r wrong flips) s = .next (s.ends n d fun x =>
            (checked x).ttWrong p r (x.ttRegion p r)))) ∧
    (∀ (t : TtSt) (i j : Nat),
      let b := (s.at_ n d).iconOf t
      let icon := fun k => (s.at_ n d).me.icons.byte (b.1 + 4 * (b.2.1 * j + i) + k)
      let ground := fun k => BitVec.ofNat 8 (fld t.bg (8 * k + 7) (8 * k))
      (s.at_ n d).ttPixel t i j = if t.shown ∧ i < b.2.1 ∧ j < b.2.2 then [2, 1, 0].map fun k => blendOver (icon 3) (icon k) (ground k)
        else [2, 1, 0].map ground) ∧
    (∀ above below : Byte, blendOver 0 above below = below ∧ blendOver 255 above below = above) ∧
    (∀ m, (s.at_ n d).flag (Reg.TT_CTRL.inst (4 + p)) 0 = true → (s.at_ n d).flag (Reg.TT_STAT.inst (4 + p)) 17 = false →
      ((s.at_ n d).dpy p).ttFrom = some m → (s.at_ n d).dotTime p ((s.at_ n d).frameDots p) ≠ 0 →
      m + 2 * (s.at_ n d).dotTime p ((s.at_ n d).frameDots p) ≤ (s.at_ n d).mt →
      exec (.telltaleStall n d p) s = .next (s.ends n d fun x =>
        ((x.setFlag (Reg.TT_STAT.inst (4 + p)) 17 true).count Ct.DPY_TT_STALLS (4 + p)).raise Ev.DPY_TT_STALL (4 + p))) ∧
    ((s.at_ n d).flag (Reg.TT_CTRL.inst (4 + p)) 0 = true → (s.at_ n d).flag (Reg.TT_STAT.inst (4 + p)) 18 = false →
      (s.at_ n d).atlasSealed p = true → (s.at_ n d).pageOn (Reg.TT_CTRL.inst (4 + p)) = true →
      exec (.telltaleAtlasLoad n d p) s = .next (s.ends n d (Side.loadAtlas p)))

/-! ## Network and gateway -/

/-- Frames at a port that takes part in traffic (R48, R577 to R594): received, counted and switched, a gPTP message of a domain
in use relayed by the time bases instead; started, and ended when their
wire time has passed. -/
def Obligations.SwitchFramesComplete : Prop :=
  ∀ (s : State) (n : Now) (d : Ch) (p : Fin 9), (s.at_ n d).live = true →
    (∀ (f : EthFrame) (ok : Bool) (par : Option Nat), (s.at_ n d).portUp p = true →
      (ok = false → exec (.ethFrameRx n d p f ok par) s = .next (s.ends n d fun x =>
        (x.count Ct.NET_RX_FRAMES p).count Ct.NET_FCS_ERRORS p)) ∧
      (ok = true → (s.at_ n d).maxFrame p < wireBytes f → exec (.ethFrameRx n d p f ok par) s = .next (s.ends n d fun x =>
        (x.count Ct.NET_RX_FRAMES p).count Ct.NET_OVERSIZE p)) ∧
      (∀ m wt, ok = true → wireBytes f ≤ (s.at_ n d).maxFrame p → f.ptp = some m → (s.at_ n d).ptpBase m = some wt →
        exec (.ethFrameRx n d p f ok par) s = .next (s.ends n d fun x =>
          Side.relayFrame p wt m f x.stamp (x.count Ct.NET_RX_FRAMES p))) ∧
      (ok = true → wireBytes f ≤ (s.at_ n d).maxFrame p → f.ptp.bind (s.at_ n d).ptpBase = none → (s.at_ n d).netLoaded = false →
        exec (.ethFrameRx n d p f ok par) s = .next (s.ends n d fun x => x.count Ct.NET_RX_FRAMES p)) ∧
      (ok = true → wireBytes f ≤ (s.at_ n d).maxFrame p → f.ptp.bind (s.at_ n d).ptpBase = none → (s.at_ n d).netLoaded = true →
        exec (.ethFrameRx n d p f ok par) s = .next (s.ends n d fun x =>
          (x.count Ct.NET_RX_FRAMES p).switchFrame p f par x.stamp))) ∧
    (∀ i : NetFrame, (s.at_ n d).portUp p = true → (s.at_ n d).txReady p = some i →
      exec (.ethFrameTxStart n d p) s = .next (s.ends n d fun x => (x.holdFrames p).startFrame p i)) ∧
    (∀ (t : NetTx) (rest : List NetTx), ((s.at_ n d).port p).tx = t :: rest → t.paused = false → t.left ≤ 10 * ((s.at_ n d).mt - t.at_) →
      exec (.ethFrameTxEnd n d p) s = .next (s.ends n d (Side.frameOut p t rest)))

/-- Gate lists, recovery functions, the FDB and links (R578, R584, R587, R606): each advances, resets, ages or changes when its
time has come. The network image (R580 to R582): a request starts a load; a checked image is taken, or refused with its check's
number. -/
def Obligations.SwitchTimersComplete : Prop :=
  (∀ (s : State) (n : Now) (d : Ch), (s.at_ n d).live = true →
    (∀ (p : Fin 8) (m : Mem) (i t : Nat), (s.at_ n d).me.net.gates = some m → (s.at_ n d).gatePos p = some (i, t) →
      i + 1 < imgField m (imgGate p 0) 0 16 9 → t + (imgWord m (imgGate p i) 1).toNat ≤ (s.at_ n d).mt →
      exec (.gateEntryAdvance n d p) s = .next (s.ends n d fun x => (x.modNet fun k => { k with
        pos := k.pos.put p (i + 1, t + (imgWord m (imgGate p i) 1).toNat) }).gatesMoved p)) ∧
    (∀ (g : Fin 64) (m : Mem) (i t : Nat), (s.at_ n d).me.net.gates = some m → (s.at_ n d).gatePos (64 + g) = some (i, t) →
      i + 1 < sgateLen m g → t + (imgWord m (imgSGate g i) 1).toNat ≤ (s.at_ n d).mt →
      exec (.streamGateAdvance n d g) s = .next (s.ends n d fun x => x.modNet fun k => { k with
        pos := k.pos.put (64 + g) (i + 1, t + (imgWord m (imgSGate g i) 1).toNat) })) ∧
    (∀ (h : Fin 256) (r : RecvSt), Tbl.get RecvSt.fresh (s.at_ n d).me.net.recv h = r → r.any = false →
      r.at_ + imgField (s.at_ n d).me.net.img (imgStream h) 5 9 0 * 1000000 ≤ (s.at_ n d).mt →
      exec (.cbRecoveryReset n d h) s = .next (s.ends n d fun x => x.modNet fun k => { k with
        recv := k.recv.put h { r with any := true } })) ∧
    (∀ mac vid, exec (.fdbAgeing n d mac vid) s = .next (s.ends n d fun x => x.modNet fun k => { k with
      fdb := k.fdb.filter fun e => !(e.1 == (mac, vid)
        && decide (e.2.2 + clampN 1 3600 (x.field (Reg.NET_FDB_CFG.inst 9) 12 1) * 10 ^ 9 ≤ x.mt)) })) ∧
    (∀ (p : Fin 8) (up ver : Bool), (s.at_ n d).pageOn (Reg.NET_PORT_CFG.inst p) = true → (up = true → (s.at_ n d).portMode p ≠ 0) →
      (s.at_ n d).flag (Reg.NET_PORT_STAT.inst p) 0 = !up →
      exec (.ethLinkChange n d p up ver) s = .next (s.ends n d fun x =>
        ((x.setFlag (Reg.NET_PORT_STAT.inst p) 0 up).setFlag (Reg.NET_PORT_STAT.inst p) 1 (up && ver)).raise Ev.NET_LINK p))) ∧
  (∀ (s : State) (n : Now) (d : Ch), (s.at_ n d).live = true →
    (∀ (w : Init) (v : Word), (s.at_ n d).may w (Reg.NET_IMG_LOAD.inst 9) = true → bit v 0 = true →
      exec (.netImgLoad n d w v) s = .next (s.ends n d fun x => ((x.modNet fun k => { k with
        next := none, load := some (x.rd64 (Reg.NET_IMG_ADDR.inst 9), false) }).setFlag (Reg.NET_STAT.inst 9) 1 true).drive
          (Reg.NET_IMG_LOAD.inst 9 / 0x40000))) ∧
    (∀ (a : Nat) (re : Bool), (s.at_ n d).me.net.load = some (a, re) →
      exec (.netImgLoadDone n d) s = .next (s.ends n d fun x =>
        if x.imgResult a = 0 then ((x.passBridle 17 ⟨true, a, imgBytes, none⟩).loftMeet a imgBytes).1.imageOk a re
        else ((x.passBridle 17 ⟨true, a, imgBytes, none⟩).loftMeet a imgBytes).1.imageBad (x.imgResult a) re)))

/-- CAN controllers on the bus (R595 to R597, R601, R603): frames in and out count their error counters down, errors count
them up; of the frames of one cycle those of lower controllers are routed first. -/
def Obligations.CanFramesComplete : Prop :=
  ∀ (s : State) (n : Now) (d : Ch) (c : Fin 16), (s.at_ n d).live = true → (s.at_ n d).canOn c = true →
    (∀ (f : CanFrame) (par : Option Nat), (s.at_ n d).me.net.canEarly = [] → (∀ q ∈ canCycle d s.pending, c.val ≤ q.c.val) →
      (s.at_ n d).canTakes c f = true → exec (.canFrameRx n d c f par) s = .next (s.ends n d fun x => (((x.setCan c (canErrState (x.tec c) (recAfter (x.recErr c))) (x.tec c)
        (recAfter (x.recErr c))).count Ct.CANG_RX_FRAMES c).imgParity par).route none c f x.stamp)) ∧
    (∀ (f : CanFrame) (par : Option Nat),
      let l := (List.range 16).flatMap fun k =>
        ((canCycle d s.pending).filter fun q => decide (q.c.val < c.val)).filter fun q => q.c.val == k
      ((s.at_ n d).me.net.canEarly = [] → exec (.canFrameRx n d c f par) s = .next (s.ends n d fun x =>
        (l.foldl Side.canArrive (x.modNet fun k => { k with canEarly := l })).canArrive ⟨c, f, par⟩)) ∧
      (n.on d = 0 → (s.at_ n d).me.net.canEarly.contains ⟨c, f, par⟩ = true →
        exec (.canFrameRx n d c f par) s = .next (s.ends n d fun x => x.modNet fun k => { k with
          canEarly := k.canEarly.erase ⟨c, f, par⟩ }))) ∧
    (∀ (f : CanFrame) (rest : List CanFrame), takeLeast ((s.at_ n d).canQueue c) = some (f, rest) →
      exec (.canFrameTx n d c) s = .next (s.ends n d fun x =>
        (((x.modNet fun k => { k with canq := k.canq.put c rest }).setCan c (canErrState (x.tec c - 1) (x.recErr c))
          (x.tec c - 1) (x.recErr c)).count Ct.CANG_TX_FRAMES c).emit (.canTx c f x.stamp))) ∧
    (∀ e : CanErr, (s.at_ n d).tec c + tecStep e ≤ 255 →
      exec (.canProtocolError n d c e) s = .next (s.ends n d fun x =>
        x.setCan c (canErrState (x.tec c + tecStep e) (min 255 (x.recErr c + recStep e))) (x.tec c + tecStep e)
          (min 255 (x.recErr c + recStep e)))) ∧
    (∀ e : CanErr, 255 < (s.at_ n d).tec c + tecStep e →
      exec (.canProtocolError n d c e) s = .next (s.ends n d fun x =>
        (x.modNet fun k => { k with canOver := k.canOver.add c }).setCan c
          (canErrState (x.tec c + tecStep e) (min 255 (x.recErr c + recStep e))) 255 (min 255 (x.recErr c + recStep e))))

/-- Bus-off and its recovery (R595, R606), and a talker whose wait is over (R598). -/
def Obligations.CanRecoveryCompletes : Prop :=
  ∀ (s : State) (n : Now) (d : Ch) (c : Fin 16), (s.at_ n d).live = true →
    ((s.at_ n d).canOn c = true → (s.at_ n d).me.net.canOver.contains c.val = true →
      exec (.canBusOff n d c) s = .next (s.ends n d fun x =>
        (((x.modNet fun k => { k with
          canOver := k.canOver.del c
          recovering := if x.flag (Reg.CANG_CFG.inst c) 3 then k.recovering.add c else k.recovering.del c }).setField
          (Reg.CANG_STAT.inst c) 1 0 2).count Ct.CANG_BUS_OFFS c).raise Ev.CANG_BUS_OFF c)) ∧
    (∀ (w : Init) (v : Word), (s.at_ n d).may w (Reg.CANG_RECOVER.inst c) = true → bit v 0 = true → (s.at_ n d).canState c = 2 →
      exec (.cangRecover n d w c v) s = .next (s.ends n d fun x => (x.modNet fun k => { k with
        recovering := k.recovering.add c }).drive (Reg.CANG_RECOVER.inst c / 0x40000))) ∧
    ((s.at_ n d).canState c = 2 → (s.at_ n d).me.net.recovering.contains c.val = true →
      exec (.busOffRecoveryDone n d c) s = .next (s.ends n d fun x =>
        (x.modNet fun k => { k with recovering := k.recovering.del c }).setCan c 0 0 0)) ∧
    (∀ (t : Fin 64) (a : AcfOpen), (s.at_ n d).acfWait t = some a →
      a.at_ + (imgWord (s.at_ n d).me.net.img (imgTalker t) 5).toNat ≤ (s.at_ n d).mt →
      exec (.acfMaxWaitExpiry n d t) s = .next (s.ends n d fun x => x.acfSend t))

/-! ## Companion bus -/

/-- Near requests (R614, R618 to R626, R628). A write through an enabled window that permits it is posted and done at once,
held while the posted queue is full, or queued to complete with its last far cycle; a read and an atomic take a read buffer, are
queued toward the far side and retried; a reissue of one whose buffer is filled receives its data, or its error, and frees the
buffer. Without a window the request is refused. Of the requests of one fabric cycle those of lower initiators are taken first. -/
def Obligations.NearRequestsComplete : Prop :=
  ∀ (s : State) (n : Now) (d : Ch) (i : Fin 6) (off len w : Nat), (s.at_ n d).live = true →
    ((s.at_ n d).me.cbb.early = [] → (∀ q ∈ sameCycle d s.pending, i.val ≤ q.init.val) →
      (∀ bytes : List Byte, (s.at_ n d).cbbOn = true → (s.at_ n d).winAt off bytes.length = some w →
        (s.at_ n d).winRefuses w i off bytes.length true = false →
        (s.at_ n d).semBlocks ((s.at_ n d).cbbWin Reg.CBB_WIN_FAR w 29 28) i = false →
        ((s.at_ n d).cbbWin Reg.CBB_WIN_CFG w 5 5 = 1 → exec (.cbbNearWrite n d i off bytes) s = .next (s.ends n d fun x =>
          x.modCbb fun b => { b with queue := b.queue ++ [x.cbbReq .open_ w i off bytes.length bytes] })) ∧
        ((s.at_ n d).cbbWin Reg.CBB_WIN_CFG w 5 5 = 0 → (s.at_ n d).me.cbb.posted < 16 →
          exec (.cbbNearWrite n d i off bytes) s = .next (s.ends n d fun x =>
            (x.modCbb fun b => { b with queue := b.queue ++ [x.cbbReq .posted w i off bytes.length bytes] }).emit (.nearDone i []))) ∧
        ((s.at_ n d).cbbWin Reg.CBB_WIN_CFG w 5 5 = 0 → 16 ≤ (s.at_ n d).me.cbb.posted →
          exec (.cbbNearWrite n d i off bytes) s = .next (s.ends n d fun x =>
            (x.count Ct.CBB_WQ_FULL).modCbb fun b => { b with
              held := b.held ++ [x.cbbReq .posted w i off bytes.length bytes] }))) ∧
      (∀ k : Nat, (s.at_ n d).cbbOn = true → (s.at_ n d).winAt off len = some w →
        (s.at_ n d).winRefuses w i off len false = false →
        (s.at_ n d).semBlocks ((s.at_ n d).cbbWin Reg.CBB_WIN_FAR w 29 28) i = false → (s.at_ n d).me.cbb.freeBuf = some k →
        exec (.cbbNearRead n d i off len) s = .next (s.ends n d fun x => (x.modCbb fun b => { b with
          queue := b.queue ++ [{ x.cbbReq .read w i off len [] with buf := some k }]
          bufs := b.bufs.put k { init := i, off := off, len := len, fill := none } }).cbbRetry i)) ∧
      (∀ (op : AtomicOp) (k : Nat), (s.at_ n d).cbbOn = true → (s.at_ n d).winAt off 4 = some w →
        (s.at_ n d).winRefuses w i off 4 true = false → off % 4 = 0 →
        (s.at_ n d).semBlocks ((s.at_ n d).cbbWin Reg.CBB_WIN_FAR w 29 28) i = false → (s.at_ n d).me.cbb.freeBuf = some k →
        ((s.at_ n d).cbbWin Reg.CBB_WIN_CFG w 4 3 = 1 → exec (.cbbAtomic n d i off op) s = .next (s.ends n d fun x =>
          (x.modCbb fun b => { b with
            queue := b.queue ++ [{ x.cbbReq (.atomic op) w i off 4 [] with cblock := true, sem := false, buf := some k }]
            bufs := b.bufs.put k { init := i, off := off, len := 4, fill := none } }).cbbRetry i)) ∧
        ((s.at_ n d).cbbWin Reg.CBB_WIN_CFG w 4 3 = 2 → exec (.cbbAtomic n d i off op) s = .next (s.ends n d fun x =>
          x.allocate { x.cbbReq (.atomic op) w i off 4 [] with
            cblock := false, sem := x.me.cbb.holder (x.cbbReq (.atomic op) w i off 4 []).cs != some i.val }))) ∧
      (∀ (k : Nat) (b : CbbBuf) (data : List Byte) (err : Bool) (t : Nat),
        (s.at_ n d).me.cbb.bufs.find? (fun e => e.2.init == i.val && e.2.off == off && e.2.len == len) = some (k, b) →
        b.fill = some (data, err, t) →
        exec (.cbbReadReissue n d i off len) s = .next (s.ends n d fun x =>
          if err then ((x.modCbb fun c => { c with bufs := c.bufs.drop k }).emit (.nearDone i (List.replicate len 0))).emit
            (.nearError i)
          else (x.modCbb fun c => { c with bufs := c.bufs.drop k }).emit (.nearDone i data))) ∧
      ((s.at_ n d).cbbOn = false → exec (.cbbNearRead n d i off len) s = .next (s.ends n d fun x => x.noWindow i))) ∧
    (∀ (bytes : List Byte) (op : AtomicOp),
      ∀ e ∈ ([(Instr.cbbNearWrite n d i off bytes, .write bytes), (.cbbNearRead n d i off len, .read len),
        (.cbbAtomic n d i off op, .atomic op), (.cbbReadReissue n d i off len, .reissue len)] : List (Instr × NearOp)),
      let l := (sameCycle d s.pending).filter fun q => decide (q.init.val < i.val)
      ((s.at_ n d).me.cbb.early = [] → exec e.1 s = .next (s.ends n d fun x =>
        ((byInit l).foldl Side.takeNear (x.setEarly l)).takeNear ⟨i, off, e.2⟩)) ∧
      (n.on d = 0 → (s.at_ n d).me.cbb.early.contains ⟨i, off, e.2⟩ = true →
        exec e.1 s = .next (s.ends n d fun x => x.setEarly (x.me.cbb.early.erase ⟨i, off, e.2⟩))))

/-- Far cycles (R609 to R611): the head request's word cycle starts after its idle cycles, ends after its timing, or times
out; a filled buffer that no request of the cycle claims expires (R623). -/
def Obligations.FarCyclesComplete : Prop :=
  ∀ (s : State) (n : Now) (d : Ch) (r : CbbReq) (q : List CbbReq), (s.at_ n d).live = true →
    ((s.at_ n d).me.cbb.queue = r :: q → (s.at_ n d).me.cbb.cycle = none → (s.at_ n d).farIdle r = true →
      (s.at_ n d).pageOn Reg.CBB_CTRL = true →
      exec (.cbbFarCycleStart n d) s = .next (s.ends n d fun x => (x.modCbb fun b => { b with cycle := some x.mt }).emit
        (.farCycle r.cs ((r.far + r.pos) / 4 * 4) r.cycleLanes
          (if r.writes then some r.cycleData else none) r.cblock))) ∧
    (∀ (t waits : Nat) (data : Word) (err : Bool), (s.at_ n d).me.cbb.queue = r :: q → (s.at_ n d).me.cbb.cycle = some t →
      (s.at_ n d).farLength r waits < (s.at_ n d).farLimit →
      (s.at_ n d).busCycles ((s.at_ n d).farLength r waits) ((s.at_ n d).mt - t) = true →
      exec (.cbbFarCycleEnd n d waits data err) s = .next (s.ends n d fun x => x.farCycleEnd r data (if err then 2 else 0))) ∧
    (∀ t, (s.at_ n d).me.cbb.queue = r :: q → (s.at_ n d).me.cbb.cycle = some t →
      (s.at_ n d).busCycles (s.at_ n d).farLimit ((s.at_ n d).mt - t) = true →
      exec (.cbbCycleTimeout n d) s = .next (s.ends n d fun x => x.farCycleEnd r 0 1)) ∧
    (∀ (k : Fin 8) (data : List Byte) (err : Bool) (t : Nat), (s.at_ n d).bufFill k = some (data, err, t) →
      t + clampN 1 1000 ((s.at_ n d).field Reg.CBB_RB_HOLD 9 0) * 1000 ≤ (s.at_ n d).mt →
      (s.at_ n d).nearClaims k (sameCycle d s.pending) = false →
      exec (.cbbRbExpiry n d k) s = .next (s.ends n d fun x =>
        ((x.modCbb fun c => { c with bufs := c.bufs.drop k }).count Ct.CBB_RB_EXPIRED).raise Ev.CBB_RB_EXPIRED))

/-- Semaphores and windows (R615, R626, R627): a free semaphore is granted, its holder releases it, one held for longer than
CBB_SEM_MAX is freed, unless that holder releases it in the same cycle; a window write is applied unless it makes the windows illegal. -/
def Obligations.SemaphoresAndWindows : Prop :=
  ∀ (s : State) (n : Now) (d : Ch) (c : Fin 4), (s.at_ n d).live = true →
    (∀ i : Fin 6, (s.at_ n d).pageOn Reg.CBB_SEM = true → (s.at_ n d).me.cbb.holder c = none →
      exec (.cbbSemRead n d i c) s = .next (s.ends n d fun x =>
        (x.modCbb fun b => { b with sem := b.sem.put c (i.val, x.mt) }).emit (.semRead i c true))) ∧
    (∀ (i : Fin 6) (h : Nat), (s.at_ n d).pageOn Reg.CBB_SEM = true → (s.at_ n d).me.cbb.holder c = some h →
      exec (.cbbSemRead n d i c) s = .next (s.ends n d fun x => x.emit (.semRead i c (h == i.val)))) ∧
    (∀ (i : Fin 6) (v : Word), (s.at_ n d).pageOn Reg.CBB_SEM = true → bit v 0 = true →
      (s.at_ n d).me.cbb.holder c = some i.val →
      exec (.cbbSemRelease n d i c v) s = .next (s.ends n d fun x => x.modCbb fun b => { b with sem := b.sem.drop c })) ∧
    (∀ h t, (s.at_ n d).semTaken c = some (h, t) →
      t + clampN 1 1000 ((s.at_ n d).field Reg.CBB_SEM_MAX 9 0) * 1000 ≤ (s.at_ n d).mt →
      (semReleases d c h s.pending = false → exec (.cbbSemForced n d c) s = .next (s.ends n d fun x =>
        ((x.modCbb fun b => { b with sem := b.sem.drop c }).count Ct.CBB_SEM_FORCED).raise Ev.CBB_SEM_FORCED)) ∧
      (semReleases d c h s.pending = true → exec (.cbbSemForced n d c) s = .next (s.ends n d id))) ∧
    (∀ (w : Init) (win : Fin 16) (r : WindowReg) (v : Word), (s.at_ n d).may w (windowReg win r) = true →
      let f := fun x : Side => x.store (windowReg win r) (if r = .far then v &&& 0x3FFF0000#32 else v)
      ((f (s.at_ n d)).windowsBad = false → exec (.cbbWindowWrite n d w win r v) s = .next (s.ends n d fun x =>
        (f x).drive (windowReg win r / 0x40000))) ∧
      ((f (s.at_ n d)).windowsBad = true → exec (.cbbWindowWrite n d w win r v) s = .next (s.ends n d fun x =>
        (x.raise Ev.CBB_CFG_ERR).drive (windowReg win r / 0x40000))))

/-! ## Tensor engines, stalls and paging -/

/-- The life of a descriptor (R113, R217, R362 to R364, R374, R916): decoded, it starts, with the ladder entries of its inputs
as they stand, or is refused, its fault reported 40 cycles later; its rounds of work units are checked and written; having run
its course, it commits. -/
def Obligations.DescriptorsComplete : Prop :=
  ∀ (s : State) (n : Now) (d : Ch) (e : Fin 8) (r : Run), (s.at_ n d).live = true → ((s.at_ n d).eng e).run = some r →
    (r.started = false → r.refused = none → (s.at_ n d).teState e = 0 → (s.at_ n d).budgetOver r = false →
      (s.at_ n d).waitMet r ((s.at_ n d).desc r) = true →
      (r.served = true → (s.at_ n d).bsqServes r.stall = true ∧ (s.at_ n d).issueOpen = true ∧
        ∃ l, (s.at_ n d).serveLeft r.stall e = some l ∧ (((s.at_ n d).desc r).wcet ≤ 24000 → fit ((s.at_ n d).desc r).wcet ≤ l)) →
      exec (.descriptorStart n d e) s = .next (s.ends n d fun x =>
        let m := (x.passBridle e ⟨true, x.planBase r.stall + r.at_, 64, none⟩).readHdrs e r (x.desc r)
        let y := m.1
        match (y.ctx e r (x.desc r)).check with
        | none => y.beginDesc e r (x.desc r) m.2
        | some (cause, operand) => y.modEng e fun t => { t with run := t.run.map fun u => { u with
            refused := some (cause, operand, (y.ctx e r (x.desc r)).outSound), issueMt := y.mt } })) ∧
    (∀ cause operand mark, r.refused = some (cause, operand, mark) → 200 ≤ 3 * ((s.at_ n d).mt - r.issueMt) →
      exec (.descriptorCommit n d e) s = .next (s.ends n d fun x => x.descFault e r (x.desc r) cause operand mark)) ∧
    (∀ ups : List Upset, r.started = true → (s.at_ n d).teState e = 1 →
      ((((s.at_ n d).desc r).op = 1 ∨ ((s.at_ n d).desc r).op = 2) →
        r.units ((s.at_ n d).qop e r ((s.at_ n d).desc r)).units ≠ [] →
        (s.at_ n d).roundOver r (((s.at_ n d).desc r).unitCycles ((s.at_ n d).qop e r ((s.at_ n d).desc r)).a) = true →
        exec (.workUnitDone n d e ups) s = .next (s.ends n d fun x => x.runRound e r (x.desc r) ups)) ∧
      ((((s.at_ n d).desc r).op = 6 ∨ ((s.at_ n d).desc r).op = 7) →
        r.units ((s.at_ n d).attnDims e r ((s.at_ n d).desc r)).1 ≠ [] →
        (s.at_ n d).roundOver r ((s.at_ n d).attnDims e r ((s.at_ n d).desc r)).2 = true →
        (s.at_ n d).pagesReady e r ((s.at_ n d).desc r) (r.units ((s.at_ n d).attnDims e r ((s.at_ n d).desc r)).1) = true →
        exec (.workUnitDone n d e ups) s = .next (s.ends n d fun x => x.runAttn e r (x.desc r) ups))) ∧
    (r.started = true → r.refused = none → (s.at_ n d).teState e = 1 →
      (s.at_ n d).descDone e r ((s.at_ n d).desc r) = true → (s.at_ n d).avgBad e r ((s.at_ n d).desc r) = false →
      exec (.descriptorCommit n d e) s = .next (s.ends n d fun x =>
        (x.descEffect e r (x.desc r) (!x.moreCopies e r (x.desc r))).finishDesc e r (x.desc r) (x.inherited e r (x.desc r)))) ∧
    (r.started = true → r.refused = none → (s.at_ n d).teState e = 1 →
      (s.at_ n d).descDone e r ((s.at_ n d).desc r) = true → (s.at_ n d).avgBad e r ((s.at_ n d).desc r) = true →
      exec (.descriptorCommit n d e) s = .next (s.ends n d fun x => x.descFault e r (x.desc r) 0x13 5 true))

/-- Overruns and stops of an engine (R115, R125, R319, R324, R333): a descriptor past its worst case is counted once; a list
past its budget stops, after the commits of the same cycle; a stopped engine is IDLE once drained; a served window's end stops
the descriptor that runs. -/
def Obligations.EngineStopsComplete : Prop :=
  ∀ (s : State) (n : Now) (d : Ch) (e : Fin 8), (s.at_ n d).live = true →
    (∀ r : Run, ((s.at_ n d).eng e).run = some r → r.started = true → (s.at_ n d).teState e = 1 → r.overrun = false →
      5 * ((s.at_ n d).desc r).wcet < 3 * ((s.at_ n d).mt - r.issueMt) →
      exec (.wcetOverrun n d e) s = .next (s.ends n d fun x =>
        ((x.count Ct.TE_WCET_OVERRUN e).raise Ev.TE_WCET_OVERRUN e).modEng e fun t => { t with
          run := t.run.map fun u => { u with overrun := true } })) ∧
    (let first := fun x : Side => x.commitFirst (sameCommits d s.pending)
      ∀ r : Run, ((first (s.at_ n d)).eng e).run = some r →
        ((first (s.at_ n d)).budgetOver r = true →
          exec (.listBudgetEnd n d e) s = .next (s.ends n d fun x => (first x).stopList e)) ∧
        ((first (s.at_ n d)).budgetOver r = false → exec (.listBudgetEnd n d e) s = .next (s.ends n d first))) ∧
    ((s.at_ n d).teState e = 2 → exec (.engineStopDrained n d e) s = .next (s.ends n d fun x => (x.setTe e 0).promote e)) ∧
    (∀ r : Run, ((s.at_ n d).eng e).run = some r → r.served = true → (s.at_ n d).serveLeft r.stall e = none →
      (r.started = true → (s.at_ n d).teState e = 1 → exec (.serveWindowEnd n d e) s = .next (s.ends n d fun x =>
        (((x.count Ct.BSQ_WINDOW_STOPS r.stall).raise Ev.BSQ_WINDOW_STOP r.stall).discardStep r.stall).bsqSettle r.stall)) ∧
      (r.started = false → exec (.serveWindowEnd n d e) s = .next (s.ends n d fun x =>
        x.modEng e fun t => { t with run := t.run.map fun u => { u with unfit := false } })))

/-- Steps of a served stall (R268, R341, R348): a step is formed once every move is made and an engine is there; a step whose
program has run commits, or fails its sequences with the status of what it met. -/
def Obligations.StepsComplete : Prop :=
  ∀ (s : State) (n : Now) (d : Ch) (st : Fin 8), (s.at_ n d).live = true → (s.at_ n d).serving st = true →
    ((s.at_ n d).psq st = 2 → ((s.at_ n d).stl st).step = none →
      ((((s.at_ n d).switchIfDue st).pagingRules st).stl st).moves = [] →
      ((((s.at_ n d).switchIfDue st).pagingRules st).stepEngine st).isSome = true →
      exec (.stepForm n d st) s = .next (s.ends n d fun x => (((x.switchIfDue st).pagingRules st).markRecompute st).formStep st)) ∧
    (∀ (outs : List SeqOut) (t : Step) (e : Nat), ((s.at_ n d).stl st).step = some t → (s.at_ n d).stepEngine st = some e →
      (s.at_ n d).stepRan st t = true →
      (t.win = true → exec (.stepCommit n d st outs) s = .next (s.ends n d fun x => (x.failStep st t 5).pagingRules st)) ∧
      (t.win = false → (t.par = true ∨ t.chk = true) → t.again = false →
        exec (.stepCommit n d st outs) s = .next (s.ends n d fun x => x.repeatStep st e t)) ∧
      (t.win = false → t.par = true → t.again = true →
        exec (.stepCommit n d st outs) s = .next (s.ends n d fun x => (x.failStep st t 4).pagingRules st)) ∧
      (t.win = false → t.par = false → t.chk = true → t.again = true →
        exec (.stepCommit n d st outs) s = .next (s.ends n d fun x => (x.failStep st t 3).pagingRules st)) ∧
      (t.win = false → t.par = false → t.chk = false → t.nonfin = true →
        exec (.stepCommit n d st outs) s = .next (s.ends n d fun x => (x.failStep st t 3).pagingRules st)) ∧
      (t.win = false → t.par = false → t.chk = false → t.nonfin = false →
        exec (.stepCommit n d st outs) s = .next (s.ends n d fun x => (x.commitStep st t outs).pagingRules st)))

/-- Page moves (R238, R239, R269 to R280): a walk delivers its next page when its ring has room for it; a spill or fill is made; a swap's pages arrive, and
it commits. -/
def Obligations.PageMovesComplete : Prop :=
  ∀ (s : State) (n : Now) (d : Ch) (st : Fin 8) (u : Fin 4), (s.at_ n d).live = true →
    (∀ (e : Fin 8) (r : Run) (w : WalkPage), ((s.at_ n d).eng e).run = some r → r.started = true → (s.at_ n d).teState e = 1 →
      (((s.at_ n d).desc r).op = 6 ∨ ((s.at_ n d).desc r).op = 7) → ((s.at_ n d).desc r).pdma = u.val →
      (s.at_ n d).unitReady u r.stall = true →
      (s.at_ n d).ringRoom u r ((s.at_ n d).desc r) (hW ((s.at_ n d).hdrIn r.stall e ((s.at_ n d).desc r).aA))
        ((s.at_ n d).walk e r ((s.at_ n d).desc r)).length = true →
      ((s.at_ n d).walk e r ((s.at_ n d).desc r))[r.pages]? = some w →
      exec (.pdmaPageDeliver n d u e) s = .next (s.ends n d fun x =>
        x.deliverPage u e r (x.desc r) w (x.walk e r (x.desc r)))) ∧
    (∀ m t, ((s.at_ n d).stl st).moves = m :: t → (s.at_ n d).moveUnit st = some u.val →
      exec (.pageMoveDone n d st u) s = .next (s.ends n d (Side.moveNext st u m))) ∧
    (∀ w : Swap, ((s.at_ n d).stl st).swap = some w →
      (w.out = true → w.flight = none → (s.at_ n d).linkUp = true → exec (.swapOutCommit n d st) s = .next (s.ends n d (Side.swapOutEnd st w))) ∧
      (∀ m t, w.left = m :: t → w.out = false → w.flight ≠ some 0 → (s.at_ n d).linkUp = true → (s.at_ n d).moveUnit st = some u.val →
        exec (.shedPageArrived n d st u) s = .next (s.ends n d (Side.shedIn st u w m t))) ∧
      (w.left = [] → w.out = false → w.flight = none → exec (.swapInCommit n d st) s = .next (s.ends n d fun x =>
        ((((w.copied.foldl (Side.adoptPage st) x).swapOver st).readmit st w.seq).raise Ev.BSQ_SWAP_IN st).startSwapOut st)))

/-- ADMIT, its mirrors, REMOVE and its end (R303 to R309, R405): the result of the checks completes the command, or the mirrors
are filled first; a removed stall drains, and is EMPTY once its frame or step is over. -/
def Obligations.AdmissionsComplete : Prop :=
  ∀ (s : State) (n : Now) (d : Ch) (r : CmdRef) (c : Cmd) (st : Fin 8), (s.at_ n d).live = true →
    (∀ q : AdmitReq, (s.at_ n d).Plans r 0x01 c → (s.at_ n d).admitFree = true → ((domainsOf q).all (s.at_ n d).domOn) = true →
      exec (.admission n d r q) s = .next (s.ends n d fun x =>
        if x.admitResult q = 0 ∧ q.mirrors ≠ [] then
          (x.openMirrors q).modStl q.stall fun t => { t with admitting := some (q, some (r.fn.val, c.ring, c.id)) }
        else x.admitDone r.fn c q (x.admitResult q))) ∧
    (∀ (q : AdmitReq) (f ring id : Nat), ((s.at_ n d).stl st).admitting = some (q, some (f, ring, id)) →
      (s.at_ n d).accepted f ring id = some c → (s.at_ n d).pairUp 1 = true →
      exec (.mirrorFillDone n d st) s = .next (s.ends n d (Side.admitFilled st q f c))) ∧
    ((s.at_ n d).Plans r 0x02 c → (s.at_ n d).psq st ≠ 0 → (s.at_ n d).psq st ≠ 3 →
      exec (.remove n d r st) s = .next (s.ends n d (Side.drainFor st r c))) ∧
    ((s.at_ n d).Plans r 0x02 c → (s.at_ n d).psq st = 0 →
      exec (.remove n d r st) s = .next (s.ends n d fun x => x.complete r.fn c 5 4)) ∧
    ((s.at_ n d).psq st = 3 → (s.at_ n d).drainOver st = true → (((s.at_ n d).stl st).remover = none ∨ (s.at_ n d).pairUp 1 = true) →
      exec (.stallDrainEnd n d st) s = .next (s.ends n d (Side.drainEnd st)))

/-- CHAN_CFG, SEQ_SUBMIT and SEQ_ABORT (R282, R350, R388, R389, R450): a legal list of bridle values is taken, an illegal one
answered BANDWIDTH; a submission is queued or refused with its check; an abort cuts its sequence. -/
def Obligations.SequenceCommandsComplete : Prop :=
  ∀ (s : State) (n : Now) (d : Ch) (r : CmdRef) (c : Cmd), (s.at_ n d).live = true →
    (∀ l : List BridleCfg, (s.at_ n d).Plans r 0x03 c →
      ((s.at_ n d).chanOk l = true →
        exec (.chanCfg n d r l) s = .next (s.ends n d fun x => (x.takeChan l).complete r.fn c 0)) ∧
      ((s.at_ n d).chanOk l = false →
        exec (.chanCfg n d r l) s = .next (s.ends n d fun x => x.complete r.fn c 0 9))) ∧
    ((s.at_ n d).Holds r 0x04 c → c.handed = false → (s.at_ n d).seqExists c.seqReq.stall c.seqReq.seq = true →
      exec (.seqSubmit n d r) s = .next (s.ends n d fun x =>
        if x.seqCause c.seqReq = 0 then Side.takeSeq r c c.seqReq x else Side.refuseSeq r c c.seqReq (x.seqCause c.seqReq) x)) ∧
    ((s.at_ n d).Holds r 0x05 c → (s.at_ n d).seqExists (c.w 2 % 8) (bits (c.w 2) 15 8) = true →
      ((s.at_ n d).seqState (c.w 2 % 8) (bits (c.w 2) 15 8) ≠ 0 → exec (.seqAbort n d r) s = .next (s.ends n d fun x =>
        (x.cutSeq (c.w 2 % 8) (bits (c.w 2) 15 8) 6).complete r.fn c 0)) ∧
      ((s.at_ n d).seqState (c.w 2 % 8) (bits (c.w 2) 15 8) = 0 → exec (.seqAbort n d r) s = .next (s.ends n d fun x =>
        x.complete r.fn c 7)))


/-! ## Reset, boot, the host link and power -/

/-- Cold resets (R825, R829, R833): power-up, the reset pin and a brown-out of the AON rail reset the die whatever it does, a
brown-out of another rail is a supply emergency; the release starts the die. The fault reset (R738, R792, R825 to R829): SAFE
requests it, it begins 20 µs later, it ends, and each
container that is verified again, its payload's SHA-384 against the sealed one among it, lets the restart go on or stops it. -/
def Obligations.ResetsComplete : Prop :=
  (∀ (s : State) (n : Now) (d : Ch),
    exec (.powerUp n d) s = .next (s.ends n d fun x => x.coldReset 0) ∧
    ((s.at_ n d).me.rst.phase ≠ .off →
      exec (.resetPin n d) s = .next (s.ends n d fun x => x.coldReset 1) ∧
      exec (.brownOut n d true) s = .next (s.ends n d fun x => x.coldReset 2)) ∧
    ((s.at_ n d).me.ticking = true → exec (.brownOut n d false) s = .next (s.ends n d Side.emergency)) ∧
    ((s.at_ n d).me.rst.phase = .coldReset → exec (.coldResetRelease n d) s = .next (s.ends n d Side.releaseCold)) ∧
    ((s.at_ n d).live = true → (s.at_ n d).me.hbx.lcArmed.isSome = true →
      exec (.lifecycleWipeDone n d) s = .next (s.ends n d fun x => x.burnWiped.coldReset 3))) ∧
  (∀ (s : State) (n : Now) (d : Ch),
    ((s.at_ n d).live = true → (s.at_ n d).safeState = 2 → (s.at_ n d).me.safe.resetDue = true →
      (s.at_ n d).me.rst.req = none → (s.at_ n d).requestDue = true → (s.at_ n d).calm = true →
      exec (.faultResetRequest n d) s = .next (s.ends n d fun x => x.requestReset x.resetTrigger)) ∧
    (∀ code t, (s.at_ n d).live = true → (s.at_ n d).me.rst.req = some (code, t) → t + 20000 ≤ (s.at_ n d).mt →
      exec (.faultReset n d) s = .next (s.ends n d fun x => x.resetNow code)) ∧
    ((s.at_ n d).me.rst.phase = .faultReset → (s.at_ n d).calm = true →
      exec (.faultResetRelease n d) s = .next (s.ends n d Side.releaseReset)) ∧
    (∀ e ok, (s.at_ n d).live = true → (s.at_ n d).me.rst.warm = true → (s.at_ n d).flag Reg.HBX_STAT 6 = true →
      (s.at_ n d).verifying = some e →
      exec (.sealedReverifyDone n d ok) s = .next (s.ends n d fun x =>
        x.reverified e (ok && x.sealIntact e))))

/-- The boot ROM's steps (R691 to R694): the loft is trained, the flash image is read and verified, Rhordo starts; each step
that fails leaves the channel with its cause. -/
def Obligations.BootStepsComplete : Prop :=
  ∀ (s : State) (n : Now) (d : Ch), (s.at_ n d).live = true →
    ((s.at_ n d).inRom = true → (s.at_ n d).field Reg.LOFT_STAT 1 0 < 2 →
      exec (.loftTrainingDone n d true) s = .next (s.ends n d fun x => (x.setField Reg.LOFT_STAT 1 0 2).startWipes.claimBlock) ∧
      exec (.loftTrainingDone n d false) s = .next (s.ends n d fun x =>
        ((x.setField Reg.LOFT_STAT 1 0 3).raise Ev.LOFT_TRAIN_FAIL).setCause 1)) ∧
    ((s.at_ n d).inRom = true → (s.at_ n d).field Reg.LOFT_STAT 1 0 = 2 →
      (∀ k, 4096 ≤ k → k ≤ 67108864 → exec (.flashImageReadDone n d (some k)) s = .next (s.ends n d fun x =>
        (x.setMode 3).setFlag Reg.HBX_STAT 6 true)) ∧
      (∀ k, k < 4096 ∨ 67108864 < k → exec (.flashImageReadDone n d (some k)) s = .next (s.ends n d fun x => x.waitImage 2)) ∧
      exec (.flashImageReadDone n d none) s = .next (s.ends n d fun x => x.waitImage 2)) ∧
    ((s.at_ n d).mode = 3 → ∀ img : ImageInfo,
      exec (.imageVerificationDone n d 0 img) s = .next (s.ends n d fun x => x.imageAccepted img) ∧
      ∀ res : Fin 12, res ≠ 0 → exec (.imageVerificationDone n d res img) s = .next (s.ends n d fun x => x.imageRefused res)) ∧
    ((s.at_ n d).mode = 4 → ((s.at_ n d).me.hbx.seals.any fun e => e.kind == 1 && e.pendingVerify) = false →
      ∀ bad manifest, exec (.startupSelftestDone n d bad manifest) s = .next (s.ends n d (Side.selftestEnd bad manifest)))

/-- The hub and its link (R635 to R637, R653, R825, R839): reset and return of the hub, loss and training of the link. -/
def Obligations.HubAndLinkComplete : Prop :=
  ∀ (s : State) (n : Now),
    (s.hub.down = false →
      (∀ t : HubTrigger, t ≠ .thermal → exec (.hubReset n t) s = .next (s.elapse n).hubCut) ∧
      exec (.hubReset n .thermal) s = .next { (s.elapse n).hubCut with
        hub := { (s.elapse n).hubCut.hub with hot := true, cool := 0 } } ∧
      (bit (s.hreg Reg.PCI_LINK_STAT) 8 = true → exec (.pcieLinkDown n) s = .next (s.elapse n).loseLink) ∧
      (∀ (rate : Fin 6) (width : Fin 9), let cfg := s.hreg Reg.PCI_LINK_CFG
        linkOk (linkRate cfg rate) (linkWidth cfg width) = true →
        exec (.pcieLinkUp n rate width) s = .next ((s.elapse n).gainLink (linkRate cfg rate) (linkWidth cfg width)))) ∧
    (s.hub.down = true → (s.hub.hot = true → 1000 ≤ s.hub.cool) →
      exec (.hubReturn n) s = .next (s.elapse n).hubUp)

/-- Power requests, domains and claims (R815 to R823): a request is taken or refused; a domain that is ready rises, a
quiesced one goes off; a claim that lasts refuses the request. -/
def Obligations.PowerDomainsComplete : Prop :=
  ∀ (s : State) (n : Now) (d : Ch) (dom : Fin 24), (s.at_ n d).live = true →
    (∀ w : Init, (s.at_ n d).may w Reg.PWR_REQ = true →
      exec (.pwrReqOn n d w dom) s = .next (s.ends n d fun x => (x.pwrReq dom true).drive (Reg.PWR_REQ / 0x40000)) ∧
      exec (.pwrReqOff n d w dom) s = .next (s.ends n d fun x => (x.pwrReq dom false).drive (Reg.PWR_REQ / 0x40000))) ∧
    ((s.at_ n d).me.pwr.rising.contains dom.val = true → (∀ p ∈ parents dom, (s.at_ n d).domOn p = true) →
      exec (.domainPowerUpDone n d dom) s = .next (s.ends n d fun x => x.risen dom)) ∧
    ((s.at_ n d).me.pwr.quiescing.contains dom.val = true →
      (∀ p ∈ domainPages dom, (s.at_ n d).quiesced p.1 p.2 = true) →
      exec (.domainPowerOff n d dom) s = .next (s.ends n d fun x =>
        ((x.cutDomain dom).modPwr fun p => { p with quiescing := p.quiescing.del dom, req := none }).reqStat false 0)) ∧
    (∀ claim, (s.at_ n d).domOn 22 = true →
      exec (.claimChange n d dom claim) s = .next (s.ends n d fun x => x.setClaim dom claim)) ∧
    (∀ q t, (s.at_ n d).me.pwr.req = some (q, false, some t) → t + 1000000 ≤ (s.at_ n d).mt →
      exec (.claimDeferTimeout n d) s = .next (s.ends n d fun x =>
        ((x.reqRefused 3).count Ct.HBX_CLAIM_REFUSED).raise Ev.HBX_CLAIM_REFUSED))

/-- Thermal polls and clocks (R831, R832, R834, R835, R839): a poll of a die or of the hub, the windows of stage 2, a clock's
check, loss and return of the reference. -/
def Obligations.ThermalAndClocksComplete : Prop :=
  ∀ (s : State) (n : Now) (d : Ch),
    (∀ temps : List Int, temps ≠ [] →
      exec (.thermalPoll n true d temps) s = .next ((s.elapse n).pollHub (temps.take 4)) ∧
      ((s.at_ n d).me.ticking = true →
        exec (.thermalPoll n false d temps) s = .next (s.ends n d fun x => x.pollDie (temps.take 16)))) ∧
    ((s.at_ n d).me.pwr.refLost = true → exec (.refClockReturn n d) s = .next (s.ends n d fun x =>
      ((((x.modPwr fun p => { p with refLost := false }).setFlag Reg.CLK_STAT 0 true).setFlag Reg.CLK_STAT 6 false).gmResume
        false).gmResume true)) ∧
    ((s.at_ n d).live = true →
      (2 ≤ (s.at_ n d).thermal → exec (.alternateWindowToggle n d) s = .next (s.ends n d fun x =>
        x.modPwr fun p => { p with altOpen := !p.altOpen })) ∧
      (∀ (c : Fin 8) (dev : Int) (locked : Bool),
        (100 < dev.natAbs ∨ locked = false → exec (.clockCheck n d c dev locked) s = .next (s.ends n d fun x =>
          ((x.clockSeen c dev locked).count Ct.CLK_FAULTS).raise Ev.CLK_FAULT)) ∧
        (dev.natAbs ≤ 100 → locked = true → exec (.clockCheck n d c dev locked) s = .next (s.ends n d fun x =>
          x.clockSeen c dev locked))) ∧
      ((s.at_ n d).me.pwr.refLost = false → (s.at_ n d).me.ticking = true →
        exec (.refClockLost n d) s = .next (s.ends n d Side.refGone)))

/-! ## Time bases and cadence -/

/-- gPTP messages (R41, R43, R44, R46, R51, R54, R57, R59, R911): a Sync of the accepted grandmaster at the slave port restarts
the receipt timeout and is a sample of its base, θ being the corrected ingress stamp less the origin time, the link delay and the
asymmetry; one of another grandmaster is refused; the receipt timeout takes a base that follows into HOLDOVER, and none runs out
before its intervals have passed; a grandmaster port sends a Sync and its Follow_Up with the Sync's corrected egress stamp each
sync interval; a peer-delay exchange gives the neighbour's rate ratio and the mean link delay from its four stamps. A port that the
switch does not run takes and sends none. -/
def Obligations.GptpMessagesComplete : Prop :=
  ∀ (s : State) (n : Now) (d : Ch) (port : Fin 8) (wt : Bool), (s.at_ n d).live = true → (s.at_ n d).portUp port = true →
    (∀ (domain : Fin 128) (gm : Nat), (s.at_ n d).baseOfDomain domain = some wt → (s.at_ n d).portRole port wt = 2 →
      (s.at_ n d).isGm wt = false →
      ((s.at_ n d).accGm wt ≠ 0 → (s.at_ n d).accGm wt ≠ gm →
        (∀ origin corr iv, exec (.syncReceived n d port domain gm origin corr iv) s = .next (s.ends n d fun x =>
          (x.armSync wt (31250000 * 2 ^ iv.val)).gmChange wt)) ∧
        exec (.announceReceived n d port domain gm) s = .next (s.ends n d fun x => x.gmChange wt)) ∧
      ((s.at_ n d).accGm wt = 0 ∨ (s.at_ n d).accGm wt = gm →
        (∀ origin corr iv, exec (.syncReceived n d port domain gm origin corr iv) s = .next (s.ends n d fun x =>
          let th := rndAway ((x.ingStamp port wt) - (origin + rndAway (corr.toInt * 1000) 65536 + x.linkDelay port + x.asymPs port)) 1000
          let y := x.armSync wt (31250000 * 2 ^ iv.val)
          (if wt then y else y.wr Reg.OFFSET_LAST (satI32 th)).sample wt gm th (31250000 * 2 ^ iv.val))) ∧
        exec (.announceReceived n d port domain gm) s = .next (s.ends n d id))) ∧
    ((s.at_ n d).syncOver wt = true → (s.at_ n d).isGm wt = false →
      ((s.at_ n d).baseState wt = 1 ∨ (s.at_ n d).baseState wt = 2 ∨ (s.at_ n d).baseState wt = 4) →
      exec (.syncReceiptTimeout n d wt) s = .next (s.ends n d fun x =>
        let y := x.modTime fun t => { t with syncAt := t.syncAt.drop (nat1 wt) }
        (if wt then y else y.count Ct.TIME_SYNC_TIMEOUT).toHoldover wt)) ∧
    ((s.at_ n d).syncOver wt = false → exec (.syncReceiptTimeout n d wt) s = .next (s.ends n d id)) ∧
    ((s.at_ n d).isGm wt = true → (s.at_ n d).portRole port wt = 3 →
      (sentBefore (s.at_ n d).me.time.sentAt (2 * port + nat1 wt) (logNs (s.at_ n d).me.time.gptp.logSync) (s.at_ n d).mt = true →
        exec (.syncTransmit n d port wt) s = .next (s.ends n d fun x =>
          ((x.modTime fun t => { t with sentAt := t.sentAt.put (2 * port + nat1 wt) x.mt }).emit (.gptp 0 port wt 0)).emit
            (.gptp 1 port wt (x.egrStamp port wt).toNat))) ∧
      exec (.announceTransmit n d port wt) s = .next (s.ends n d fun x => x.emit (.gptp 2 port wt 0))) ∧
    (sentBefore (s.at_ n d).me.time.pdelayAt port (logNs (s.at_ n d).me.time.gptp.logPdelay) (s.at_ n d).mt = true →
      (∀ r : PdelayResp, exec (.pdelayExchange n d port (some r)) s = .next (s.ends n d fun x => x.modTime fun t =>
        let t1 := x.egrStampAgo port r.turn
        let t4 := x.ingStamp port false
        let ratio := x.neighbourRatio port r.t3 t4
        { t with
          pdelayAt := t.pdelayAt.put port x.mt
          rateRatio := t.rateRatio.put port ratio
          linkDelay := t.linkDelay.put port (rndAway ((t4 - t1) * (10 ^ 12 + ratio) - (r.t3 - r.t2) * 10 ^ 12) (2 * 10 ^ 12))
          pdelayLast := t.pdelayLast.put port (r.t3, t4, if x.flag Reg.TIME_CTRL 1 then some (x.ingStamp port true) else none) })) ∧
      exec (.pdelayExchange n d port none) s = .next (s.ends n d fun x =>
        (x.modTime fun t => { t with pdelayAt := t.pdelayAt.put port x.mt }).count Ct.TIME_PDELAY_FAIL))

/-- HOLDREF, HOLDOVER and the roles of the channel (R34, R42, R61, R67, R68, R912, R913): a period within 200 ppm
disciplines, any other and a stop clear; a long HOLDOVER expires once; a grandmaster role ends in HOLDOVER at its
frequency; SNAP captures the four times. -/
def Obligations.TimeRolesComplete : Prop :=
  ∀ (s : State) (n : Now) (d : Ch) (w : Init) (wt : Bool), (s.at_ n d).live = true →
    ((s.at_ n d).holdrefPs ≠ 0 →
      (∀ p : Nat, ((p : Int) - (s.at_ n d).holdrefPs).natAbs * 1000000 ≤ 200 * (s.at_ n d).holdrefPs →
        exec (.holdrefEdge n d p) s = .next (s.ends n d fun x =>
          x.setHoldref (some (rndAway (((x.holdrefPs : Int) - p) * 10 ^ 12) p)))) ∧
      (∀ p : Nat, 200 * (s.at_ n d).holdrefPs < ((p : Int) - (s.at_ n d).holdrefPs).natAbs * 1000000 →
        exec (.holdrefEdge n d p) s = .next (s.ends n d fun x => x.setHoldref none)) ∧
      exec (.holdrefReferenceStopped n d) s = .next (s.ends n d fun x => x.setHoldref none)) ∧
    ((s.at_ n d).baseState wt = 3 → ((s.at_ n d).base wt).expired = false →
      clampN 1 3600 ((s.at_ n d).rdN Reg.HOLDOVER_MAX) * 10 ^ 9 ≤ (s.at_ n d).mt - ((s.at_ n d).base wt).holdMt →
      exec (.holdoverExpired n d wt) s = .next (s.ends n d fun x =>
        ((x.modBase wt fun b => { b with expired := true }).raise Ev.TIME_HOLDOVER_EXPIRED).faultMessage 3
          { cls := 0x0D, block := T.TIME, inst := 0, ev := Ev.TIME_HOLDOVER_EXPIRED.bit, stream := 0 })) ∧
    ((s.at_ n d).may w Reg.TIME_CTRL = true → (s.at_ n d).isGm wt = true →
      exec (.gmRoleClear n d w wt) s = .next (s.ends n d fun x =>
        ((x.setFlag Reg.TIME_CTRL (if wt then 5 else 4) false).toHoldoverAt wt (x.base wt).y).drive (Reg.TIME_CTRL / 0x40000))) ∧
    (∀ v : Word, (s.at_ n d).may w Reg.GM_ACCEPT = true →
      exec (.gmAccept n d w v) s = .next (s.ends n d fun x =>
        let y := if bit v 0 then x.wr64 Reg.ACC_GM_VT (x.rd64 Reg.EXP_GM_ID) else x
        (if bit v 1 then y.wr64 Reg.ACC_GM_WT (x.rd64 Reg.EXP_GM_ID) else y).drive (Reg.GM_ACCEPT / 0x40000))) ∧
    (∀ v : Word, (s.at_ n d).may w Reg.SNAP = true → bit v 0 = true →
      exec (.snap n d w v) s = .next (s.ends n d fun x =>
        ((((x.wr64 Reg.SNAP_VT x.vt).wr64 Reg.SNAP_MT x.mt).wr64 Reg.SNAP_WT x.wt).wr64 Reg.SNAP_DT x.dt).drive
          (Reg.SNAP / 0x40000))) ∧
    (∀ (port : Fin 8) (v : Word), (s.at_ n d).may w ((Reg.PORT_ROLE : Reg).el 0x10 port) = true →
      ((fld v 1 0 = 2 ∧ (s.at_ n d).otherSlave port false = true) ∨ (fld v 3 2 = 2 ∧ (s.at_ n d).otherSlave port true = true) →
        exec (.portRoleWrite n d w port v) s = .next (s.ends n d fun x =>
          (x.raise Ev.TIME_CFG_ERR).drive ((Reg.PORT_ROLE : Reg).el 0x10 port / 0x40000))) ∧
      ((fld v 1 0 = 2 → (s.at_ n d).otherSlave port false = false) → (fld v 3 2 = 2 → (s.at_ n d).otherSlave port true = false) →
        exec (.portRoleWrite n d w port v) s = .next (s.ends n d fun x =>
          (x.writeRole port v).drive ((Reg.PORT_ROLE : Reg).el 0x10 port / 0x40000)) ∧
        ∀ a, ((s.at_ n d).writeRole port v).rd a = ((s.at_ n d).store ((Reg.PORT_ROLE : Reg).el 0x10 port) v).rd a))

/-- The cadence runs (R82, R85, R92, R97 to R99, R105, R150): frames end and begin, slots start, frame-sync outputs take and
leave their active level, a leading edge with the stamp pair of its slot, each when its instant is reached, through a fault reset
as well; what commits in the cycle of a frame's end or a slot's start commits before it. -/
def Obligations.CadenceRunsComplete : Prop :=
  ∀ (s : State) (n : Now) (d : Ch), (s.at_ n d).me.ticking = true →
    (let first := fun x : Side => x.commitFirst (sameCommits d s.pending)
      let x := first (s.at_ n d)
      (x.cadSrc = 0 → exec (.frameStart n d) s = .next (s.runs n d fun x => (first x).startVt)) ∧
      (∀ v t, x.cadSrc ≠ 0 → x.me.cad.slots ≤ x.me.cad.slot → x.frameEnd = some (v, t) →
        exec (.frameStart n d) s = .next (s.runs n d fun x => (first x).endFrame v t)) ∧
      (x.cadSrc ≠ 0 → x.me.cad.slot < x.me.cad.slots → x.slotReached x.me.cad.slot = true →
        exec (.slotStart n d) s = .next (s.runs n d fun x => (first x).startSlot (first x).me.cad.slot))) ∧
    (∀ (i : Fin 8) (t : Nat) (high : Bool), Tbl.get (0, false) (s.at_ n d).me.cad.fsync i = (t, high) →
      (high = true → t + (s.at_ n d).rdN (fsyncCfg i + 8) ≤ (s.at_ n d).mt →
        exec (.fsyncPulse n d i false) s = .next (s.runs n d fun x => x.putFsync i t false x.stamp)) ∧
      (high = false → (s.at_ n d).cadSrc ≠ 0 → (s.at_ n d).me.cad.slot ≠ 0 →
        fires (bit ((s.at_ n d).rd (fsyncCfg i)) 0) (fld ((s.at_ n d).rd (fsyncCfg i)) 11 2)
          (fld ((s.at_ n d).rd (fsyncCfg i)) 22 12) (s.at_ n d).slotNow = true →
        (s.at_ n d).slotMt (s.at_ n d).slotNow + (s.at_ n d).rdN (fsyncCfg i + 4) ≤ (s.at_ n d).mt →
        t < (s.at_ n d).slotMt (s.at_ n d).slotNow + (s.at_ n d).rdN (fsyncCfg i + 4) →
        exec (.fsyncPulse n d i true) s = .next (s.runs n d fun x =>
          if x.live then x.putFsync i x.mt true x.me.cad.slotAt
          else (x.count Ct.CAD_LAUNCH_SKIPPED).modCad fun c => { c with fsync := c.fsync.put i (x.mt, false) }))) ∧
    ((s.at_ n d).cadSrc = 0 → (s.at_ n d).me.cad.tickMt + 33333333 ≤ (s.at_ n d).mt →
      exec (.stoppedFrameTick n d) s = .next (s.runs n d fun x => x.modCad fun c => { c with
        ticks := c.ticks + 1, tickMt := c.tickMt + 33333333 }))

/-- The CAD page (R80, R84, R92 to R96, R100, R101): a legal configuration waits for the next frame, one that is not legal
or that a launch forbids is ignored with its event; RUN is written; launches and pulses are checked. -/
def Obligations.CadenceControlWrites : Prop :=
  ∀ (s : State) (n : Now) (d : Ch) (w : Init) (v : Word), (s.at_ n d).live = true →
    ((s.at_ n d).may w Reg.CAD_APPLY = true → bit v 0 = true →
      (cadCfgOk ((s.at_ n d).rdN Reg.CAD_PERIOD) ((s.at_ n d).rdN Reg.CAD_SLOTS) = true → (s.at_ n d).applyBlocked = false →
        exec (.cadApply n d w v) s = .next (s.ends n d fun x =>
          ((x.modCad fun c => { c with next := some (x.rd64 Reg.CAD_EPOCH, x.rdN Reg.CAD_PERIOD, x.rdN Reg.CAD_SLOTS) }).setFlag
            Reg.CAD_STAT 4 true).drive (Reg.CAD_APPLY / 0x40000))) ∧
      (cadCfgOk ((s.at_ n d).rdN Reg.CAD_PERIOD) ((s.at_ n d).rdN Reg.CAD_SLOTS) = false ∨ (s.at_ n d).applyBlocked = true →
        exec (.cadApply n d w v) s = .next (s.ends n d fun x => (x.raise Ev.CAD_CFG_ERR).drive (Reg.CAD_APPLY / 0x40000)))) ∧
    ((s.at_ n d).may w Reg.CAD_CTRL = true →
      (∀ mt, exec (.cadRun n d w mt) s = .next (s.ends n d fun x =>
        (x.store Reg.CAD_CTRL (pack [(0, 1), (1, nat1 mt)])).cadStart.drive (Reg.CAD_CTRL / 0x40000))) ∧
      exec (.cadStop n d w) s = .next (s.ends n d fun x =>
        ((x.store Reg.CAD_CTRL (pack [(1, x.field Reg.CAD_CTRL 1 1)])).modCad fun c => { c with waiting := false }).drive
          (Reg.CAD_CTRL / 0x40000))) ∧
    (∀ r : LaunchReg, (s.at_ n d).may w (launchReg r) = true →
      exec (.launchCfgWrite n d w r v) s = .next (s.ends n d fun x => (x.writeLaunch r v).drive (launchReg r / 0x40000))) ∧
    (∀ (i : Fin 8) (width : Bool), (s.at_ n d).may w (fsyncCfg i + (if width then 8 else 4)) = true →
      exec (.fsyncTimingWrite n d w i width v) s = .next (s.ends n d fun x =>
        (x.writeFsyncTiming i width v).drive ((fsyncCfg i + (if width then 8 else 4)) / 0x40000)))

/-! ## Rings and the host port -/

/-- The commands that FP-HOST completes itself (R653, R701, R702, R708, R719, R649, R870): each completes with its effect or
with its cause. -/
def Obligations.HostCommandsComplete : Prop :=
  ∀ (s : State) (n : Now) (d : Ch) (r : CmdRef) (c : Cmd), (s.at_ n d).live = true →
    ((s.at_ n d).Takes r 0x00 c → exec (.nop n d r) s = .next (s.ends n d fun x => x.complete r.fn c 0)) ∧
    ((s.at_ n d).Takes r 0x0B c → exec (.logMask n d r) s = .next (s.ends n d fun x =>
      (x.hwr64 (x.rm Reg.RM_LOG_MASK) (c.w64 2)).complete r.fn c 0)) ∧
    ((s.at_ n d).Takes r 0x09 c →
      (c.w64 2 = 0 ∨ 16 < c.w64 2 → exec (.instanceCfg n d r) s = .next (s.ends n d fun x => x.complete r.fn c 5 4)) ∧
      (c.w64 2 ≠ 0 → c.w64 2 ≤ 16 →
        ((s.at_ n d).readRcb (c.w64 2) (c.w64 4) = none →
          exec (.instanceCfg n d r) s = .next (s.ends n d fun x => x.complete r.fn c 5 6)) ∧
        (∀ b, (s.at_ n d).readRcb (c.w64 2) (c.w64 4) = some b →
          exec (.instanceCfg n d r) s = .next (s.ends n d fun x => (x.startRings (c.w64 2) b).complete r.fn c 0)))) ∧
    ((s.at_ n d).Takes r 0x0A c →
      (16 < c.w 2 → exec (.instanceReset n d r) s = .next (s.ends n d fun x => x.complete r.fn c 5 4)) ∧
      (c.w 2 ≤ 16 → exec (.instanceReset n d r) s = .next (s.ends n d fun x =>
        (x.complete r.fn c 0).beginReset (c.w 2) (x.squashMode (c.w 2))))) ∧
    ((s.at_ n d).Takes r 0x08 c →
      (c.w 2 = 0 ∨ 16 < c.w 2 → exec (.iovMap n d r) s = .next (s.ends n d fun x => x.complete r.fn c 5 4)) ∧
      (c.w 2 ≠ 0 → c.w 2 ≤ 16 →
        ((s.at_ n d).mapOk (c.w 2) (c.words.getD 3 0 &&& 0x3F#32) = false →
          exec (.iovMap n d r) s = .next (s.ends n d fun x =>
            (x.hraise Ev.HUB_IOV_CFG_ERR (x.fnIx (c.w 2)) 0).complete r.fn c 0)) ∧
        ((s.at_ n d).mapOk (c.w 2) (c.words.getD 3 0 &&& 0x3F#32) = true →
          exec (.iovMap n d r) s = .next (s.ends n d fun x =>
            (x.remap (c.w 2) (c.words.getD 3 0 &&& 0x3F#32)).complete r.fn c 0))))

/-- Commands that FP-HOST hands on (R697, R721, R722, R797, R810, R852, R853): a request to the Hatbox is made; an ABORT cuts
what it names, or says why not; a REPLAY is taken or refused with its cause. -/
def Obligations.HandedCommandsComplete : Prop :=
  ∀ (s : State) (n : Now) (d : Ch) (r : CmdRef) (c : Cmd), (s.at_ n d).live = true →
    ((s.at_ n d).Takes r 0x0C c →
      exec (.imageUpdate n d r) s = .next (s.ends n d fun x => x.postRequest r 7 (c.args 4))) ∧
    ((s.at_ n d).Takes r 0x0D c → exec (.attest n d r) s = .next (s.ends n d fun x => x.postRequest r 4 (c.args 10))) ∧
    ((s.at_ n d).Takes r 0x0E c → exec (.lifecycle n d r) s = .next (s.ends n d fun x => x.postRequest r 5 (c.args 5))) ∧
    ((s.at_ n d).Takes r 0x07 c →
      (∀ t, (s.at_ n d).accepted r.fn (c.w 3 % 4) (c.w 2) = some t →
        ((s.at_ n d).commitsToo r.fn t s.pending = true →
          exec (.abort n d r) s = .next (s.ends n d fun x => x.complete r.fn c 7)) ∧
        ((s.at_ n d).commitsToo r.fn t s.pending = false →
          (t.abortable = true → exec (.abort n d r) s = .next (s.ends n d fun x => (x.abortCmd r.fn t).complete r.fn c 0)) ∧
          (t.abortable = false → exec (.abort n d r) s = .next (s.ends n d fun x => x.complete r.fn c 0 2)))) ∧
      ((s.at_ n d).accepted r.fn (c.w 3 % 4) (c.w 2) = none →
        (((s.at_ n d).fn r.fn).done.contains (c.w 3 % 4, c.w 2) = true →
          exec (.abort n d r) s = .next (s.ends n d fun x => x.complete r.fn c 7)) ∧
        (((s.at_ n d).fn r.fn).done.contains (c.w 3 % 4, c.w 2) = false →
          ((s.at_ n d).waitsInRing r.fn (c.w 3 % 4) (c.w 2) = true →
            exec (.abort n d r) s = .next (s.ends n d fun x => (x.modFn r.fn fun g => { g with
              abortNext := g.abortNext ++ [(c.w 3 % 4, c.w 2)] }).complete r.fn c 0)) ∧
          ((s.at_ n d).waitsInRing r.fn (c.w 3 % 4) (c.w 2) = false →
            exec (.abort n d r) s = .next (s.ends n d fun x => x.complete r.fn c 0 1))))) ∧
    ((s.at_ n d).Takes r 0x0F c → ((s.at_ n d).me.recorder.replay.any fun p => p.ring == c.ring && p.id == c.id) = false →
      ((s.at_ n d).lc ≠ 1 → (s.at_ n d).lc ≠ 3 → exec (.replay n d r) s = .next (s.ends n d fun x => x.complete r.fn c 5 3)) ∧
      ((s.at_ n d).lc = 1 ∨ (s.at_ n d).lc = 3 → 1 ≤ c.replayReq.count → c.replayReq.count ≤ 65535 →
        (s.at_ n d).psq c.replayReq.stall = 2 → (s.at_ n d).served c.replayReq.stall = false →
        exec (.replay n d r) s = .next (s.ends n d fun x =>
          if x.replayRefusal c.replayReq = 0 then
            ((x.handOn r.fn c.ring c.id).modRec fun m => { m with replay := some c.replayReq }).setFlag Reg.REC_CTRL 1 true
          else x.complete r.fn c 0 (x.replayRefusal c.replayReq))))

/-- Register commands, doorbells and acceptance (R687, R688, R704 to R706, R709): a register command that arrives while none is
BUSY runs, or is held in RESTARTING; a doorbell is latched, dropped in a reset, or puts its ring in
error while FP-HOST runs; the next entry of a function's rings is accepted while the host link is up. -/
def Obligations.RingsComplete : Prop :=
  ∀ (s : State) (n : Now) (d : Ch),
    ((s.at_ n d).live = true → (s.at_ n d).hflag ((s.at_ n d).rm Reg.RM_CMD_STAT) 0 = false → (s.at_ n d).mode ≠ 0 →
      (s.at_ n d).mode ≠ 7 →
      (∀ len, exec (.loadImage n d len) s = .next (s.ends n d fun x =>
        ((x.hwr (x.rm Reg.RM_ARG) len).hwr (x.rm Reg.RM_CMD) 1).loadImage)) ∧
      (∀ off, exec (.enterRing n d off) s = .next (s.ends n d fun x =>
        ((x.hwr64 (x.rm Reg.RM_ARG) off).hwr (x.rm Reg.RM_CMD) 2).enterRing)) ∧
      exec (.query n d) s = .next (s.ends n d fun x => (x.hwr (x.rm Reg.RM_CMD) 3).query) ∧
      exec (.leaveRing n d) s = .next (s.ends n d fun x => (x.hwr (x.rm Reg.RM_CMD) 4).leaveRing)) ∧
    ((s.at_ n d).live = true → (s.at_ n d).hflag ((s.at_ n d).rm Reg.RM_CMD_STAT) 0 = true →
      exec (.query n d) s = .next (s.ends n d id) ∧ exec (.leaveRing n d) s = .next (s.ends n d id)) ∧
    ((s.at_ n d).live = true → (s.at_ n d).hflag ((s.at_ n d).rm Reg.RM_CMD_STAT) 0 = false → (s.at_ n d).mode = 7 →
      exec (.query n d) s = .next (s.ends n d fun x =>
        (x.hwr (x.rm Reg.RM_CMD) 3).hsetFlag (x.rm Reg.RM_CMD_STAT) 0 true)) ∧
    (∀ (fn : Fin 17) (k : Nat) (q : RingDesc), (s.at_ n d).live = true → (s.at_ n d).mode = 6 → (s.at_ n d).pairUp 0 = true →
      (s.at_ n d).linkUp = true → (s.at_ n d).iovState fn = 0 → (s.at_ n d).cqRoom fn = true → (s.at_ n d).nextRing fn = some k →
      ((s.at_ n d).fn fn).ring k = some q →
      (bit (word ((s.at_ n d).loftWord ((s.at_ n d).entryAt fn q (Tbl.get 0 ((s.at_ n d).fn fn).sqHead k) 64))) 8 = true →
        2 ≤ (s.at_ n d).ringFill fn k) →
      exec (.commandAccept n d fn) s = .next (s.ends n d fun x => x.acceptEntry fn k q)) ∧
    (∀ (fn : Fin 17) (k : Fin 7) (v : Word), (s.at_ n d).hostReach = true →
      let f := fun x : Side => x.hwr (x.iov Reg.SQ_TAIL fn + 4 * k.val) v
      ((s.at_ n d).iovState fn ≠ 0 → exec (.doorbellWrite n d fn k v) s = .next (s.ends n d fun x =>
        x.hcount Ct.IOV_DOORBELL_DROPPED (x.fnIx fn) fn)) ∧
      ((s.at_ n d).iovState fn = 0 →
        (((f (s.at_ n d)).fn fn).ring k = none → exec (.doorbellWrite n d fn k v) s = .next (s.ends n d f)) ∧
        ((f (s.at_ n d)).pairUp 0 = false → exec (.doorbellWrite n d fn k v) s = .next (s.ends n d f)) ∧
        (∀ q, ((f (s.at_ n d)).fn fn).ring k = some q →
          ((f (s.at_ n d)).ringFill fn k ≤ 2 ^ q.log2 → exec (.doorbellWrite n d fn k v) s = .next (s.ends n d f)) ∧
          ((f (s.at_ n d)).live = true → (f (s.at_ n d)).pairUp 0 = true → ((f (s.at_ n d)).fn fn).err.contains k.val = false →
            2 ^ q.log2 < (f (s.at_ n d)).ringFill fn k →
            exec (.doorbellWrite n d fn k v) s = .next (s.ends n d fun x => (f x).ringError fn k)))))

/-- Apertures, MSI-X and the shed area (R218, R434, R642 to R645, R650, R652, R664): an access inside the window passes bridle 18
(R447) and is made, but for the ladder state of the tensors of admitted plans, a read of what cannot be corrected giving poison; one outside the window or poisoned is an error; an unmasked vector of the function and Bus Master Enable send what waits; the shed area is set while no stall holds it. -/
def Obligations.HostAccessesComplete : Prop :=
  ∀ (s : State) (n : Now) (d : Ch) (fn : Fin 17) (off : Nat),
    ((s.at_ n d).hostReach = true →
      (∀ bytes : List Byte,
        (∀ ok, exec (.apertureWrite n d fn off bytes true ok) s = .next (s.ends n d fun x =>
          x.apertureError fn 2 true off Ct.IOV_POISONED)) ∧
        exec (.apertureWrite n d fn off bytes false false) s = .next (s.ends n d fun x =>
          x.apertureError fn 3 true off Ct.IOV_POISONED) ∧
        ((s.at_ n d).live = true → off + bytes.length ≤ (s.at_ n d).winSize fn →
          (s.at_ n d).sealed ((s.at_ n d).winBase fn + off) bytes.length = false →
          exec (.apertureWrite n d fn off bytes false true) s = .next (s.ends n d fun x =>
            let r : MemReq := ⟨true, x.winBase fn + off, bytes.length, some bytes⟩
            if x.brRate 18 = 0 then (x.passBridle 18 r).driverPut r.addr bytes
            else x.through 18 r fun y => y.driverPut r.addr bytes) ∧
          ((∀ st < 8, (s.at_ n d).psq st = 0) →
            (s.at_ n d).driverPut ((s.at_ n d).winBase fn + off) bytes = (s.at_ n d).loftWrite ((s.at_ n d).winBase fn + off) bytes)) ∧
        ((s.at_ n d).live = false ∨ (s.at_ n d).winSize fn < off + bytes.length ∨
            (s.at_ n d).sealed ((s.at_ n d).winBase fn + off) bytes.length = true →
          exec (.apertureWrite n d fn off bytes false true) s = .next (s.ends n d fun x =>
            x.apertureError fn 1 true off Ct.IOV_OUT_OF_WINDOW))) ∧
      (∀ len : Nat,
        ((s.at_ n d).live = false ∨ (s.at_ n d).winSize fn < off + len →
          exec (.apertureRead n d fn off len) s = .next (s.ends n d fun x =>
            (x.apertureError fn 1 false off Ct.IOV_OUT_OF_WINDOW).hemit (.unsupported (x.fnIx fn) off))) ∧
        ((s.at_ n d).live = true → off + len ≤ (s.at_ n d).winSize fn →
          exec (.apertureRead n d fn off len) s = .next (s.ends n d fun x =>
            let r := (x.passBridle 18 ⟨true, x.winBase fn + off, len, none⟩).loftMeet (x.winBase fn + off) len
            r.1.hemit (if r.2 then .poisonedRead (x.fnIx fn) off else .readData off (r.1.loftGet (x.winBase fn + off) len)))))) ∧
    (s.hub.down = false →
      (∀ v : Fin 64,
        (v.val < (if fn = 0 then 64 else 60) → exec (.msixUnmask n d fn (some v)) s = .next (s.ends n d fun x =>
          Side.sendPending { x with hub := { x.hub with unmasked := x.hub.unmasked.add (x.fnIx fn * 64 + v.val) } } fn)) ∧
        ((if fn = 0 then 64 else 60) ≤ v.val → exec (.msixUnmask n d fn (some v)) s = .next (s.ends n d id))) ∧
      exec (.msixUnmask n d fn none) s = .next (s.ends n d fun x =>
        Side.sendPending { x with hub := { x.hub with busMaster := x.hub.busMaster.add (x.fnIx fn) } } fn)) ∧
    (∀ (w : Init) (size hi : Bool) (v : Word),
      let r := (if size then Reg.SHED_SIZE else Reg.SHED_BASE).inst d.die + (if hi then 4 else 0)
      (s.at_ n d).hmay w r = true →
      ((s.at_ n d).shedHeld = false → exec (.shedCfgWrite n d w size hi v) s = .next (s.ends n d fun x => x.hstore r v)) ∧
      ((s.at_ n d).shedHeld = true → exec (.shedCfgWrite n d w size hi v) s = .next (s.ends n d fun x =>
        x.hraise Ev.HUB_SHED_CFG_ERR d.die 0)))

/-- Instance resets (R653 to R660): each trigger starts one; the drain that lasts 2 ms squashes, the one that empties cleans
up; FP-HOST ends it. -/
def Obligations.InstanceResetsComplete : Prop :=
  ∀ (s : State) (n : Now) (d : Ch) (fn : Fin 17),
    (s.hub.down = false →
      (fn ≠ 0 → exec (.flr n d fn) s = .next (s.ends n d fun x => x.beginReset fn (x.squashMode fn))) ∧
      exec (.flr n d 0) s = .next (s.ends n d fun x => (List.range 17).foldl (fun (y : Side) f => y.beginReset f (y.squashMode f))
        { x with hub := { x.hub with vfEnable := x.hub.vfEnable.del d.die } })) ∧
    (∀ (w : Init) (v : Word), (s.at_ n d).hmay w ((Reg.IOV_CTRL : Reg).inst (17 * d.die + fn)) = true →
      (bit v 1 = true → exec (.iovCtrlReset n d w fn v) s = .next (s.ends n d fun x =>
        (x.hstore (x.iov Reg.IOV_CTRL fn) v).beginReset fn (bit v 0))) ∧
      (bit v 1 = false → exec (.iovCtrlReset n d w fn v) s = .next (s.ends n d fun x =>
        x.hstore (x.iov Reg.IOV_CTRL fn) v))) ∧
    ((s.at_ n d).iovState fn = 1 → 2000000 ≤ (s.at_ n d).mt - ((s.at_ n d).fn fn).drainMt →
      exec (.instanceResetDrainTimeout n d fn) s = .next (s.ends n d fun x => x.squash fn)) ∧
    ((s.at_ n d).iovState fn = 1 → (s.at_ n d).drained fn = true →
      exec (.instanceResetDrained n d fn) s = .next (s.ends n d fun x => x.hsetField (x.iov Reg.IOV_STAT fn) 1 0 3)) ∧
    ((s.at_ n d).live = true → 2 ≤ (s.at_ n d).iovState fn → (s.at_ n d).pairUp 0 = true → s.hub.down = false →
      exec (.instanceResetDone n d fn) s = .next (s.ends n d fun x => x.finishReset fn))

/-- The peer (R673 to R680): a heartbeat is sent each period, taken in order, or missed; a mailbox message is sent by FP-HOST
or FP-SAFE, queued or discarded, and popped. -/
def Obligations.PeerTrafficComplete : Prop :=
  ∀ (s : State) (n : Now) (d : Ch), (s.at_ n d).live = true →
    ((s.at_ n d).hbPeriod ≤ (s.at_ n d).mt - (s.at_ n d).me.safe.hbMt →
      exec (.heartbeatSend n d) s = .next (s.ends n d fun x => (x.modSafe fun q => { q with hbMt := x.mt }).sendBeat)) ∧
    (∀ b t, (s.hub.lane d).beats = b :: t →
      exec (.heartbeatReceived n d) s = .next (((s.elapse n).lane d fun q => { q with beats := t }).beatIn d b)) ∧
    ((s.at_ n d).watchOver = true →
      let t := s.after n d fun x => x.modSafe fun q => { q with hbWatch := x.mt, hbGot := false }
      ((s.at_ n d).me.safe.hbGot = true → exec (.heartbeatPeriodMiss n d) s = .next t) ∧
      ((s.at_ n d).me.safe.hbGot = false → exec (.heartbeatPeriodMiss n d) s = .next (t.beatMissed d))) ∧
    ((s.at_ n d).watchOver = false → exec (.heartbeatPeriodMiss n d) s = .next (s.elapse n)) ∧
    (∀ (p : Fin 4) (v : Word), (p = 0 ∨ p = 2) → bit v 0 = true → s.hub.down = false → s.hub.linkLost = false →
      (s.at_ n d).hpermits (.pair p) (peerReg Reg.MB_SEND 4 d) = true →
      ((s.hub.lane d.peer).full = false → exec (.mailboxSend n d (.pair p) v) s = .next ((s.elapse n).lane d.peer fun q =>
        { q with flight := q.flight ++ [((List.range 16).map fun k => s.hreg (peerReg Reg.MB_TX 0x40 d + 4 * k),
          (s.at_ n d).stamp.valid)] })) ∧
      ((s.hub.lane d.peer).full = true →
        exec (.mailboxSend n d (.pair p) v) s = .next ((s.elapse n).hubCount Ct.PEER_MB_QUEUE_FULL 0))) ∧
    (∀ m valid t, (s.hub.lane d).flight = (m, valid) :: t →
      (malformed m = true ∨ (s.at_ n d).untimely m valid = true →
        exec (.mailboxReceive n d) s = .next ((((s.elapse n).lane d fun q => { q with flight := t }).hubCount
          Ct.PEER_MB_DISCARDED 0).raiseBoth Ev.HUB_PEER_MB_DISCARD)) ∧
      (malformed m = false → (s.at_ n d).untimely m valid = false →
        exec (.mailboxReceive n d) s = .next (((((s.elapse n).lane d fun q => { q with flight := t }).lane d fun q =>
          { q with queue := q.queue ++ [m] }).onSide d Side.showHead).hubCount Ct.PEER_MB_SENT 0))) ∧
    (∀ (w : Init) (v : Word), (s.at_ n d).hmay w (peerReg Reg.MB_POP 4 d) = true → bit v 0 = true →
      exec (.mailboxPop n d w v) s = .next (s.ends n d fun x =>
        Side.showHead { x with hub := x.hub.modLane d fun q => { q with queue := q.queue.drop 1 } }))

/-! ## Glove pairs and safe state -/

/-- Glove pairs (R723, R724, R743, R744, R748, R801): a crash, a watchdog, a lockup or a mismatch halts the pair that runs; its
self-test and its restart end; a debugger acts where debug is open. -/
def Obligations.GlovePairsComplete : Prop :=
  ∀ (s : State) (n : Now) (d : Ch) (p : Fin 4), (s.at_ n d).live = true →
    ((s.at_ n d).pairUp p = true →
      exec (.glovePairCrash n d p .exception) s = .next (s.ends n d fun x => x.crashPair p 1) ∧
      exec (.glovePairCrash n d p .parity) s = .next (s.ends n d fun x => x.crashPair p 5) ∧
      (((s.at_ n d).pair p).wdMt + 1000000 ≤ (s.at_ n d).mt →
        exec (.glvWatchdogExpiry n d p) s = .next (s.ends n d fun x => x.crashPair p 2)) ∧
      exec (.glvLockup n d p) s = .next (s.ends n d fun x => x.crashPair p 3) ∧
      ∀ port, exec (.glvMismatch n d p port) s = .next (s.ends n d (Side.pairMismatch p port))) ∧
    ((s.at_ n d).field (Reg.GLV_STAT.inst p) 1 0 = 2 → ∀ m c,
      exec (.glvSelftestDone n d p m c) s = .next (s.ends n d (Side.pairTested p m c))) ∧
    ((s.at_ n d).field (Reg.GLV_STAT.inst p) 1 0 = 3 → ((s.at_ n d).pair p).hbxHalt = false →
      (p = 0 → exec (.glovePairRestartDone n d p) s = .next (s.ends n d fun x => (x.pairReturns p).checkRings.rmResume)) ∧
      (p ≠ 0 → exec (.glovePairRestartDone n d p) s = .next (s.ends n d fun x => x.pairReturns p))) ∧
    ((s.at_ n d).debugOpen = true →
      exec (.debugAccess n d p .attach) s = .next (s.ends n d fun x => x.setFlag (Reg.GLV_STAT.inst p) 4 true) ∧
      exec (.debugAccess n d p .halt) s = .next (s.ends n d fun x => x.modPair p fun g => { g with dbgHalt := true }) ∧
      exec (.debugAccess n d p .resume) s = .next (s.ends n d fun x => x.modPair p fun g => { g with dbgHalt := false })) ∧
    ((s.at_ n d).debugOpen = false → ∀ a, a ≠ .hatbox →
      exec (.debugAccess n d p a) s = .next (s.ends n d fun x => x.count Ct.HBX_DEBUG_DENIED)) ∧
    ((s.at_ n d).field Reg.HBX_STAT 2 0 ≠ 0 →
      exec (.debugAccess n d p .hatbox) s = .next (s.ends n d fun x => x.count Ct.HBX_DEBUG_DENIED))

/-- The SAFE page (R730, R731, R736, R738, R740): READY ends INIT, ENTER fires its class, RELEASE is taken or refused, KICK
restarts the kick; a kick that fails and a SAFE that lasts react. -/
def Obligations.SafePageComplete : Prop :=
  ∀ (s : State) (n : Now) (d : Ch) (w : Init) (v : Word), (s.at_ n d).live = true →
    ((s.at_ n d).may w Reg.SAFE_READY = true → bit v 0 = true → (s.at_ n d).safeState = 0 →
      exec (.safeReady n d w v) s = .next (s.ends n d fun x =>
        ((x.setField Reg.SAFE_STAT 2 0 1).modSafe fun q => { q with faultLow := false }).drive (Reg.SAFE_READY / 0x40000))) ∧
    ((s.at_ n d).may w Reg.SAFE_ENTER = true →
      exec (.safeEnter n d w v) s = .next (s.ends n d fun x =>
        (x.fire { cls := if fld v 7 0 = 0 ∨ 0x0F < fld v 7 0 then 0x0F else fld v 7 0, block := 0, inst := 0, ev := 0, stream := 0 }).drive
          (Reg.SAFE_ENTER / 0x40000))) ∧
    ((s.at_ n d).may w Reg.SAFE_RELEASE = true → bit v 0 = true → (s.at_ n d).safeState = 2 →
      ((s.at_ n d).canRelease = true → exec (.safeRelease n d w v) s = .next (s.ends n d fun x =>
        (x.modSafe fun q => { q with release := true }).drive (Reg.SAFE_RELEASE / 0x40000))) ∧
      ((s.at_ n d).canRelease = false → exec (.safeRelease n d w v) s = .next (s.ends n d fun x =>
        (x.raise Ev.SAFE_CFG_ERR).drive (Reg.SAFE_RELEASE / 0x40000)))) ∧
    ((s.at_ n d).may w Reg.SAFE_KICK = true → bit v 0 = true →
      exec (.safeKick n d w v) s = .next (s.ends n d fun x =>
        ((x.modSafe fun q => { q with slotsNoKick := 0, kickMt := x.mt }).clearCauses 2 fun _ => true).drive
          (Reg.SAFE_KICK / 0x40000))) ∧
    ((s.at_ n d).kickRule = true → (s.at_ n d).kickLate = true →
      exec (.safeKickTimeout n d) s = .next (s.ends n d Side.kickMissed)) ∧
    ((s.at_ n d).safeState = 2 →
      clampN 1 1000 ((s.at_ n d).field Reg.SAFE_CFG 23 10) * 1000000 ≤ (s.at_ n d).mt - (s.at_ n d).me.safe.enterMt →
      exec (.safeReleaseMaxExpiry n d) s = .next (s.ends n d fun x => x.modSafe fun q => { q with resetDue := true }))

/-- Fault messages and online self-test (R756 to R770): the oldest message that waits for an exit leaves by it once the exit
takes it, as an Ethernet frame of class 7, as a classical CAN frame of the configured identifier, or as a mailbox message of TYPE
1, and waits while it does not; a slice starts when its unit's window has 40,338 ns left, and is skipped and counted when it has
not; it ends; a coverage period ends. -/
def Obligations.MessagesAndSelfTestComplete : Prop :=
  ∀ (s : State) (n : Now) (d : Ch), (s.at_ n d).live = true →
    (∀ (e : MsgExit) m l, takeMessage e (s.at_ n d).me.safe.msgs = some (m, l) →
      ((s.at_ n d).exitOpen e = true →
        exec (.faultMessageSend n d e) s = .next (s.ends n d fun x => (x.sendMessage e m).messageLeft m l)) ∧
      ((s.at_ n d).exitOpen e = false → exec (.faultMessageSend n d e) s = .next (s.ends n d id))) ∧
    (∀ m : FaultMsg,
      ((s.at_ n d).sendMessage .can m = (s.at_ n d).canEnqueue ((s.at_ n d).field Reg.SAFE_MSG_CFG 12 9)
        { fmt := .classical, ide := (s.at_ n d).flag Reg.SAFE_MSG_CFG 14, id := (s.at_ n d).field Reg.SAFE_CAN_ID 28 0, rtr := false,
          brs := false, data := canMsg d m }) ∧
      (((s.at_ n d).sendMessage .mailbox m).hub.lane d.peer).flight = (s.hub.lane d.peer).flight ++
        [(mailboxWords 1 (s.at_ n d).me.safe.msgSeq (s.at_ n d).vt m.words, (s.at_ n d).stamp.valid)] ∧
      ((s.at_ n d).sendMessage .eth m).me.out =
        .faultMsg ((s.at_ n d).field Reg.SAFE_MSG_CFG 7 0) m.words :: (s.at_ n d).me.out) ∧
    (∀ (u : TestUnit) (left : Nat),
      ((left < 40338 ∨ (s.at_ n d).sliceWindow u = none ∨ ∃ k < 40338, (s.at_ n d).sliceWindow u = some k) →
        exec (.selftestSliceStart n d u left) s = .next (s.ends n d fun x => x.count Ct.SAFE_SLICES_SKIPPED)) ∧
      (∀ k, 40338 ≤ left → 40338 ≤ k → (s.at_ n d).sliceWindow u = some k → (s.at_ n d).unitFenced u = false →
        ((s.at_ n d).me.safe.slices.any fun e => e.1 == u) = false →
        exec (.selftestSliceStart n d u left) s = .next (s.ends n d (Side.startSlice u)))) ∧
    (∀ (u : TestUnit) (pass : Bool), ((s.at_ n d).me.safe.slices.any fun e => e.1 == u) = true →
      exec (.selftestSliceEnd n d u pass) s = .next (s.ends n d (Side.endSlice u pass))) ∧
    ((s.at_ n d).periodOver = true → exec (.coveragePeriodEnd n d) s = .next (s.ends n d Side.endPeriod))

/-! ## Memory tiers and bridles -/

/-- SRAMs (R111, R295, R399 to R406, R425, R430 to R432, R437, R453, R456): an access of a tile buffer by its own engine writes its
bytes or is read with its parity; one of a bank comes through its master's bridle, which a RATE of 0 holds, and reaches no bank
that no stall holds; of the requests of one fabric cycle a bank serves first the one whose master comes next after the one served last; a
re-fetch, the end of the zeroing, a scrubbed line. -/
def Obligations.SramsComplete : Prop :=
  ∀ (s : State) (n : Now) (d : Ch), (s.at_ n d).live = true →
    (∀ (m : Fin 9) (e : Fin 8) (a len : Nat) (flips : List Nat),
      (m.val ≠ e.val ∨ (s.at_ n d).flag (Reg.TE_STAT.inst e) 7 = false → ∀ wr,
        exec (.yardAccess n d m (.tile e) a len wr flips) s = .next (s.ends n d fun x => x.upset (.tile e) flips)) ∧
      (m.val = e.val → (s.at_ n d).flag (Reg.TE_STAT.inst e) 7 = true →
        (∀ l, exec (.yardAccess n d m (.tile e) a len (some l) flips) s = .next (s.ends n d fun x =>
          (x.upset (.tile e) flips).physPut 0 e a (l.take len))) ∧
        exec (.yardAccess n d m (.tile e) a len none flips) s = .next (s.ends n d fun x =>
          ((x.upset (.tile e) flips).meet (x.field (Reg.TE_STAT.inst e) 6 4) e a len).1))) ∧
    (∀ (m : Fin 9) (a len : Nat) (wr : Option (List Byte)) (flips : List Nat),
      ((s.at_ n d).me.mem.yardEarly = [] → bankCycle d (a / bankBytes) s.pending = [] →
        exec (.yardAccess n d m .yard a len wr flips) s = .next (s.ends n d fun x => x.bankAccess ⟨m, a, len, wr, flips⟩)) ∧
      (n.on d = 0 → (s.at_ n d).me.mem.yardEarly.contains ⟨m, a, len, wr, flips⟩ = true →
        exec (.yardAccess n d m .yard a len wr flips) s = .next (s.ends n d fun x => x.modMem fun q => { q with
          yardEarly := q.yardEarly.erase ⟨m, a, len, wr, flips⟩ })) ∧
      ((s.at_ n d).me.mem.yardEarly = [] → ∀ r : YardReq, bankCycle d (a / bankBytes) s.pending = [r] →
        r.m.val ≠ m.val →
        exec (.yardAccess n d m .yard a len wr flips) s = .next (s.ends n d fun x =>
          let k := Tbl.get 8 x.me.mem.bankLast (a / bankBytes) % 9
          if (m.val + 17 - k) % 9 < (r.m.val + 17 - k) % 9 then x.bankAccess ⟨m, a, len, wr, flips⟩
          else ((x.bankAccess r).modMem fun q => { q with yardEarly := q.yardEarly ++ [r] }).bankAccess ⟨m, a, len, wr, flips⟩))) ∧
    (∀ (m : Fin 8) (q : YardReq), q.m.val = m.val → let b := (s.at_ n d).accrue m
      ((s.at_ n d).brYardRate m = 0 → q.flips = [] → ((s.at_ n d).bankAccess q).me.mem.yard = (s.at_ n d).me.mem.yard ∧
        (((s.at_ n d).bankAccess q).bridle m).held = ((s.at_ n d).bridle m).held ++ [⟨false, q.addr, q.len, q.write⟩]) ∧
      (∀ r : MemReq, b.bankOwner (r.addr / bankBytes) = none → b.yardServe m r = b)) ∧
    (∀ line ok, (s.at_ n d).me.mem.refetch.contains line = true →
      exec (.mirrorRefetchDone n d line ok) s = .next (s.ends n d (Side.refetched line ok))) ∧
    ((s.at_ n d).me.mem.zeroing ≠ [] → exec (.yardZeroDone n d) s = .next (s.ends n d fun x =>
      ((x.modMem fun m => { m with zeroing := [] }).setFlag Reg.YARD_STAT 1 false).raise Ev.YARD_ZERO_DONE)) ∧
    (∀ line flips, (s.at_ n d).flag Reg.YARD_CTRL 0 = true → line / 131072 < 32 →
      (s.at_ n d).me.mem.zeroing.contains (line / 131072) = false →
      exec (.yardPatrolScrub n d line flips) s = .next (s.ends n d (Side.yardScrub line flips)))

/-- The loft and its bridles (R302, R414 to R419, R426, R433 to R436, R441 to R445, R449, R451, R452, R460, R465): a request is
issued and completes, a burst is retried, a block is written back or scrubbed, units are wiped while no bridled master waits, the
band follows the warmest package. -/
def Obligations.LoftComplete : Prop :=
  ∀ (s : State) (n : Now) (d : Ch) (b : Fin 20), (s.at_ n d).live = true →
    (∀ req, exec (.bridleIssue n d b req) s = .next (s.ends n d (Side.bridleIssue b req))) ∧
    (∀ (e : LoftErr) r t rest,
      ((e.flips.foldl Side.flipDram (s.at_ n d)).bridle b).out = (r, t) :: rest →
      ((e.flips.foldl Side.flipDram (s.at_ n d)).bridle b).busy = true →
      exec (.loftRequestComplete n d b e) s = .next (s.ends n d fun x =>
        Side.loftDone b e.link r t rest (e.flips.foldl Side.flipDram x))) ∧
    (∀ block, exec (.loftBurstRetry n d block true) s = .next (s.ends n d fun x => x.count Ct.LOFT_LINK_RETRIES) ∧
      exec (.loftBurstRetry n d block false) s = .next (s.ends n d fun x =>
        (x.count Ct.LOFT_LINK_RETRIES).uncorrectable block false)) ∧
    (∀ block t, (s.at_ n d).me.mem.wb = block :: t → exec (.writebackIssue n d) s = .next (s.ends n d fun x =>
      if wrongWords x.me.mem.cells block = [] then (x.modMem fun m => { m with wb := t }).showWb
      else (x.modMem fun m => { m with
        wb := t, loftFixed := m.loftFixed.put block x.mt, cells := cellsLeft m.cells block block }).showWb)) ∧
    ((∀ k < 20, ((s.at_ n d).bridle k).out = []) → exec (.loftUnitWiped n d) s = .next (s.ends n d Side.unitWiped)) ∧
    (∀ k < 20, ((s.at_ n d).bridle k).out ≠ [] → exec (.loftUnitWiped n d) s = .next (s.ends n d id)) ∧
    (∀ u k t, (s.at_ n d).me.mem.gdmaZero = (u, k) :: t → (s.at_ n d).brRate 12 ≠ 0 →
      exec (.gdmaUnitZeroed n d) s = .next (s.ends n d (Side.gdmaZeroed u k t))) ∧
    (∀ (block : Nat) (e : LoftErr), (s.at_ n d).flag Reg.LOFT_CTRL 0 = true → (s.at_ n d).inline = true →
      exec (.loftPatrolScrub n d block e) s = .next (s.ends n d fun x =>
        Side.loftScrub block (e.link.contains block) (e.flips.foldl Side.flipDram x))) ∧
    (∀ (f : Mr4) (band : Fin 5), band ≠ 0 → f.p0 ≤ band → f.p1 ≤ band → f.p2 ≤ band → f.p3 ≤ band → band ∈ [f.p0, f.p1, f.p2, f.p3] →
      exec (.mr4Poll n d f) s = .next (s.ends n d (Side.bandPolled band))) ∧
    (∀ k : Fin 16, exec (.dqsTracking n d k) s = .next (s.ends n d id)) ∧
    exec (.bridleDerate n d) s = .next (s.ends n d fun x => x.accrueAll.updBridles) ∧
    (∀ (w : Init) (v : Word), (s.at_ n d).may w (Reg.BRDL_MAXLAT_CLR.inst b) = true → bit v 0 = true →
      exec (.brdlMaxlatClr n d w b v) s = .next (s.ends n d fun x =>
        ((x.wr (Reg.BRDL_MAXLAT.inst b) 0).modBridle b fun q => { q with missed := false }).drive
          (Reg.BRDL_MAXLAT_CLR.inst b / 0x40000)))

/-! ## Hatbox, recorder and pages -/

/-- Hatbox requests (R778 to R818): a pair rings its slot; each request it may make is worked on and answered; the Hatbox's
health, crash and restart show. -/
def Obligations.HatboxComplete : Prop :=
  ∀ (s : State) (n : Now) (d : Ch) (p : Fin 4), (s.at_ n d).live = true →
    (∀ v : Word, (s.at_ n d).domOn 22 = true → bit v p = true →
      exec (.hatboxDoorbell n d (.pair p) v) s = .next (s.ends n d fun x => x.ringSlot p)) ∧
    (∀ sig : SigCheck,
      ((s.at_ n d).Serves p 1 → exec (.verify n d p sig) s = .next (s.ends n d (Side.verify p sig))) ∧
      ((s.at_ n d).Serves p 5 → exec (.lifecycleRequest n d p sig) s = .next (s.ends n d (Side.changeLc p sig))) ∧
      ((s.at_ n d).Serves p 7 → exec (.flashWrite n d p sig) s = .next (s.ends n d (Side.flashWrite p sig))) ∧
      ((s.at_ n d).Serves p 8 → exec (.debugUnlock n d p sig) s = .next (s.ends n d (Side.unlockDebug p sig)))) ∧
    ((s.at_ n d).Serves p 2 → exec (.unseal n d p) s = .next (s.ends n d (Side.unsealFor p))) ∧
    ((s.at_ n d).Serves p 3 → ∀ ok, exec (.authCheck n d p ok) s = .next (s.ends n d (Side.checkAuth p ok))) ∧
    ((s.at_ n d).Serves p 4 → exec (.attestRequest n d p) s = .next (s.ends n d (Side.attest p))) ∧
    ((s.at_ n d).Serves p 6 → exec (.random n d p) s = .next (s.ends n d (Side.random p))) ∧
    (∀ rest, (s.at_ n d).me.hbx.waiting = p.val :: rest → (s.at_ n d).me.hbx.busy = true → (s.at_ n d).flag Reg.HBX_STAT 7 = false →
      (∀ st res data, (s.at_ n d).me.hbx.answer = some (st, res, data) →
        exec (.hatboxRequestDone n d) s = .next (s.ends n d fun x => x.respond p st res data)) ∧
      ((s.at_ n d).me.hbx.answer = none → requestOk ((s.at_ n d).arg p 0 % 256) p = false →
        exec (.hatboxRequestDone n d) s = .next (s.ends n d fun x => x.respond p 5 0 []))) ∧
    exec (.rngHealthFail n d) s = .next (s.ends n d fun x => (x.setFlag Reg.HBX_STAT 4 false).raise Ev.HBX_RNG_FAIL) ∧
    exec (.entropyStartupTestsPass n d) s = .next (s.ends n d Side.entropyReady) ∧
    ((s.at_ n d).flag Reg.HBX_STAT 7 = false → exec (.hatboxCrash n d) s = .next (s.ends n d Side.hatboxCrash)) ∧
    ((s.at_ n d).flag Reg.HBX_STAT 7 = true →
      ((s.at_ n d).me.hbx.busy = false → exec (.hatboxRestartDone n d) s = .next (s.ends n d fun x =>
        ((x.setFlag Reg.HBX_STAT 7 false).raise Ev.HBX_RESTART).startRequest)) ∧
      (∀ q rest, (s.at_ n d).me.hbx.busy = true → (s.at_ n d).me.hbx.waiting = q :: rest →
        exec (.hatboxRestartDone n d) s = .next (s.ends n d fun x =>
          ((x.setFlag Reg.HBX_STAT 7 false).raise Ev.HBX_RESTART).respond q 8 0 [])))

/-- The recorder (R844 to R850): it is enabled over a valid region, writes the oldest record
within 10 µs of its commit while its bridle passes it, drops it after that and counts it, records of delivered events
alone behind those that wait, and ends an export. -/
def Obligations.RecorderComplete : Prop :=
  ∀ (s : State) (n : Now) (d : Ch), (s.at_ n d).live = true →
    (∀ (w : Init) (v : Word), (s.at_ n d).may w Reg.REC_CTRL = true →
      (bit v 0 = true → (s.at_ n d).recRegionOk = false → exec (.recEnable n d w v) s = .next (s.ends n d fun x =>
        (x.raise Ev.REC_CFG_ERR).drive (Reg.REC_CTRL / 0x40000))) ∧
      ((bit v 0 = true → (s.at_ n d).recRegionOk = true) → exec (.recEnable n d w v) s = .next (s.ends n d fun x =>
        (Side.recCtrl v x).drive (Reg.REC_CTRL / 0x40000)))) ∧
    (∀ r t, (s.at_ n d).me.recorder.queue = r :: t →
      ((s.at_ n d).mt ≤ r.at_.mt + 10000 → (s.at_ n d).field (Reg.BRDL_LOFT_RATE.inst 12) 18 0 ≠ 0 →
        exec (.recordWrite n d) s = .next (s.ends n d (Side.writeRec r t))) ∧
      (r.at_.mt + 10000 < (s.at_ n d).mt → exec (.recordWrite n d) s = .next (s.ends n d id)) ∧
      (r.at_.mt + 10000 < (s.at_ n d).mt → exec (.recordDropTimeout n d) s = .next (s.ends n d (Side.dropRec r t))) ∧
      ((∃ l, (Side.dropRec r t (s.at_ n d)).me.recorder.queue = t ++ l ∧ ∀ q ∈ l, q.typ = 0x09) ∧
        (Side.dropRec r t (s.at_ n d)).me.recorder.dropped = (s.at_ n d).me.recorder.dropped + 1) ∧
      ((s.at_ n d).mt ≤ r.at_.mt + 10000 → exec (.recordDropTimeout n d) s = .next (s.ends n d id))) ∧
    (∀ len fin, (s.at_ n d).me.recorder.export_ = some (len, some fin) →
      (s.at_ n d).exportFits ((s.at_ n d).ringNewest len fin) = true →
      exec (.exportDone n d) s = .next (s.ends n d fun x => Side.exported (x.ringNewest len fin) x))

/-- The common head of a page (R828, R868, R875 to R879, R884): a permitted write of a head register of a page of the die has
its effect, and so has one of a page of the hub toward each channel that the page serves. -/
def Obligations.PageHeadsComplete : Prop :=
  ∀ (s : State) (n : Now) (d : Ch) (w : Init) (hub : Bool) (page t i : Nat) (v u : Word) (set : Bool),
    pageNamed hub page = some (t, i) →
    ∀ e ∈ ([(Instr.blkQuiesce n d w hub page set, Reg.BLK_CTRL, Side.ctrlQuiesce hub set),
        (.blkDisable n d w hub page v, Reg.BLK_CTRL, Side.writeBlkCtrl hub (v &&& ~~~1#32)),
        (.softReset n d w hub page, Reg.BLK_CTRL, Side.ctrlReset hub),
        (.evtRawClear n d w hub page v u, Reg.EVT_RAW, Side.writeEvtRaw hub v u),
        (.evtEnWrite n d w hub page v, Reg.EVT_EN, Side.writeEvtEn hub v),
        (.evtSet n d w hub page v, Reg.EVT_SET, Side.writeEvtSet hub v),
        (.cntOvfClear n d w hub page v u, Reg.CNT_OVF, Side.writeCntOvf hub v u),
        (.lock n d w hub page, Reg.LOCK, Side.writeLock hub 1)] : List (Instr × Reg × (Nat → Nat → Side → Side))),
      (hub = false → (s.at_ n d).live = true → (s.at_ n d).may w (headReg t i e.2.1) = true →
        exec e.1 s = .next (s.ends n d fun x => (e.2.2 t i x).drive (headReg t i e.2.1 / 0x40000))) ∧
      (hub = true → (s.at_ n d).hmay w (headReg t i e.2.1) = true →
        exec e.1 s = .next ((s.elapse n).onServed t i (e.2.2 t i)))

/-- Register accesses (R861 to R864, R871, R873). An aligned read of a place of a page that answers gives its value, and keeps
the high word of a 64-bit value whose low word it reads: the initiator's next read of the high word gives what it was then. A
permitted write of an aligned word stores the implemented bits of a plain register, of the die or of the hub, and leaves every
other register alone; a write of a place with a command of its own is that command, any other one the rest of the page's rules. A
write of a place that is not implemented, and one that is not aligned, do nothing. -/
def Obligations.RegisterAccessesComplete : Prop :=
  ∀ (s : State) (n : Now) (d : Ch) (w : Init) (off : Nat) (v : Word),
    (off % 4 = 0 → (s.at_ n d).live = true → w.wide = true → (s.at_ n d).pageOn off = true →
      off % 0x40000 / 0x1000 < pagesOnDie (off / 0x40000) → isSlot off = false → ¬(Reg.CBB_SEM ≤ off ∧ off < Reg.CBB_SEM + 16) →
      (isLow off = false → (4 ≤ off % 0x1000 → isLow (off - 4) = false) →
        exec (.lowWordRead n d w .die off) s = .next (s.ends n d fun x => x.emit (.readData off (wordBytes (x.regRead off))))) ∧
      (isLow off = true → off % 0x1000 < 0xFF8 → isLow (off + 4) = false → isSlot (off + 4) = false → (s.at_ n d).me.fired = [] →
        ∃ t, exec (.lowWordRead n d w .die off) s = .next t ∧
          (t.side d).me.out = .readData off (wordBytes ((s.at_ n d).regRead off)) :: (s.at_ n d).me.out ∧
          ∀ m : Now, ∃ u, exec (.lowWordRead m d w .die (off + 4)) t = .next u ∧
            (u.side d).me.out = .readData (off + 4) (wordBytes ((s.at_ n d).regRead (off + 4))) :: (t.side d).me.out)) ∧
    (off % 4 = 0 → (s.at_ n d).reachesHub w = true →
      (w.wide = true → exec (.lowWordRead n d w .die off) s = .next (s.ends n d fun x => x.readDie w off)) ∧
      (w.wide = true ∨ vfPage w off = true →
        exec (.lowWordRead n d w .hub off) s = .next (s.ends n d fun x => x.readHub w off)) ∧
      (w = .pf d → s.hub.down = false → exec (.lowWordRead n d w .rm off) s = .next (s.ends n d fun x => x.readRm w off))) ∧
    (off % 4 = 0 → off % 0x40000 / 0x1000 < pagesOnDie (off / 0x40000) → (accOf off = some .rw ∨ accOf off = some .rwl) →
      0x40 ≤ off % 0x1000 → [T.SNS, T.TE, T.PSQ, T.PDMA, T.GLV, T.CLK, T.EVA].contains (off / 0x40000) = true →
      (s.at_ n d).live = true → (s.at_ n d).may w off = true →
      (off / 0x40000 = T.PDMA → off % 0x1000 = 0x44 → exec (.registerWrite n d w .die off v) s = .next (s.ends n d fun x =>
        (x.store off (setFld v 6 0 (max 1 (min 64 (fld v 6 0))))).drive (off / 0x40000))) ∧
      (¬(off / 0x40000 = T.PDMA ∧ off % 0x1000 = 0x44) →
        exec (.registerWrite n d w .die off v) s = .next (s.ends n d fun x => (x.store off v).drive (off / 0x40000))) ∧
      ((s.at_ n d).store off v).rd off = ((s.at_ n d).rd off &&& ~~~(maskAt off)) ||| (v &&& maskAt off) ∧
      ∀ a, a ≠ off → ((s.at_ n d).store off v).rd a = (s.at_ n d).rd a) ∧
    (off % 4 = 0 → off % 0x40000 / 0x1000 < pagesOnHub (off / 0x40000) → (accOf off = some .rw ∨ accOf off = some .rwl) →
      0x40 ≤ off % 0x1000 → off / 0x40000 = T.HUB_PCI → (s.at_ n d).hmay w off = true →
      exec (.registerWrite n d w .hub off v) s = .next (s.ends n d fun x => x.hstore off v)) ∧
    (off % 4 = 0 → off % 0x40000 / 0x1000 < pagesOnDie (off / 0x40000) → (rowAt off).isSome = true →
      (off % 0x1000 = Reg.EVT_RAW → exec (.registerWrite n d w .die off v) s = exec (.evtRawClear n d w false (off / 0x1000) v 0) s) ∧
      (off % 0x1000 = Reg.EVT_EN → exec (.registerWrite n d w .die off v) s = exec (.evtEnWrite n d w false (off / 0x1000) v) s) ∧
      (off % 0x1000 = Reg.EVT_SET → exec (.registerWrite n d w .die off v) s = exec (.evtSet n d w false (off / 0x1000) v) s) ∧
      (off % 0x1000 = Reg.CNT_OVF → exec (.registerWrite n d w .die off v) s = exec (.cntOvfClear n d w false (off / 0x1000) v 0) s) ∧
      (∀ f, headWrite n d w false (off / 0x1000) (off % 0x1000) v = some f →
        exec (.registerWrite n d w .die off v) s = f s) ∧
      (headWrite n d w false (off / 0x1000) (off % 0x1000) v = none →
        (timeWrite n d w (off / 0x40000) (off % 0x1000) v).isNone = true →
        (portWrite n d w (off / 0x40000) (off % 0x40000 / 0x1000) (off % 0x1000) v).isNone = true →
        (safeWrite n d w (off / 0x40000) (off % 0x1000) v).isNone = true → (s.at_ n d).live = true →
        exec (.registerWrite n d w .die off v) s = .next (s.ends n d fun x => x.writeOther w off v))) ∧
    (w = .pf d → s.hub.down = false → off % 4 = 0 →
      exec (.registerWrite n d w .rm off v) s = .next (s.ends n d fun x => x.writeRm off v)) ∧
    (∀ sp, off % 4 ≠ 0 → exec (.registerWrite n d w sp off v) s = .next (s.elapse n)) ∧
    ((rowAt off).isSome = false → isSlot off = false → exec (.registerWrite n d w .die off v) s = .next (s.elapse n))

/-! ## The machine as a whole -/

/-- A step runs the command at the front of the queue on the state with the queue's rest; on an empty queue the block idles
(the model's choice: note 2). -/
def Obligations.StepRunsTheFront : Prop :=
  ∀ (s : State) (c : Instr) (q : List Instr),
    step (s.withPending (c :: q)) = exec c (s.withPending q) ∧ step (s.withPending []) = .next (s.withPending [])

/-- No command stops the machine: from every state, every command of the table answers a next state, and the queue is as it
was. -/
def Obligations.EveryCommandCompletes : Prop :=
  ∀ (c : Instr) (s : State), ∃ t, exec c s = .next t ∧ t.pending = s.pending

/-- The commands that wait are run first in, first out: after as many steps as there are commands in front of others, exactly
the others wait, in their order; a queue of n commands is empty after n steps. -/
def Obligations.QueueRunsInOrder : Prop :=
  ∀ (l m : List Instr) (s : State), ∃ t, Sys2Proof.core.run l.length (s.withPending (l ++ m)) = .next t ∧ t.pending = m

/-- After every step no safe-state trigger waits: each one that fired has been entered, without firmware (R731). -/
def Obligations.StepsEnterEveryTrigger : Prop :=
  ∀ s t : State, s.NoTriggerWaits → step s = .next t → t.NoTriggerWaits

/-- The state after reset: no trigger and no command waits; on each die MT is 0 and VT is UNSET (R36, R54), the safety state
is INIT with FAULT_x_N driven low (R729), the domains 18 to 23 alone are on (R820), a page of a domain that is on reads its
BLK_ID, its BLK_VER and BLK_CTRL 1 and no event (R865, R867), a page of any other reads zero (R864); both register pages are
in MODE ROM (R685). -/
def Obligations.ResetState : Prop :=
  State.reset.NoTriggerWaits ∧ State.reset.pending = [] ∧
    ∀ d : Ch, (State.reset.side d).mt = 0 ∧ (State.reset.side d).vtState = 0 ∧ (State.reset.side d).safeState = 0 ∧
      (State.reset.side d).me.safe.faultLow = true ∧ (State.reset.side d).mode = 1 ∧
      (∀ dom < 24, (State.reset.side d).domOn dom = decide (18 ≤ dom)) ∧
      ∀ t < 0x1B, ∀ i < pagesOnDie t, ∀ e ∈ [(Reg.BLK_ID, word (0x10000 * t + 0x100 * i + d.die)), (Reg.BLK_VER, 0x0B010001#32),
          (Reg.BLK_CTRL, 1#32), (Reg.EVT_RAW, 0#32)],
        (State.reset.side d).regRead (headReg t i e.1) = if 18 ≤ pageDomain t i then e.2 else 0

/-- Channel isolation (R14, R15): a command of one channel's die changes nothing of the peer die, whose clocks alone have
run on. -/
def Obligations.ChannelsAreIsolated : Prop :=
  ∀ (c : Instr) (n : Now) (d : Ch) (s t : State), dieOf c = some (n, d) → exec c s = .next t →
    t.chan d.peer = (s.elapse n).chan d.peer

/-- Places without a page that answers (R861, R864): where no page lies, while a die is unpowered or in reset, and while the
page's domain is switched off, a read gives zero and a write changes nothing; the same in the hub's region, whose PWR and EVA
pages always answer. -/
def Obligations.AbsentPagesReadZero : Prop :=
  ∀ (s : State) (n : Now) (d : Ch) (w : Init) (off : Nat) (v : Word), off % 4 = 0 → (s.at_ n d).me.fired = [] →
    ((s.chan d).rst.phase ≠ .run ∨ (s.at_ n d).domOn (pageDomain (off / 0x40000) (off % 0x40000 / 0x1000)) = false ∨
        pagesOnDie (off / 0x40000) ≤ off % 0x40000 / 0x1000 →
      ((s.at_ n d).reachesHub w = true → w.wide = true → exec (.lowWordRead n d w .die off) s = .next (s.after n d fun x =>
        x.emit (.readData off (wordBytes 0)))) ∧
      exec (.registerWrite n d w .die off v) s = .next (s.elapse n)) ∧
    (s.hub.down = true ∧ off / 0x40000 ≠ T.PWR ∧ off / 0x40000 ≠ T.EVA ∨ pagesOnHub (off / 0x40000) ≤ off % 0x40000 / 0x1000 →
      ((s.at_ n d).reachesHub w = true → w.wide = true → exec (.lowWordRead n d w .hub off) s = .next (s.after n d fun x =>
        x.hemit (.readData off (wordBytes 0)))) ∧
      exec (.registerWrite n d w .hub off v) s = .next (s.elapse n))

/-- The time bases (R35): on a die whose AON domain runs, MT adds exactly 1 ns a cycle, and VT its increment of 32 integer
and 32 fractional bits of a nanosecond; on every other die no base moves; and the cycles before two commands add up. -/
def Obligations.TimeBasesAdvance : Prop :=
  ∀ (s : State) (m n : Now) (d : Ch),
    ((s.chan d).ticking = true →
      (s.at_ n d).mt = ((s.chan d).time.mt + n.on d) % 2 ^ 64 ∧
      (s.at_ n d).me.time.vt.ns * 2 ^ 32 + (s.at_ n d).me.time.vt.frac
        = ((s.chan d).time.vt.ns * 2 ^ 32 + (s.chan d).time.vt.frac + n.on d * (s.chan d).time.vt.inc) % 2 ^ 96 ∧
      ((s.elapse m).at_ n d).me.time = (s.at_ ⟨m.a + n.a, m.b + n.b⟩ d).me.time) ∧
    ((s.chan d).ticking = false → (s.at_ n d).me = s.chan d)

/-- Saturating counters (R883): an increment that finds a counter of a page below its maximum, 0xFFFF_FFFF or 0xFFFF,
counts and changes no other register; one that finds it at its maximum leaves it, sets its CNT_OVF bit and raises the page's
CNT_SAT event. So on the pages of the die and of the hub; a counter of a register page of Rhordo has its bit in RM_CNT_OVF,
and FP-HOST's GLV page raises the event (R728). -/
def Obligations.CountersSaturate : Prop :=
  ∀ (x : Side) (c : Ct) (i : Nat), c.n < 32 → c.max = 0xFFFFFFFF ∨ c.max = 0xFFFF →
    (c.t = T.EVA ∨ c.t = 0x30 → c.max = 0xFFFFFFFF) → i < 64 →
    (x.rdN (c.reg.inst i) < c.max → (x.count c i).rdN (c.reg.inst i) = x.rdN (c.reg.inst i) + 1 ∧
      ∀ a, a ≠ c.reg.inst i → (x.count c i).rd a = x.rd a) ∧
    (c.max ≤ x.rdN (c.reg.inst i) →
      x.count c i = (x.wr (headReg c.t i Reg.CNT_OVF) (setBit (x.rd (headReg c.t i Reg.CNT_OVF)) c.n true)).raise
        ⟨c.t, cntSatBit c.t⟩ i ∧
      bit ((x.count c i).rd (headReg c.t i Reg.CNT_OVF)) c.n = true ∧
      bit ((x.count c i).rd (headReg c.t i Reg.EVT_RAW)) (cntSatBit c.t) = true ∧
      (x.count c i).rd (c.reg.inst i) = x.rd (c.reg.inst i)) ∧
    (∀ fn : Nat,
      (x.hrdN (c.reg.inst i) < c.max → (x.hcount c i fn).hrdN (c.reg.inst i) = x.hrdN (c.reg.inst i) + 1 ∧
        ∀ a, a ≠ c.reg.inst i → (x.hcount c i fn).hrd a = x.hrd a) ∧
      (c.max ≤ x.hrdN (c.reg.inst i) →
        x.hcount c i fn = (x.hwr (headReg c.t i Reg.CNT_OVF) (setBit (x.hrd (headReg c.t i Reg.CNT_OVF)) c.n true)).hraise
          ⟨c.t, cntSatBit c.t⟩ i fn ∧
        bit ((x.hcount c i fn).hrd (headReg c.t i Reg.CNT_OVF)) c.n = true ∧
        bit ((x.hcount c i fn).hrd (headReg c.t i Reg.EVT_RAW)) (cntSatBit c.t) = true ∧
        (x.hcount c i fn).hrd (c.reg.inst i) = x.hrd (c.reg.inst i))) ∧
    (c.t = 0x30 → ∀ k, c.n + k < 32 →
      (x.hrdN (x.rm (c.reg + 4 * k)) < c.max → (x.countRm c k).hrdN (x.rm (c.reg + 4 * k)) = x.hrdN (x.rm (c.reg + 4 * k)) + 1 ∧
        ∀ a, a ≠ x.rm (c.reg + 4 * k) → (x.countRm c k).hrd a = x.hrd a) ∧
      (c.max ≤ x.hrdN (x.rm (c.reg + 4 * k)) →
        bit ((x.countRm c k).hrd (x.rm Reg.RM_CNT_OVF)) (c.n + k) = true ∧
        bit ((x.countRm c k).rd (headReg Ev.GLV_CNT_SAT.t 0 Reg.EVT_RAW)) Ev.GLV_CNT_SAT.bit = true ∧
        (x.countRm c k).hrd (x.rm (c.reg + 4 * k)) = x.hrd (x.rm (c.reg + 4 * k))))

/-- A raise and a clear in the same cycle (R878), on a page of the die and of the hub: a clear of an EVT_RAW bit that meets a
raise is a clear and then a raise, so the bit stays set, and where it is enabled the event is delivered again to each
destination routed, host, firmware and FP-SAFE, which that destination's counter of deliveries counts. -/
def Obligations.RaiseWinsOverClear : Prop :=
  ∀ (x : Side) (hub : Bool) (t i b : Nat), b < eventCount t → eventCount t ≤ 32 → i < 64 →
    let y := x.writeEvtRaw hub (word (2 ^ b)) (word (2 ^ b)) t i
    y = (x.pwr hub (headReg t i Reg.EVT_RAW) (x.prd hub (headReg t i Reg.EVT_RAW) &&& ~~~(word (2 ^ b)))).praise hub t i b ∧
    bit (y.prd hub (headReg t i Reg.EVT_RAW)) b = true ∧
    ((hub = true → x.live = true) → bit (x.prd hub (headReg t i Reg.EVT_EN)) b = true →
      ∀ r ∈ [(6, Ct.EVA_DELIVERED_HOST), (7, Ct.EVA_DELIVERED_FW), (8, Ct.EVA_DELIVERED_SAFE)],
        bit (x.prd hub (headReg t i Reg.EVT_ROUTE)) r.1 = true → (x.prd hub (r.2.reg.inst 0)).toNat < 0xFFFFFFFF →
        (x.prd hub (r.2.reg.inst 0)).toNat < (y.prd hub (r.2.reg.inst 0)).toNat)

/-- CNT_OVF (R884): each bit written 1 is cleared and its counter becomes zero, or 1 when an increment falls in the same
cycle; the counters of the other bits, and every other register, are as they were. -/
def Obligations.OverflowClears : Prop :=
  ∀ (x : Side) (hub : Bool) (t i : Nat) (v u : Word), i < 64 →
    let y := x.writeCntOvf hub v u t i
    y.prd hub (headReg t i Reg.CNT_OVF) = x.prd hub (headReg t i Reg.CNT_OVF) &&& ~~~v ∧
    (∀ b < 32, bit v b = true → (rowAt (headReg t i (0xF00 + 4 * b))).isSome = true →
      y.prd hub (headReg t i (0xF00 + 4 * b)) = word (nat1 (bit u b))) ∧
    (∀ a, a ≠ headReg t i Reg.CNT_OVF → (∀ b < 32, bit v b = true → a ≠ headReg t i (0xF00 + 4 * b)) →
      y.prd hub a = x.prd hub a)

/-- Refused writes (R871, R873, R640): a write of a register of the die that WORLD or LOCK refuses is ignored; it is counted
for a physical function in OUT_OF_WINDOW, for another initiator in OWNER_DENIED with EVT_EVA_OWNER_DENIED. OWNER (R870), the
mailbox slots and doorbell, the loft's boot settings and the bridge's semaphores have rules of their own. -/
def Obligations.RefusedWritesCount : Prop :=
  (∀ (s : State) (n : Now) (d : Ch) (w : Init) (off : Nat) (v : Word), off % 4 = 0 →
    off % 0x40000 / 0x1000 < pagesOnDie (off / 0x40000) → (rowAt off).isSome = true → off % 0x1000 ≠ Reg.OWNER → isSlot off = false →
    off ≠ Reg.HBX_MB_DOOR → off ≠ Reg.LOFT_CFG → ¬(Reg.LOFT_SEAL ≤ off ∧ off < Reg.LOFT_SEAL + 32) → off / 0x40000 ≠ T.CBB →
    (s.at_ n d).pageOn off = true → (s.at_ n d).may w off = false →
    exec (.registerWrite n d w .die off v) s = .next (s.ends n d fun x => x.denied w)) ∧
  ∀ (x : Side) (w : Init),
    (∀ a, a % 0x1000 ≠ 0x10 → a % 0x1000 ≠ 0x24 → a % 0x1000 < 0xF00 → a % 0x1000 ≠ 0xF0 →
      (x.denied w).rd a = x.rd a ∧ (x.denied w).hrd a = x.hrd a) ∧
    (∀ c : Ch, w = .pf c → (x.denied w).hrdN (Ct.IOV_OUT_OF_WINDOW.reg.inst (17 * c.die))
        = min 0xFFFFFFFF (x.hrdN (Ct.IOV_OUT_OF_WINDOW.reg.inst (17 * c.die)) + 1) ∧
      (x.hrdN (Ct.IOV_OUT_OF_WINDOW.reg.inst (17 * c.die)) = 0xFFFFFFFF →
        bit ((x.denied w).hrd (headReg T.HUB_IOV (17 * c.die) Reg.CNT_OVF)) Ct.IOV_OUT_OF_WINDOW.n = true ∧
        bit ((x.denied w).hrd (headReg T.HUB_IOV (17 * c.die) Reg.EVT_RAW)) (cntSatBit T.HUB_IOV) = true)) ∧
    ((∀ c : Ch, w ≠ .pf c) → bit ((x.denied w).rd (headReg T.EVA 0 Reg.EVT_RAW)) Ev.EVA_OWNER_DENIED.bit = true ∧
      (x.denied w).rdN (Ct.EVA_OWNER_DENIED.reg.inst 0) = min 0xFFFFFFFF (x.rdN (Ct.EVA_OWNER_DENIED.reg.inst 0) + 1))

/-- Safe state (R729, R731, R741, R746, R876): a trigger that fires in INIT or NORMAL enters SAFE with its class and the VT
of the entry, and drives FAULT_x_N low; in SAFE it adds its class to the causes in force; in FENCED it changes nothing. -/
def Obligations.TriggersEnterSafe : Prop :=
  ∀ (x : Side) (t : Trigger) (l : List Trigger), x.me.fired = t :: l → t.cls < 256 →
    (x.safeState < 2 → x.settle.safeState = 2 ∧ x.settle.field Reg.SAFE_STAT 10 3 = t.cls ∧
      x.settle.rd64 Reg.SAFE_ENTER_VT = x.vt % 2 ^ 64 ∧ x.settle.me.safe.faultLow = true ∧ x.settle.me.fired = []) ∧
    (x.safeState = 2 → x.settle.safeState = 2 ∧ x.settle.field Reg.SAFE_STAT 10 3 = x.field Reg.SAFE_STAT 10 3 ∧
      x.settle.me.safe.causes = x.me.safe.causes ++ (t :: l).map fun e => (e, false)) ∧
    (x.safeState = 3 → x.settle = { x with me := { x.me with fired := [] } })

/-- Memories (R401, R402, R427, R436): an SRAM whose lines without valid bit hold nothing reads back the bytes written, sets the
parity of exactly those, and keeps every other byte, a line's first write giving zero to the rest of it; the loft reads back
what was written, keeps every other byte, a block that is written in part and cannot be corrected too, and keeps its canonical
form; a write to a unit that is still pending waits, with its unit at the front of the wipe order. -/
def Obligations.MemoriesReadBack : Prop :=
  (∀ (r : Sram) (a k : Nat) (l : List Byte), r.cells.wf = true →
    (∀ j, r.valid.contains (j / 64) = false → r.cells.get j = 0) →
    (r.put a l).byte k = (if a ≤ k ∧ k < a + l.length then l.getD (k - a) 0 else r.byte k) ∧
    ((r.put a l).bad.contains k = (r.bad.contains k && !(decide (a ≤ k) && decide (k < a + l.length)))) ∧
    (∀ j, (r.put a l).valid.contains (j / 64) = false → (r.put a l).cells.get j = 0)) ∧
  ∀ (x : Side) (a k : Nat) (l : List Byte), x.me.mem.loft.wf = true →
    ((∀ u ∈ unitsAt a l.length, wipePending x.me.mem.wipe u = false) → (∀ b ∈ partBlocks a l.length, blockLost x.me.mem b = false) →
      (x.loftPut a l).loftGet a l.length = l) ∧
    ((∃ b ∈ partBlocks a l.length, 64 * b ≤ k ∧ k < 64 * b + 64 ∧ blockLost x.me.mem b = true) →
      (x.loftPut a l).loftGet k 1 = x.loftGet k 1) ∧
    ((∃ u ∈ unitsAt a l.length, wipePending x.me.mem.wipe u = true) →
      (x.loftPut a l).me.mem.loft = x.me.mem.loft ∧ (x.loftPut a l).me.mem.waiting = x.me.mem.waiting ++ [(a, l)] ∧
      ∃ u ∈ unitsAt a l.length, ∃ t, (x.loftPut a l).me.mem.wipe = (u, 1) :: t) ∧
    (k < a ∨ a + l.length ≤ k → (x.loftPut a l).loftGet k 1 = x.loftGet k 1) ∧
    (x.loftPut a l).me.mem.loft.wf = true
end

