-- ==== Sys2Proof/Laws/Tables.lean ====
section
/-!
SUPPORT. Laws of tables and of byte memory: what a write leaves to read, and that a memory keeps its canonical form.
-/

namespace Sys2Proof.Machine

/-- A table reads back what was written. -/
@[simp] theorem Tbl.get_put_same {α : Type} (d : α) (t : Tbl α) (k : Nat) (v : α) : Tbl.get d (t.put k v) k = v := by
  induction t with
  | nil => simp [Tbl.put, Tbl.get]
  | cons e t ih =>
    obtain ⟨j, w⟩ := e
    simp only [Tbl.put]
    split
    · simp [Tbl.get]
    · split
      · simp [Tbl.get]
      · simp [Tbl.get, *]

/-- A write leaves every other key alone. -/
theorem Tbl.get_put_ne {α : Type} (d : α) (t : Tbl α) {k j : Nat} (v : α) (h : j ≠ k) :
    Tbl.get d (t.put k v) j = Tbl.get d t j := by
  induction t with
  | nil => simp [Tbl.put, Tbl.get, h.symm]
  | cons e t ih =>
    obtain ⟨i, w⟩ := e
    simp only [Tbl.put]
    split
    · subst_vars; simp [Tbl.get, h.symm]
    · split
      · simp [Tbl.get, h.symm]
      · simp [Tbl.get, ih]

/-- A read after a write, in one equation. -/
theorem Tbl.get_put {α : Type} (d : α) (t : Tbl α) (k j : Nat) (v : α) :
    Tbl.get d (t.put k v) j = if j = k then v else Tbl.get d t j := by
  split
  · subst_vars; simp
  · exact Tbl.get_put_ne d t v ‹_›

/-- The canonical form above a bound holds above every lower bound. -/
theorem Mem.wfFrom_mono {b c : Nat} (m : Mem) (h : b ≤ c) (hm : Mem.wfFrom c m = true) : Mem.wfFrom b m = true := by
  cases m with
  | nil => rfl
  | cons e t =>
    obtain ⟨a, v⟩ := e
    simp only [Mem.wfFrom, Bool.and_eq_true, decide_eq_true_eq] at hm ⊢
    exact ⟨⟨by omega, hm.1.2⟩, hm.2⟩

/-- A byte write keeps the canonical form. -/
theorem Mem.wfFrom_put {b : Nat} (m : Mem) (k : Nat) (v : Byte) (hb : b ≤ k) (hm : Mem.wfFrom b m = true) :
    Mem.wfFrom b (m.put k v) = true := by
  induction m generalizing b with
  | nil =>
    simp only [Mem.put]
    split
    · rfl
    · simpa [Mem.wfFrom, hb] using ‹¬v = 0›
  | cons e t ih =>
    obtain ⟨a, w⟩ := e
    simp only [Mem.wfFrom, Bool.and_eq_true, decide_eq_true_eq] at hm
    obtain ⟨⟨h1, h2⟩, h3⟩ := hm
    simp only [Mem.put]
    split
    · by_cases hv : v = 0
      · simp only [hv, if_true, Mem.wfFrom, Bool.and_eq_true, decide_eq_true_eq]; exact ⟨⟨h1, h2⟩, h3⟩
      · simp only [hv, if_false, Mem.wfFrom, Bool.and_eq_true, decide_eq_true_eq]
        exact ⟨⟨hb, hv⟩, ⟨by omega, h2⟩, h3⟩
    · split
      · subst_vars
        by_cases hv : v = 0
        · simp only [hv, if_true]; exact Mem.wfFrom_mono t (by omega) h3
        · simp only [hv, if_false, Mem.wfFrom, Bool.and_eq_true, decide_eq_true_eq]; exact ⟨⟨hb, hv⟩, h3⟩
      · simp only [Mem.wfFrom, Bool.and_eq_true, decide_eq_true_eq]
        exact ⟨⟨h1, h2⟩, ih (by omega) h3⟩

/-- A byte write keeps a memory well formed. -/
theorem Mem.wf_put (m : Mem) (k : Nat) (v : Byte) (hm : m.wf = true) : (m.put k v).wf = true :=
  Mem.wfFrom_put m k v (Nat.zero_le k) hm

/-- Writing bytes keeps a memory well formed. -/
theorem Mem.wf_write (m : Mem) (a : Nat) (l : List Byte) (hm : m.wf = true) : (m.write a l).wf = true := by
  induction l generalizing m a with
  | nil => exact hm
  | cons v t ih => exact ih _ _ (Mem.wf_put m a v hm)

/-- Taking entries out keeps the canonical form. -/
theorem Mem.wfFrom_filter {b : Nat} (p : Nat × Byte → Bool) (m : Mem) (hm : Mem.wfFrom b m = true) :
    Mem.wfFrom b (m.filter p) = true := by
  induction m generalizing b with
  | nil => rfl
  | cons e t ih =>
    obtain ⟨a, w⟩ := e
    simp only [Mem.wfFrom, Bool.and_eq_true, decide_eq_true_eq] at hm
    by_cases hp : p (a, w) = true
    · simp only [List.filter_cons_of_pos hp, Mem.wfFrom, Bool.and_eq_true, decide_eq_true_eq]
      exact ⟨hm.1, ih hm.2⟩
    · rw [List.filter_cons_of_neg hp]
      exact Mem.wfFrom_mono _ (by omega) (ih hm.2)

/-- Zeroing a range keeps a memory well formed. -/
theorem Mem.wf_zero (m : Mem) (a n : Nat) (hm : m.wf = true) : (m.zero a n).wf = true :=
  Mem.wfFrom_filter _ m hm

/-- An address below the bound of a canonical memory reads zero. -/
theorem Mem.get_below {b : Nat} (m : Mem) {k : Nat} (hk : k < b) (hm : Mem.wfFrom b m = true) : m.get k = 0 := by
  cases m with
  | nil => rfl
  | cons e t =>
    obtain ⟨a, w⟩ := e
    simp only [Mem.wfFrom, Bool.and_eq_true, decide_eq_true_eq] at hm
    simp only [Mem.get]
    rw [if_neg (by omega), if_pos (by omega)]

/-- Two canonical memories: a byte reads back, every other byte is left alone. -/
theorem Mem.get_putFrom {b : Nat} (m : Mem) (k j : Nat) (v : Byte) (hb : b ≤ k) (hm : Mem.wfFrom b m = true) :
    (m.put k v).get j = if j = k then v else m.get j := by
  induction m generalizing b with
  | nil =>
    by_cases hv : v = 0
    · subst hv; simp [Mem.put, Mem.get]
    · simp only [Mem.put, hv, if_false, Mem.get]
      by_cases hj : j = k
      · simp [hj]
      · simp [hj, Ne.symm hj]
  | cons e t ih =>
    obtain ⟨a, w⟩ := e
    simp only [Mem.wfFrom, Bool.and_eq_true, decide_eq_true_eq] at hm
    obtain ⟨⟨h1, h2⟩, h3⟩ := hm
    simp only [Mem.put]
    split
    · rename_i hka
      by_cases hv : v = 0
      · subst hv
        simp only [if_true]
        by_cases hj : j = k
        · subst hj; simp only [if_true, Mem.get]; rw [if_neg (by omega), if_pos hka]
        · simp [hj]
      · simp only [hv, if_false]
        by_cases hj : j = k
        · subst hj; simp [Mem.get]
        · rw [if_neg hj]
          by_cases hjk : j < k
          · simp only [Mem.get]; rw [if_neg (by omega), if_pos hjk, if_neg (by omega), if_pos (by omega)]
          · simp only [Mem.get]; rw [if_neg (by omega : ¬ k = j), if_neg hjk]
    · split
      · rename_i hka hak
        subst hak
        by_cases hv : v = 0
        · subst hv
          simp only [if_true]
          by_cases hj : j = a
          · subst hj; simp only [if_true]; exact Mem.get_below t (Nat.lt_succ_self j) h3
          · rw [if_neg hj]
            by_cases hja : j < a
            · rw [Mem.get_below t (by omega : j < a + 1) h3]
              simp only [Mem.get]; rw [if_neg (by omega), if_pos hja]
            · simp only [Mem.get]; rw [if_neg (by omega), if_neg hja]
        · simp only [hv, if_false, Mem.get]
          by_cases hj : j = a
          · simp [hj]
          · simp [hj, Ne.symm hj]
      · rename_i hka hak
        simp only [Mem.get]
        by_cases hj : j = k
        · subst hj
          rw [if_neg hak, if_neg (by omega), if_pos rfl, ih (by omega) h3, if_pos rfl]
        · rw [if_neg hj]
          by_cases hja : a = j
          · simp [hja]
          · rw [if_neg hja, if_neg hja]
            by_cases hlt : j < a
            · rw [if_pos hlt, if_pos hlt]
            · rw [if_neg hlt, if_neg hlt, ih (by omega) h3, if_neg hj]

/-- A canonical memory reads back what was written, and elsewhere what it held. -/
theorem Mem.get_put (m : Mem) (k j : Nat) (v : Byte) (hm : m.wf = true) :
    (m.put k v).get j = if j = k then v else m.get j :=
  Mem.get_putFrom m k j v (Nat.zero_le k) hm

end Sys2Proof.Machine
end

