-- ==== Sys2Proof/Laws/Memory.lean ====
section
/-!
SUPPORT. What the operations on the loft and the bridles can do: each once, with the canonical form of the loft.
-/

namespace Sys2Proof.Machine

/-- A store into the loft keeps its canonical form. -/
theorem MemSt.store_wf (m : MemSt) (now a : Nat) (l : List Byte) (h : m.loft.wf = true) : (m.store now a l).loft.wf = true := by
  simp only [MemSt.store]
  split
  · exact h
  · exact Mem.wf_write _ _ _ h

/-- A store changes nothing of a tile, a bank or the wipe. -/
theorem MemSt.store_rest (m : MemSt) (now a : Nat) (l : List Byte) :
    (m.store now a l).yard = m.yard ∧ (m.store now a l).wipe = m.wipe ∧ (m.store now a l).waiting = m.waiting := by
  simp only [MemSt.store]
  split <;> exact ⟨rfl, rfl, rfl⟩

/-- Where every block that is covered in part can be corrected, all bytes of a write reach the loft. -/
theorem MemSt.stored_all (m : MemSt) (a : Nat) (l : List Byte) (h : ∀ b ∈ partBlocks a l.length, blockLost m b = false) :
    m.stored a l = (a, l) := by
  have e : (partBlocks a l.length).filter (blockLost m) = [] := List.filter_eq_nil_iff.mpr fun b hb => by simp [h b hb]
  simp only [MemSt.stored, e, List.contains_nil, Bool.false_and, Bool.false_eq_true, if_false, Nat.add_zero, Nat.sub_zero,
    List.take_length, List.drop_zero]

/-- Such a store writes them. -/
theorem MemSt.store_loft (m : MemSt) (now a : Nat) (l : List Byte) (h : ∀ b ∈ partBlocks a l.length, blockLost m b = false) :
    (m.store now a l).loft = m.loft.write a l := by
  simp only [MemSt.store, m.stored_all a l h]
  split
  · simp_all [Mem.write]
  · rfl

/-- What a loft write can do (R427): it is made, or it waits with its pending units at the front of the wipe order. -/
theorem Side.loftPut_cases (x : Side) (a : Nat) (l : List Byte) :
    ((∀ u ∈ unitsAt a l.length, wipePending x.me.mem.wipe u = false) ∧
      x.loftPut a l = x.modMem fun m => m.store x.mt a l) ∨
    ((∃ u ∈ unitsAt a l.length, wipePending x.me.mem.wipe u = true) ∧
      (x.loftPut a l).me.mem.loft = x.me.mem.loft ∧ (x.loftPut a l).me.mem.waiting = x.me.mem.waiting ++ [(a, l)]) := by
  by_cases h : ((unitsAt a l.length).filter (wipePending x.me.mem.wipe)) = []
  · refine .inl ⟨fun u hu => ?_, ?_⟩
    · simpa using List.filter_eq_nil_iff.mp h u hu
    · simp [Side.loftPut, Side.modMem, h]
  · obtain ⟨u, hu⟩ := List.exists_mem_of_ne_nil _ h
    refine .inr ⟨⟨u, (List.mem_filter.mp hu).1, (List.mem_filter.mp hu).2⟩, ?_, ?_⟩ <;>
      simp [Side.loftPut, Side.modMem, h]

/-- A loft write keeps the canonical form. -/
theorem Side.loftPut_wf (x : Side) (a : Nat) (l : List Byte) (h : x.me.mem.loft.wf = true) : (x.loftPut a l).me.mem.loft.wf = true := by
  obtain ⟨-, e⟩ | ⟨-, e, -⟩ := x.loftPut_cases a l
  · rw [e]; exact MemSt.store_wf _ _ _ _ h
  · rw [e]; exact h

/-- What comes to a bridle is let through and charged, or is held (R452). -/
theorem Side.through_cases (x : Side) (b : Nat) (r : MemReq) (f : Side → Side) :
    x.through b r f = f ((x.accrue b).pay b r.loft 1 ((x.accrue b).charge r)) ∨
    x.through b r f = (((x.accrue b).modBridle b fun s => { s with held := s.held ++ [r] }).showPort b) := by
  simp only [Side.through]
  split
  · exact .inl rfl
  · exact .inr rfl

/-- A bridle whose RATE is 0 lets nothing through (R453). -/
theorem Side.affords_of_rate_zero (x : Side) (b : Nat) (r : MemReq) (h : (if r.loft then x.brRate b else x.brYardRate b) = 0) :
    x.affords b r = false := by
  simp [Side.affords, h]

end Sys2Proof.Machine
end

