-- ==== Sys2Proof/Laws/State.lean ====
section
/-!
SUPPORT. What each small update of a channel's view leaves to read: one lemma per field and update, all true by rfl.
-/

namespace Sys2Proof.Machine

variable (x : Side)

/-! `wr` -/

@[simp] theorem Side.wr_d (r : Reg) (v : Word) : (x.wr r v).d = x.d := rfl
@[simp] theorem Side.wr_hub (r : Reg) (v : Word) : (x.wr r v).hub = x.hub := rfl
@[simp] theorem Side.wr_me_regs (r : Reg) (v : Word) : (x.wr r v).me.regs = x.me.regs.put r v := rfl
@[simp] theorem Side.wr_me_rst (r : Reg) (v : Word) : (x.wr r v).me.rst = x.me.rst := rfl
@[simp] theorem Side.wr_me_time (r : Reg) (v : Word) : (x.wr r v).me.time = x.me.time := rfl
@[simp] theorem Side.wr_me_cad (r : Reg) (v : Word) : (x.wr r v).me.cad = x.me.cad := rfl
@[simp] theorem Side.wr_me_safe (r : Reg) (v : Word) : (x.wr r v).me.safe = x.me.safe := rfl
@[simp] theorem Side.wr_me_fired (r : Reg) (v : Word) : (x.wr r v).me.fired = x.me.fired := rfl
@[simp] theorem Side.wr_me_fns (r : Reg) (v : Word) : (x.wr r v).me.fns = x.me.fns := rfl
@[simp] theorem Side.wr_me_mem (r : Reg) (v : Word) : (x.wr r v).me.mem = x.me.mem := rfl
@[simp] theorem Side.wr_me_out (r : Reg) (v : Word) : (x.wr r v).me.out = x.me.out := rfl
@[simp] theorem Side.wr_me_capture (r : Reg) (v : Word) : (x.wr r v).me.capture = x.me.capture := rfl
@[simp] theorem Side.wr_me_free (r : Reg) (v : Word) : (x.wr r v).me.free = x.me.free := rfl
@[simp] theorem Side.wr_hrd (r : Reg) (v : Word) (b : Reg) : (x.wr r v).hrd b = x.hrd b := rfl
@[simp] theorem Side.wr_live (r : Reg) (v : Word) : (x.wr r v).live = x.live := rfl

/-! `emit` -/

@[simp] theorem Side.emit_d (o : Output) : (x.emit o).d = x.d := rfl
@[simp] theorem Side.emit_hub (o : Output) : (x.emit o).hub = x.hub := rfl
@[simp] theorem Side.emit_me_out (o : Output) : (x.emit o).me.out = o :: x.me.out := rfl
@[simp] theorem Side.emit_me_regs (o : Output) : (x.emit o).me.regs = x.me.regs := rfl
@[simp] theorem Side.emit_me_rst (o : Output) : (x.emit o).me.rst = x.me.rst := rfl
@[simp] theorem Side.emit_me_time (o : Output) : (x.emit o).me.time = x.me.time := rfl
@[simp] theorem Side.emit_me_cad (o : Output) : (x.emit o).me.cad = x.me.cad := rfl
@[simp] theorem Side.emit_me_safe (o : Output) : (x.emit o).me.safe = x.me.safe := rfl
@[simp] theorem Side.emit_me_fired (o : Output) : (x.emit o).me.fired = x.me.fired := rfl
@[simp] theorem Side.emit_me_fns (o : Output) : (x.emit o).me.fns = x.me.fns := rfl
@[simp] theorem Side.emit_me_mem (o : Output) : (x.emit o).me.mem = x.me.mem := rfl
@[simp] theorem Side.emit_me_capture (o : Output) : (x.emit o).me.capture = x.me.capture := rfl
@[simp] theorem Side.emit_me_free (o : Output) : (x.emit o).me.free = x.me.free := rfl
@[simp] theorem Side.emit_rd (o : Output) (b : Reg) : (x.emit o).rd b = x.rd b := rfl
@[simp] theorem Side.emit_hrd (o : Output) (b : Reg) : (x.emit o).hrd b = x.hrd b := rfl
@[simp] theorem Side.emit_live (o : Output) : (x.emit o).live = x.live := rfl

/-! `drive` -/

@[simp] theorem Side.drive_d (t : Nat) : (x.drive t).d = x.d := rfl
@[simp] theorem Side.drive_hub (t : Nat) : (x.drive t).hub = x.hub := rfl
@[simp] theorem Side.drive_me_driven (t : Nat) : (x.drive t).me.driven = x.me.driven.add t := rfl
@[simp] theorem Side.drive_me_regs (t : Nat) : (x.drive t).me.regs = x.me.regs := rfl
@[simp] theorem Side.drive_me_rst (t : Nat) : (x.drive t).me.rst = x.me.rst := rfl
@[simp] theorem Side.drive_me_time (t : Nat) : (x.drive t).me.time = x.me.time := rfl
@[simp] theorem Side.drive_me_cad (t : Nat) : (x.drive t).me.cad = x.me.cad := rfl
@[simp] theorem Side.drive_me_safe (t : Nat) : (x.drive t).me.safe = x.me.safe := rfl
@[simp] theorem Side.drive_me_fired (t : Nat) : (x.drive t).me.fired = x.me.fired := rfl
@[simp] theorem Side.drive_me_fns (t : Nat) : (x.drive t).me.fns = x.me.fns := rfl
@[simp] theorem Side.drive_me_mem (t : Nat) : (x.drive t).me.mem = x.me.mem := rfl
@[simp] theorem Side.drive_me_out (t : Nat) : (x.drive t).me.out = x.me.out := rfl
@[simp] theorem Side.drive_me_capture (t : Nat) : (x.drive t).me.capture = x.me.capture := rfl
@[simp] theorem Side.drive_me_free (t : Nat) : (x.drive t).me.free = x.me.free := rfl
@[simp] theorem Side.drive_rd (t : Nat) (b : Reg) : (x.drive t).rd b = x.rd b := rfl
@[simp] theorem Side.drive_hrd (t : Nat) (b : Reg) : (x.drive t).hrd b = x.hrd b := rfl
@[simp] theorem Side.drive_live (t : Nat) : (x.drive t).live = x.live := rfl

/-! `fire` -/

@[simp] theorem Side.fire_d (t : Trigger) : (x.fire t).d = x.d := rfl
@[simp] theorem Side.fire_hub (t : Trigger) : (x.fire t).hub = x.hub := rfl
@[simp] theorem Side.fire_me_fired (t : Trigger) : (x.fire t).me.fired = x.me.fired ++ [t] := rfl
@[simp] theorem Side.fire_me_regs (t : Trigger) : (x.fire t).me.regs = x.me.regs := rfl
@[simp] theorem Side.fire_me_rst (t : Trigger) : (x.fire t).me.rst = x.me.rst := rfl
@[simp] theorem Side.fire_me_time (t : Trigger) : (x.fire t).me.time = x.me.time := rfl
@[simp] theorem Side.fire_me_cad (t : Trigger) : (x.fire t).me.cad = x.me.cad := rfl
@[simp] theorem Side.fire_me_safe (t : Trigger) : (x.fire t).me.safe = x.me.safe := rfl
@[simp] theorem Side.fire_me_fns (t : Trigger) : (x.fire t).me.fns = x.me.fns := rfl
@[simp] theorem Side.fire_me_mem (t : Trigger) : (x.fire t).me.mem = x.me.mem := rfl
@[simp] theorem Side.fire_me_out (t : Trigger) : (x.fire t).me.out = x.me.out := rfl
@[simp] theorem Side.fire_me_capture (t : Trigger) : (x.fire t).me.capture = x.me.capture := rfl
@[simp] theorem Side.fire_me_free (t : Trigger) : (x.fire t).me.free = x.me.free := rfl
@[simp] theorem Side.fire_rd (t : Trigger) (b : Reg) : (x.fire t).rd b = x.rd b := rfl
@[simp] theorem Side.fire_hrd (t : Trigger) (b : Reg) : (x.fire t).hrd b = x.hrd b := rfl
@[simp] theorem Side.fire_live (t : Trigger) : (x.fire t).live = x.live := rfl

/-! `modMem` -/

@[simp] theorem Side.modMem_d (f : MemSt → MemSt) : (x.modMem f).d = x.d := rfl
@[simp] theorem Side.modMem_hub (f : MemSt → MemSt) : (x.modMem f).hub = x.hub := rfl
@[simp] theorem Side.modMem_me_mem (f : MemSt → MemSt) : (x.modMem f).me.mem = f x.me.mem := rfl
@[simp] theorem Side.modMem_me_regs (f : MemSt → MemSt) : (x.modMem f).me.regs = x.me.regs := rfl
@[simp] theorem Side.modMem_me_rst (f : MemSt → MemSt) : (x.modMem f).me.rst = x.me.rst := rfl
@[simp] theorem Side.modMem_me_time (f : MemSt → MemSt) : (x.modMem f).me.time = x.me.time := rfl
@[simp] theorem Side.modMem_me_cad (f : MemSt → MemSt) : (x.modMem f).me.cad = x.me.cad := rfl
@[simp] theorem Side.modMem_me_safe (f : MemSt → MemSt) : (x.modMem f).me.safe = x.me.safe := rfl
@[simp] theorem Side.modMem_me_fired (f : MemSt → MemSt) : (x.modMem f).me.fired = x.me.fired := rfl
@[simp] theorem Side.modMem_me_fns (f : MemSt → MemSt) : (x.modMem f).me.fns = x.me.fns := rfl
@[simp] theorem Side.modMem_me_out (f : MemSt → MemSt) : (x.modMem f).me.out = x.me.out := rfl
@[simp] theorem Side.modMem_me_capture (f : MemSt → MemSt) : (x.modMem f).me.capture = x.me.capture := rfl
@[simp] theorem Side.modMem_me_free (f : MemSt → MemSt) : (x.modMem f).me.free = x.me.free := rfl
@[simp] theorem Side.modMem_rd (f : MemSt → MemSt) (b : Reg) : (x.modMem f).rd b = x.rd b := rfl
@[simp] theorem Side.modMem_hrd (f : MemSt → MemSt) (b : Reg) : (x.modMem f).hrd b = x.hrd b := rfl
@[simp] theorem Side.modMem_live (f : MemSt → MemSt) : (x.modMem f).live = x.live := rfl

/-! `modFn` -/

@[simp] theorem Side.modFn_d (k : Nat) (g : FnSt → FnSt) : (x.modFn k g).d = x.d := rfl
@[simp] theorem Side.modFn_hub (k : Nat) (g : FnSt → FnSt) : (x.modFn k g).hub = x.hub := rfl
@[simp] theorem Side.modFn_me_fns (k : Nat) (g : FnSt → FnSt) : (x.modFn k g).me.fns = x.me.fns.put k (g (x.fn k)) := rfl
@[simp] theorem Side.modFn_me_regs (k : Nat) (g : FnSt → FnSt) : (x.modFn k g).me.regs = x.me.regs := rfl
@[simp] theorem Side.modFn_me_rst (k : Nat) (g : FnSt → FnSt) : (x.modFn k g).me.rst = x.me.rst := rfl
@[simp] theorem Side.modFn_me_time (k : Nat) (g : FnSt → FnSt) : (x.modFn k g).me.time = x.me.time := rfl
@[simp] theorem Side.modFn_me_cad (k : Nat) (g : FnSt → FnSt) : (x.modFn k g).me.cad = x.me.cad := rfl
@[simp] theorem Side.modFn_me_safe (k : Nat) (g : FnSt → FnSt) : (x.modFn k g).me.safe = x.me.safe := rfl
@[simp] theorem Side.modFn_me_fired (k : Nat) (g : FnSt → FnSt) : (x.modFn k g).me.fired = x.me.fired := rfl
@[simp] theorem Side.modFn_me_mem (k : Nat) (g : FnSt → FnSt) : (x.modFn k g).me.mem = x.me.mem := rfl
@[simp] theorem Side.modFn_me_out (k : Nat) (g : FnSt → FnSt) : (x.modFn k g).me.out = x.me.out := rfl
@[simp] theorem Side.modFn_me_capture (k : Nat) (g : FnSt → FnSt) : (x.modFn k g).me.capture = x.me.capture := rfl
@[simp] theorem Side.modFn_me_free (k : Nat) (g : FnSt → FnSt) : (x.modFn k g).me.free = x.me.free := rfl
@[simp] theorem Side.modFn_rd (k : Nat) (g : FnSt → FnSt) (b : Reg) : (x.modFn k g).rd b = x.rd b := rfl
@[simp] theorem Side.modFn_hrd (k : Nat) (g : FnSt → FnSt) (b : Reg) : (x.modFn k g).hrd b = x.hrd b := rfl
@[simp] theorem Side.modFn_live (k : Nat) (g : FnSt → FnSt) : (x.modFn k g).live = x.live := rfl

/-! `modSafe` -/

@[simp] theorem Side.modSafe_d (f : SafeSt → SafeSt) : (x.modSafe f).d = x.d := rfl
@[simp] theorem Side.modSafe_hub (f : SafeSt → SafeSt) : (x.modSafe f).hub = x.hub := rfl
@[simp] theorem Side.modSafe_me_safe (f : SafeSt → SafeSt) : (x.modSafe f).me.safe = f x.me.safe := rfl
@[simp] theorem Side.modSafe_me_regs (f : SafeSt → SafeSt) : (x.modSafe f).me.regs = x.me.regs := rfl
@[simp] theorem Side.modSafe_me_rst (f : SafeSt → SafeSt) : (x.modSafe f).me.rst = x.me.rst := rfl
@[simp] theorem Side.modSafe_me_time (f : SafeSt → SafeSt) : (x.modSafe f).me.time = x.me.time := rfl
@[simp] theorem Side.modSafe_me_cad (f : SafeSt → SafeSt) : (x.modSafe f).me.cad = x.me.cad := rfl
@[simp] theorem Side.modSafe_me_fired (f : SafeSt → SafeSt) : (x.modSafe f).me.fired = x.me.fired := rfl
@[simp] theorem Side.modSafe_me_fns (f : SafeSt → SafeSt) : (x.modSafe f).me.fns = x.me.fns := rfl
@[simp] theorem Side.modSafe_me_mem (f : SafeSt → SafeSt) : (x.modSafe f).me.mem = x.me.mem := rfl
@[simp] theorem Side.modSafe_me_out (f : SafeSt → SafeSt) : (x.modSafe f).me.out = x.me.out := rfl
@[simp] theorem Side.modSafe_me_capture (f : SafeSt → SafeSt) : (x.modSafe f).me.capture = x.me.capture := rfl
@[simp] theorem Side.modSafe_me_free (f : SafeSt → SafeSt) : (x.modSafe f).me.free = x.me.free := rfl
@[simp] theorem Side.modSafe_rd (f : SafeSt → SafeSt) (b : Reg) : (x.modSafe f).rd b = x.rd b := rfl
@[simp] theorem Side.modSafe_hrd (f : SafeSt → SafeSt) (b : Reg) : (x.modSafe f).hrd b = x.hrd b := rfl
@[simp] theorem Side.modSafe_live (f : SafeSt → SafeSt) : (x.modSafe f).live = x.live := rfl

/-! `modCad` -/

@[simp] theorem Side.modCad_d (f : CadSt → CadSt) : (x.modCad f).d = x.d := rfl
@[simp] theorem Side.modCad_hub (f : CadSt → CadSt) : (x.modCad f).hub = x.hub := rfl
@[simp] theorem Side.modCad_me_cad (f : CadSt → CadSt) : (x.modCad f).me.cad = f x.me.cad := rfl
@[simp] theorem Side.modCad_me_regs (f : CadSt → CadSt) : (x.modCad f).me.regs = x.me.regs := rfl
@[simp] theorem Side.modCad_me_rst (f : CadSt → CadSt) : (x.modCad f).me.rst = x.me.rst := rfl
@[simp] theorem Side.modCad_me_time (f : CadSt → CadSt) : (x.modCad f).me.time = x.me.time := rfl
@[simp] theorem Side.modCad_me_safe (f : CadSt → CadSt) : (x.modCad f).me.safe = x.me.safe := rfl
@[simp] theorem Side.modCad_me_fired (f : CadSt → CadSt) : (x.modCad f).me.fired = x.me.fired := rfl
@[simp] theorem Side.modCad_me_fns (f : CadSt → CadSt) : (x.modCad f).me.fns = x.me.fns := rfl
@[simp] theorem Side.modCad_me_mem (f : CadSt → CadSt) : (x.modCad f).me.mem = x.me.mem := rfl
@[simp] theorem Side.modCad_me_out (f : CadSt → CadSt) : (x.modCad f).me.out = x.me.out := rfl
@[simp] theorem Side.modCad_me_capture (f : CadSt → CadSt) : (x.modCad f).me.capture = x.me.capture := rfl
@[simp] theorem Side.modCad_me_free (f : CadSt → CadSt) : (x.modCad f).me.free = x.me.free := rfl
@[simp] theorem Side.modCad_rd (f : CadSt → CadSt) (b : Reg) : (x.modCad f).rd b = x.rd b := rfl
@[simp] theorem Side.modCad_hrd (f : CadSt → CadSt) (b : Reg) : (x.modCad f).hrd b = x.hrd b := rfl
@[simp] theorem Side.modCad_live (f : CadSt → CadSt) : (x.modCad f).live = x.live := rfl

/-! `modHbx` -/

@[simp] theorem Side.modHbx_d (f : HbxSt → HbxSt) : (x.modHbx f).d = x.d := rfl
@[simp] theorem Side.modHbx_hub (f : HbxSt → HbxSt) : (x.modHbx f).hub = x.hub := rfl
@[simp] theorem Side.modHbx_me_hbx (f : HbxSt → HbxSt) : (x.modHbx f).me.hbx = f x.me.hbx := rfl
@[simp] theorem Side.modHbx_me_regs (f : HbxSt → HbxSt) : (x.modHbx f).me.regs = x.me.regs := rfl
@[simp] theorem Side.modHbx_me_rst (f : HbxSt → HbxSt) : (x.modHbx f).me.rst = x.me.rst := rfl
@[simp] theorem Side.modHbx_me_time (f : HbxSt → HbxSt) : (x.modHbx f).me.time = x.me.time := rfl
@[simp] theorem Side.modHbx_me_cad (f : HbxSt → HbxSt) : (x.modHbx f).me.cad = x.me.cad := rfl
@[simp] theorem Side.modHbx_me_safe (f : HbxSt → HbxSt) : (x.modHbx f).me.safe = x.me.safe := rfl
@[simp] theorem Side.modHbx_me_fired (f : HbxSt → HbxSt) : (x.modHbx f).me.fired = x.me.fired := rfl
@[simp] theorem Side.modHbx_me_fns (f : HbxSt → HbxSt) : (x.modHbx f).me.fns = x.me.fns := rfl
@[simp] theorem Side.modHbx_me_mem (f : HbxSt → HbxSt) : (x.modHbx f).me.mem = x.me.mem := rfl
@[simp] theorem Side.modHbx_me_out (f : HbxSt → HbxSt) : (x.modHbx f).me.out = x.me.out := rfl
@[simp] theorem Side.modHbx_me_capture (f : HbxSt → HbxSt) : (x.modHbx f).me.capture = x.me.capture := rfl
@[simp] theorem Side.modHbx_me_free (f : HbxSt → HbxSt) : (x.modHbx f).me.free = x.me.free := rfl
@[simp] theorem Side.modHbx_rd (f : HbxSt → HbxSt) (b : Reg) : (x.modHbx f).rd b = x.rd b := rfl
@[simp] theorem Side.modHbx_hrd (f : HbxSt → HbxSt) (b : Reg) : (x.modHbx f).hrd b = x.hrd b := rfl
@[simp] theorem Side.modHbx_live (f : HbxSt → HbxSt) : (x.modHbx f).live = x.live := rfl

/-! `modStl` -/

@[simp] theorem Side.modStl_d (k : Nat) (f : StallSt → StallSt) : (x.modStl k f).d = x.d := rfl
@[simp] theorem Side.modStl_hub (k : Nat) (f : StallSt → StallSt) : (x.modStl k f).hub = x.hub := rfl
@[simp] theorem Side.modStl_me_stalls (k : Nat) (f : StallSt → StallSt) : (x.modStl k f).me.stalls = x.me.stalls.put k (f (x.stl k)) := rfl
@[simp] theorem Side.modStl_me_regs (k : Nat) (f : StallSt → StallSt) : (x.modStl k f).me.regs = x.me.regs := rfl
@[simp] theorem Side.modStl_me_rst (k : Nat) (f : StallSt → StallSt) : (x.modStl k f).me.rst = x.me.rst := rfl
@[simp] theorem Side.modStl_me_time (k : Nat) (f : StallSt → StallSt) : (x.modStl k f).me.time = x.me.time := rfl
@[simp] theorem Side.modStl_me_cad (k : Nat) (f : StallSt → StallSt) : (x.modStl k f).me.cad = x.me.cad := rfl
@[simp] theorem Side.modStl_me_safe (k : Nat) (f : StallSt → StallSt) : (x.modStl k f).me.safe = x.me.safe := rfl
@[simp] theorem Side.modStl_me_fired (k : Nat) (f : StallSt → StallSt) : (x.modStl k f).me.fired = x.me.fired := rfl
@[simp] theorem Side.modStl_me_fns (k : Nat) (f : StallSt → StallSt) : (x.modStl k f).me.fns = x.me.fns := rfl
@[simp] theorem Side.modStl_me_mem (k : Nat) (f : StallSt → StallSt) : (x.modStl k f).me.mem = x.me.mem := rfl
@[simp] theorem Side.modStl_me_out (k : Nat) (f : StallSt → StallSt) : (x.modStl k f).me.out = x.me.out := rfl
@[simp] theorem Side.modStl_me_capture (k : Nat) (f : StallSt → StallSt) : (x.modStl k f).me.capture = x.me.capture := rfl
@[simp] theorem Side.modStl_me_free (k : Nat) (f : StallSt → StallSt) : (x.modStl k f).me.free = x.me.free := rfl
@[simp] theorem Side.modStl_rd (k : Nat) (f : StallSt → StallSt) (b : Reg) : (x.modStl k f).rd b = x.rd b := rfl
@[simp] theorem Side.modStl_hrd (k : Nat) (f : StallSt → StallSt) (b : Reg) : (x.modStl k f).hrd b = x.hrd b := rfl
@[simp] theorem Side.modStl_live (k : Nat) (f : StallSt → StallSt) : (x.modStl k f).live = x.live := rfl

/-! `modNet` -/

@[simp] theorem Side.modNet_d (f : NetSt → NetSt) : (x.modNet f).d = x.d := rfl
@[simp] theorem Side.modNet_hub (f : NetSt → NetSt) : (x.modNet f).hub = x.hub := rfl
@[simp] theorem Side.modNet_me_net (f : NetSt → NetSt) : (x.modNet f).me.net = f x.me.net := rfl
@[simp] theorem Side.modNet_me_regs (f : NetSt → NetSt) : (x.modNet f).me.regs = x.me.regs := rfl
@[simp] theorem Side.modNet_me_rst (f : NetSt → NetSt) : (x.modNet f).me.rst = x.me.rst := rfl
@[simp] theorem Side.modNet_me_time (f : NetSt → NetSt) : (x.modNet f).me.time = x.me.time := rfl
@[simp] theorem Side.modNet_me_cad (f : NetSt → NetSt) : (x.modNet f).me.cad = x.me.cad := rfl
@[simp] theorem Side.modNet_me_safe (f : NetSt → NetSt) : (x.modNet f).me.safe = x.me.safe := rfl
@[simp] theorem Side.modNet_me_fired (f : NetSt → NetSt) : (x.modNet f).me.fired = x.me.fired := rfl
@[simp] theorem Side.modNet_me_fns (f : NetSt → NetSt) : (x.modNet f).me.fns = x.me.fns := rfl
@[simp] theorem Side.modNet_me_mem (f : NetSt → NetSt) : (x.modNet f).me.mem = x.me.mem := rfl
@[simp] theorem Side.modNet_me_out (f : NetSt → NetSt) : (x.modNet f).me.out = x.me.out := rfl
@[simp] theorem Side.modNet_me_capture (f : NetSt → NetSt) : (x.modNet f).me.capture = x.me.capture := rfl
@[simp] theorem Side.modNet_me_free (f : NetSt → NetSt) : (x.modNet f).me.free = x.me.free := rfl
@[simp] theorem Side.modNet_rd (f : NetSt → NetSt) (b : Reg) : (x.modNet f).rd b = x.rd b := rfl
@[simp] theorem Side.modNet_hrd (f : NetSt → NetSt) (b : Reg) : (x.modNet f).hrd b = x.hrd b := rfl
@[simp] theorem Side.modNet_live (f : NetSt → NetSt) : (x.modNet f).live = x.live := rfl

/-! `modDpy` -/

@[simp] theorem Side.modDpy_d (k : Nat) (f : DpySt → DpySt) : (x.modDpy k f).d = x.d := rfl
@[simp] theorem Side.modDpy_hub (k : Nat) (f : DpySt → DpySt) : (x.modDpy k f).hub = x.hub := rfl
@[simp] theorem Side.modDpy_me_dpy (k : Nat) (f : DpySt → DpySt) : (x.modDpy k f).me.dpy = x.me.dpy.put k (f (x.dpy k)) := rfl
@[simp] theorem Side.modDpy_me_regs (k : Nat) (f : DpySt → DpySt) : (x.modDpy k f).me.regs = x.me.regs := rfl
@[simp] theorem Side.modDpy_me_rst (k : Nat) (f : DpySt → DpySt) : (x.modDpy k f).me.rst = x.me.rst := rfl
@[simp] theorem Side.modDpy_me_time (k : Nat) (f : DpySt → DpySt) : (x.modDpy k f).me.time = x.me.time := rfl
@[simp] theorem Side.modDpy_me_cad (k : Nat) (f : DpySt → DpySt) : (x.modDpy k f).me.cad = x.me.cad := rfl
@[simp] theorem Side.modDpy_me_safe (k : Nat) (f : DpySt → DpySt) : (x.modDpy k f).me.safe = x.me.safe := rfl
@[simp] theorem Side.modDpy_me_fired (k : Nat) (f : DpySt → DpySt) : (x.modDpy k f).me.fired = x.me.fired := rfl
@[simp] theorem Side.modDpy_me_fns (k : Nat) (f : DpySt → DpySt) : (x.modDpy k f).me.fns = x.me.fns := rfl
@[simp] theorem Side.modDpy_me_mem (k : Nat) (f : DpySt → DpySt) : (x.modDpy k f).me.mem = x.me.mem := rfl
@[simp] theorem Side.modDpy_me_out (k : Nat) (f : DpySt → DpySt) : (x.modDpy k f).me.out = x.me.out := rfl
@[simp] theorem Side.modDpy_me_capture (k : Nat) (f : DpySt → DpySt) : (x.modDpy k f).me.capture = x.me.capture := rfl
@[simp] theorem Side.modDpy_me_free (k : Nat) (f : DpySt → DpySt) : (x.modDpy k f).me.free = x.me.free := rfl
@[simp] theorem Side.modDpy_rd (k : Nat) (f : DpySt → DpySt) (b : Reg) : (x.modDpy k f).rd b = x.rd b := rfl
@[simp] theorem Side.modDpy_hrd (k : Nat) (f : DpySt → DpySt) (b : Reg) : (x.modDpy k f).hrd b = x.hrd b := rfl
@[simp] theorem Side.modDpy_live (k : Nat) (f : DpySt → DpySt) : (x.modDpy k f).live = x.live := rfl

/-! `modFus` -/

@[simp] theorem Side.modFus_d (f : FusSt → FusSt) : (x.modFus f).d = x.d := rfl
@[simp] theorem Side.modFus_hub (f : FusSt → FusSt) : (x.modFus f).hub = x.hub := rfl
@[simp] theorem Side.modFus_me_fus (f : FusSt → FusSt) : (x.modFus f).me.fus = f x.me.fus := rfl
@[simp] theorem Side.modFus_me_regs (f : FusSt → FusSt) : (x.modFus f).me.regs = x.me.regs := rfl
@[simp] theorem Side.modFus_me_rst (f : FusSt → FusSt) : (x.modFus f).me.rst = x.me.rst := rfl
@[simp] theorem Side.modFus_me_time (f : FusSt → FusSt) : (x.modFus f).me.time = x.me.time := rfl
@[simp] theorem Side.modFus_me_cad (f : FusSt → FusSt) : (x.modFus f).me.cad = x.me.cad := rfl
@[simp] theorem Side.modFus_me_safe (f : FusSt → FusSt) : (x.modFus f).me.safe = x.me.safe := rfl
@[simp] theorem Side.modFus_me_fired (f : FusSt → FusSt) : (x.modFus f).me.fired = x.me.fired := rfl
@[simp] theorem Side.modFus_me_fns (f : FusSt → FusSt) : (x.modFus f).me.fns = x.me.fns := rfl
@[simp] theorem Side.modFus_me_mem (f : FusSt → FusSt) : (x.modFus f).me.mem = x.me.mem := rfl
@[simp] theorem Side.modFus_me_out (f : FusSt → FusSt) : (x.modFus f).me.out = x.me.out := rfl
@[simp] theorem Side.modFus_me_capture (f : FusSt → FusSt) : (x.modFus f).me.capture = x.me.capture := rfl
@[simp] theorem Side.modFus_me_free (f : FusSt → FusSt) : (x.modFus f).me.free = x.me.free := rfl
@[simp] theorem Side.modFus_rd (f : FusSt → FusSt) (b : Reg) : (x.modFus f).rd b = x.rd b := rfl
@[simp] theorem Side.modFus_hrd (f : FusSt → FusSt) (b : Reg) : (x.modFus f).hrd b = x.hrd b := rfl
@[simp] theorem Side.modFus_live (f : FusSt → FusSt) : (x.modFus f).live = x.live := rfl

/-! `modRec` -/

@[simp] theorem Side.modRec_d (f : RecSt → RecSt) : (x.modRec f).d = x.d := rfl
@[simp] theorem Side.modRec_hub (f : RecSt → RecSt) : (x.modRec f).hub = x.hub := rfl
@[simp] theorem Side.modRec_me_recorder (f : RecSt → RecSt) : (x.modRec f).me.recorder = f x.me.recorder := rfl
@[simp] theorem Side.modRec_me_regs (f : RecSt → RecSt) : (x.modRec f).me.regs = x.me.regs := rfl
@[simp] theorem Side.modRec_me_rst (f : RecSt → RecSt) : (x.modRec f).me.rst = x.me.rst := rfl
@[simp] theorem Side.modRec_me_time (f : RecSt → RecSt) : (x.modRec f).me.time = x.me.time := rfl
@[simp] theorem Side.modRec_me_cad (f : RecSt → RecSt) : (x.modRec f).me.cad = x.me.cad := rfl
@[simp] theorem Side.modRec_me_safe (f : RecSt → RecSt) : (x.modRec f).me.safe = x.me.safe := rfl
@[simp] theorem Side.modRec_me_fired (f : RecSt → RecSt) : (x.modRec f).me.fired = x.me.fired := rfl
@[simp] theorem Side.modRec_me_fns (f : RecSt → RecSt) : (x.modRec f).me.fns = x.me.fns := rfl
@[simp] theorem Side.modRec_me_mem (f : RecSt → RecSt) : (x.modRec f).me.mem = x.me.mem := rfl
@[simp] theorem Side.modRec_me_out (f : RecSt → RecSt) : (x.modRec f).me.out = x.me.out := rfl
@[simp] theorem Side.modRec_me_capture (f : RecSt → RecSt) : (x.modRec f).me.capture = x.me.capture := rfl
@[simp] theorem Side.modRec_me_free (f : RecSt → RecSt) : (x.modRec f).me.free = x.me.free := rfl
@[simp] theorem Side.modRec_rd (f : RecSt → RecSt) (b : Reg) : (x.modRec f).rd b = x.rd b := rfl
@[simp] theorem Side.modRec_hrd (f : RecSt → RecSt) (b : Reg) : (x.modRec f).hrd b = x.hrd b := rfl
@[simp] theorem Side.modRec_live (f : RecSt → RecSt) : (x.modRec f).live = x.live := rfl

/-! `modPwr` -/

@[simp] theorem Side.modPwr_d (f : PwrSt → PwrSt) : (x.modPwr f).d = x.d := rfl
@[simp] theorem Side.modPwr_hub (f : PwrSt → PwrSt) : (x.modPwr f).hub = x.hub := rfl
@[simp] theorem Side.modPwr_me_pwr (f : PwrSt → PwrSt) : (x.modPwr f).me.pwr = f x.me.pwr := rfl
@[simp] theorem Side.modPwr_me_regs (f : PwrSt → PwrSt) : (x.modPwr f).me.regs = x.me.regs := rfl
@[simp] theorem Side.modPwr_me_rst (f : PwrSt → PwrSt) : (x.modPwr f).me.rst = x.me.rst := rfl
@[simp] theorem Side.modPwr_me_time (f : PwrSt → PwrSt) : (x.modPwr f).me.time = x.me.time := rfl
@[simp] theorem Side.modPwr_me_cad (f : PwrSt → PwrSt) : (x.modPwr f).me.cad = x.me.cad := rfl
@[simp] theorem Side.modPwr_me_safe (f : PwrSt → PwrSt) : (x.modPwr f).me.safe = x.me.safe := rfl
@[simp] theorem Side.modPwr_me_fired (f : PwrSt → PwrSt) : (x.modPwr f).me.fired = x.me.fired := rfl
@[simp] theorem Side.modPwr_me_fns (f : PwrSt → PwrSt) : (x.modPwr f).me.fns = x.me.fns := rfl
@[simp] theorem Side.modPwr_me_mem (f : PwrSt → PwrSt) : (x.modPwr f).me.mem = x.me.mem := rfl
@[simp] theorem Side.modPwr_me_out (f : PwrSt → PwrSt) : (x.modPwr f).me.out = x.me.out := rfl
@[simp] theorem Side.modPwr_me_capture (f : PwrSt → PwrSt) : (x.modPwr f).me.capture = x.me.capture := rfl
@[simp] theorem Side.modPwr_me_free (f : PwrSt → PwrSt) : (x.modPwr f).me.free = x.me.free := rfl
@[simp] theorem Side.modPwr_rd (f : PwrSt → PwrSt) (b : Reg) : (x.modPwr f).rd b = x.rd b := rfl
@[simp] theorem Side.modPwr_hrd (f : PwrSt → PwrSt) (b : Reg) : (x.modPwr f).hrd b = x.hrd b := rfl
@[simp] theorem Side.modPwr_live (f : PwrSt → PwrSt) : (x.modPwr f).live = x.live := rfl

/-! `modRst` -/

@[simp] theorem Side.modRst_d (f : ResetSt → ResetSt) : (x.modRst f).d = x.d := rfl
@[simp] theorem Side.modRst_hub (f : ResetSt → ResetSt) : (x.modRst f).hub = x.hub := rfl
@[simp] theorem Side.modRst_me_rst (f : ResetSt → ResetSt) : (x.modRst f).me.rst = f x.me.rst := rfl
@[simp] theorem Side.modRst_me_regs (f : ResetSt → ResetSt) : (x.modRst f).me.regs = x.me.regs := rfl
@[simp] theorem Side.modRst_me_time (f : ResetSt → ResetSt) : (x.modRst f).me.time = x.me.time := rfl
@[simp] theorem Side.modRst_me_cad (f : ResetSt → ResetSt) : (x.modRst f).me.cad = x.me.cad := rfl
@[simp] theorem Side.modRst_me_safe (f : ResetSt → ResetSt) : (x.modRst f).me.safe = x.me.safe := rfl
@[simp] theorem Side.modRst_me_fired (f : ResetSt → ResetSt) : (x.modRst f).me.fired = x.me.fired := rfl
@[simp] theorem Side.modRst_me_fns (f : ResetSt → ResetSt) : (x.modRst f).me.fns = x.me.fns := rfl
@[simp] theorem Side.modRst_me_mem (f : ResetSt → ResetSt) : (x.modRst f).me.mem = x.me.mem := rfl
@[simp] theorem Side.modRst_me_out (f : ResetSt → ResetSt) : (x.modRst f).me.out = x.me.out := rfl
@[simp] theorem Side.modRst_me_capture (f : ResetSt → ResetSt) : (x.modRst f).me.capture = x.me.capture := rfl
@[simp] theorem Side.modRst_me_free (f : ResetSt → ResetSt) : (x.modRst f).me.free = x.me.free := rfl
@[simp] theorem Side.modRst_rd (f : ResetSt → ResetSt) (b : Reg) : (x.modRst f).rd b = x.rd b := rfl
@[simp] theorem Side.modRst_hrd (f : ResetSt → ResetSt) (b : Reg) : (x.modRst f).hrd b = x.hrd b := rfl

/-! `modTime` -/

@[simp] theorem Side.modTime_d (f : TimeSt → TimeSt) : (x.modTime f).d = x.d := rfl
@[simp] theorem Side.modTime_hub (f : TimeSt → TimeSt) : (x.modTime f).hub = x.hub := rfl
@[simp] theorem Side.modTime_me_time (f : TimeSt → TimeSt) : (x.modTime f).me.time = f x.me.time := rfl
@[simp] theorem Side.modTime_me_regs (f : TimeSt → TimeSt) : (x.modTime f).me.regs = x.me.regs := rfl
@[simp] theorem Side.modTime_me_rst (f : TimeSt → TimeSt) : (x.modTime f).me.rst = x.me.rst := rfl
@[simp] theorem Side.modTime_me_cad (f : TimeSt → TimeSt) : (x.modTime f).me.cad = x.me.cad := rfl
@[simp] theorem Side.modTime_me_safe (f : TimeSt → TimeSt) : (x.modTime f).me.safe = x.me.safe := rfl
@[simp] theorem Side.modTime_me_fired (f : TimeSt → TimeSt) : (x.modTime f).me.fired = x.me.fired := rfl
@[simp] theorem Side.modTime_me_fns (f : TimeSt → TimeSt) : (x.modTime f).me.fns = x.me.fns := rfl
@[simp] theorem Side.modTime_me_mem (f : TimeSt → TimeSt) : (x.modTime f).me.mem = x.me.mem := rfl
@[simp] theorem Side.modTime_me_out (f : TimeSt → TimeSt) : (x.modTime f).me.out = x.me.out := rfl
@[simp] theorem Side.modTime_me_capture (f : TimeSt → TimeSt) : (x.modTime f).me.capture = x.me.capture := rfl
@[simp] theorem Side.modTime_me_free (f : TimeSt → TimeSt) : (x.modTime f).me.free = x.me.free := rfl
@[simp] theorem Side.modTime_me_engines (f : TimeSt → TimeSt) : (x.modTime f).me.engines = x.me.engines := rfl
@[simp] theorem Side.modTime_me_stalls (f : TimeSt → TimeSt) : (x.modTime f).me.stalls = x.me.stalls := rfl
@[simp] theorem Side.modTime_me_accs (f : TimeSt → TimeSt) : (x.modTime f).me.accs = x.me.accs := rfl
@[simp] theorem Side.modTime_me_gfx (f : TimeSt → TimeSt) : (x.modTime f).me.gfx = x.me.gfx := rfl
@[simp] theorem Side.modTime_me_lockedAt (f : TimeSt → TimeSt) : (x.modTime f).me.lockedAt = x.me.lockedAt := rfl
@[simp] theorem Side.modTime_rd (f : TimeSt → TimeSt) (r : Reg) : (x.modTime f).rd r = x.rd r := rfl
@[simp] theorem Side.modTime_hrd (f : TimeSt → TimeSt) (r : Reg) : (x.modTime f).hrd r = x.hrd r := rfl
@[simp] theorem Side.modTime_live (f : TimeSt → TimeSt) : (x.modTime f).live = x.live := rfl

/-! `modBase` -/

@[simp] theorem Side.modBase_d (w : Bool) (f : TBase → TBase) : (x.modBase w f).d = x.d := rfl
@[simp] theorem Side.modBase_hub (w : Bool) (f : TBase → TBase) : (x.modBase w f).hub = x.hub := rfl
@[simp] theorem Side.modBase_me_regs (w : Bool) (f : TBase → TBase) : (x.modBase w f).me.regs = x.me.regs := rfl
@[simp] theorem Side.modBase_me_rst (w : Bool) (f : TBase → TBase) : (x.modBase w f).me.rst = x.me.rst := rfl
@[simp] theorem Side.modBase_me_cad (w : Bool) (f : TBase → TBase) : (x.modBase w f).me.cad = x.me.cad := rfl
@[simp] theorem Side.modBase_me_safe (w : Bool) (f : TBase → TBase) : (x.modBase w f).me.safe = x.me.safe := rfl
@[simp] theorem Side.modBase_me_fired (w : Bool) (f : TBase → TBase) : (x.modBase w f).me.fired = x.me.fired := rfl
@[simp] theorem Side.modBase_me_fns (w : Bool) (f : TBase → TBase) : (x.modBase w f).me.fns = x.me.fns := rfl
@[simp] theorem Side.modBase_me_mem (w : Bool) (f : TBase → TBase) : (x.modBase w f).me.mem = x.me.mem := rfl
@[simp] theorem Side.modBase_me_out (w : Bool) (f : TBase → TBase) : (x.modBase w f).me.out = x.me.out := rfl
@[simp] theorem Side.modBase_me_capture (w : Bool) (f : TBase → TBase) : (x.modBase w f).me.capture = x.me.capture := rfl
@[simp] theorem Side.modBase_me_free (w : Bool) (f : TBase → TBase) : (x.modBase w f).me.free = x.me.free := rfl
@[simp] theorem Side.modBase_me_engines (w : Bool) (f : TBase → TBase) : (x.modBase w f).me.engines = x.me.engines := rfl
@[simp] theorem Side.modBase_me_stalls (w : Bool) (f : TBase → TBase) : (x.modBase w f).me.stalls = x.me.stalls := rfl
@[simp] theorem Side.modBase_me_accs (w : Bool) (f : TBase → TBase) : (x.modBase w f).me.accs = x.me.accs := rfl
@[simp] theorem Side.modBase_me_gfx (w : Bool) (f : TBase → TBase) : (x.modBase w f).me.gfx = x.me.gfx := rfl
@[simp] theorem Side.modBase_me_lockedAt (w : Bool) (f : TBase → TBase) : (x.modBase w f).me.lockedAt = x.me.lockedAt := rfl
@[simp] theorem Side.modBase_rd (w : Bool) (f : TBase → TBase) (r : Reg) : (x.modBase w f).rd r = x.rd r := rfl
@[simp] theorem Side.modBase_hrd (w : Bool) (f : TBase → TBase) (r : Reg) : (x.modBase w f).hrd r = x.hrd r := rfl
@[simp] theorem Side.modBase_live (w : Bool) (f : TBase → TBase) : (x.modBase w f).live = x.live := rfl

/-! `modEng` -/

@[simp] theorem Side.modEng_d (e : Nat) (f : EngSt → EngSt) : (x.modEng e f).d = x.d := rfl
@[simp] theorem Side.modEng_hub (e : Nat) (f : EngSt → EngSt) : (x.modEng e f).hub = x.hub := rfl
@[simp] theorem Side.modEng_me_engines (e : Nat) (f : EngSt → EngSt) : (x.modEng e f).me.engines = x.me.engines.put e (f (x.eng e)) := rfl
@[simp] theorem Side.modEng_me_regs (e : Nat) (f : EngSt → EngSt) : (x.modEng e f).me.regs = x.me.regs := rfl
@[simp] theorem Side.modEng_me_rst (e : Nat) (f : EngSt → EngSt) : (x.modEng e f).me.rst = x.me.rst := rfl
@[simp] theorem Side.modEng_me_time (e : Nat) (f : EngSt → EngSt) : (x.modEng e f).me.time = x.me.time := rfl
@[simp] theorem Side.modEng_me_cad (e : Nat) (f : EngSt → EngSt) : (x.modEng e f).me.cad = x.me.cad := rfl
@[simp] theorem Side.modEng_me_safe (e : Nat) (f : EngSt → EngSt) : (x.modEng e f).me.safe = x.me.safe := rfl
@[simp] theorem Side.modEng_me_fired (e : Nat) (f : EngSt → EngSt) : (x.modEng e f).me.fired = x.me.fired := rfl
@[simp] theorem Side.modEng_me_fns (e : Nat) (f : EngSt → EngSt) : (x.modEng e f).me.fns = x.me.fns := rfl
@[simp] theorem Side.modEng_me_mem (e : Nat) (f : EngSt → EngSt) : (x.modEng e f).me.mem = x.me.mem := rfl
@[simp] theorem Side.modEng_me_out (e : Nat) (f : EngSt → EngSt) : (x.modEng e f).me.out = x.me.out := rfl
@[simp] theorem Side.modEng_me_capture (e : Nat) (f : EngSt → EngSt) : (x.modEng e f).me.capture = x.me.capture := rfl
@[simp] theorem Side.modEng_me_free (e : Nat) (f : EngSt → EngSt) : (x.modEng e f).me.free = x.me.free := rfl
@[simp] theorem Side.modEng_me_stalls (e : Nat) (f : EngSt → EngSt) : (x.modEng e f).me.stalls = x.me.stalls := rfl
@[simp] theorem Side.modEng_me_accs (e : Nat) (f : EngSt → EngSt) : (x.modEng e f).me.accs = x.me.accs := rfl
@[simp] theorem Side.modEng_me_gfx (e : Nat) (f : EngSt → EngSt) : (x.modEng e f).me.gfx = x.me.gfx := rfl
@[simp] theorem Side.modEng_me_lockedAt (e : Nat) (f : EngSt → EngSt) : (x.modEng e f).me.lockedAt = x.me.lockedAt := rfl
@[simp] theorem Side.modEng_rd (e : Nat) (f : EngSt → EngSt) (r : Reg) : (x.modEng e f).rd r = x.rd r := rfl
@[simp] theorem Side.modEng_hrd (e : Nat) (f : EngSt → EngSt) (r : Reg) : (x.modEng e f).hrd r = x.hrd r := rfl
@[simp] theorem Side.modEng_live (e : Nat) (f : EngSt → EngSt) : (x.modEng e f).live = x.live := rfl

/-! `modBridle` -/

@[simp] theorem Side.modBridle_d (b : Nat) (f : BridleSt → BridleSt) : (x.modBridle b f).d = x.d := rfl
@[simp] theorem Side.modBridle_hub (b : Nat) (f : BridleSt → BridleSt) : (x.modBridle b f).hub = x.hub := rfl
@[simp] theorem Side.modBridle_me_bridles (b : Nat) (f : BridleSt → BridleSt) : (x.modBridle b f).me.bridles = x.me.bridles.put b (f (x.bridle b)) := rfl
@[simp] theorem Side.modBridle_me_regs (b : Nat) (f : BridleSt → BridleSt) : (x.modBridle b f).me.regs = x.me.regs := rfl
@[simp] theorem Side.modBridle_me_rst (b : Nat) (f : BridleSt → BridleSt) : (x.modBridle b f).me.rst = x.me.rst := rfl
@[simp] theorem Side.modBridle_me_time (b : Nat) (f : BridleSt → BridleSt) : (x.modBridle b f).me.time = x.me.time := rfl
@[simp] theorem Side.modBridle_me_cad (b : Nat) (f : BridleSt → BridleSt) : (x.modBridle b f).me.cad = x.me.cad := rfl
@[simp] theorem Side.modBridle_me_safe (b : Nat) (f : BridleSt → BridleSt) : (x.modBridle b f).me.safe = x.me.safe := rfl
@[simp] theorem Side.modBridle_me_fired (b : Nat) (f : BridleSt → BridleSt) : (x.modBridle b f).me.fired = x.me.fired := rfl
@[simp] theorem Side.modBridle_me_fns (b : Nat) (f : BridleSt → BridleSt) : (x.modBridle b f).me.fns = x.me.fns := rfl
@[simp] theorem Side.modBridle_me_mem (b : Nat) (f : BridleSt → BridleSt) : (x.modBridle b f).me.mem = x.me.mem := rfl
@[simp] theorem Side.modBridle_me_out (b : Nat) (f : BridleSt → BridleSt) : (x.modBridle b f).me.out = x.me.out := rfl
@[simp] theorem Side.modBridle_me_capture (b : Nat) (f : BridleSt → BridleSt) : (x.modBridle b f).me.capture = x.me.capture := rfl
@[simp] theorem Side.modBridle_me_free (b : Nat) (f : BridleSt → BridleSt) : (x.modBridle b f).me.free = x.me.free := rfl
@[simp] theorem Side.modBridle_me_engines (b : Nat) (f : BridleSt → BridleSt) : (x.modBridle b f).me.engines = x.me.engines := rfl
@[simp] theorem Side.modBridle_me_stalls (b : Nat) (f : BridleSt → BridleSt) : (x.modBridle b f).me.stalls = x.me.stalls := rfl
@[simp] theorem Side.modBridle_me_accs (b : Nat) (f : BridleSt → BridleSt) : (x.modBridle b f).me.accs = x.me.accs := rfl
@[simp] theorem Side.modBridle_me_gfx (b : Nat) (f : BridleSt → BridleSt) : (x.modBridle b f).me.gfx = x.me.gfx := rfl
@[simp] theorem Side.modBridle_me_lockedAt (b : Nat) (f : BridleSt → BridleSt) : (x.modBridle b f).me.lockedAt = x.me.lockedAt := rfl
@[simp] theorem Side.modBridle_rd (b : Nat) (f : BridleSt → BridleSt) (r : Reg) : (x.modBridle b f).rd r = x.rd r := rfl
@[simp] theorem Side.modBridle_hrd (b : Nat) (f : BridleSt → BridleSt) (r : Reg) : (x.modBridle b f).hrd r = x.hrd r := rfl
@[simp] theorem Side.modBridle_live (b : Nat) (f : BridleSt → BridleSt) : (x.modBridle b f).live = x.live := rfl

/-! `modPair` -/

@[simp] theorem Side.modPair_d (p : Nat) (f : GlvSt → GlvSt) : (x.modPair p f).d = x.d := rfl
@[simp] theorem Side.modPair_hub (p : Nat) (f : GlvSt → GlvSt) : (x.modPair p f).hub = x.hub := rfl
@[simp] theorem Side.modPair_me_glv (p : Nat) (f : GlvSt → GlvSt) : (x.modPair p f).me.glv = x.me.glv.put p (f (x.pair p)) := rfl
@[simp] theorem Side.modPair_me_regs (p : Nat) (f : GlvSt → GlvSt) : (x.modPair p f).me.regs = x.me.regs := rfl
@[simp] theorem Side.modPair_me_rst (p : Nat) (f : GlvSt → GlvSt) : (x.modPair p f).me.rst = x.me.rst := rfl
@[simp] theorem Side.modPair_me_time (p : Nat) (f : GlvSt → GlvSt) : (x.modPair p f).me.time = x.me.time := rfl
@[simp] theorem Side.modPair_me_cad (p : Nat) (f : GlvSt → GlvSt) : (x.modPair p f).me.cad = x.me.cad := rfl
@[simp] theorem Side.modPair_me_safe (p : Nat) (f : GlvSt → GlvSt) : (x.modPair p f).me.safe = x.me.safe := rfl
@[simp] theorem Side.modPair_me_fired (p : Nat) (f : GlvSt → GlvSt) : (x.modPair p f).me.fired = x.me.fired := rfl
@[simp] theorem Side.modPair_me_fns (p : Nat) (f : GlvSt → GlvSt) : (x.modPair p f).me.fns = x.me.fns := rfl
@[simp] theorem Side.modPair_me_mem (p : Nat) (f : GlvSt → GlvSt) : (x.modPair p f).me.mem = x.me.mem := rfl
@[simp] theorem Side.modPair_me_out (p : Nat) (f : GlvSt → GlvSt) : (x.modPair p f).me.out = x.me.out := rfl
@[simp] theorem Side.modPair_me_capture (p : Nat) (f : GlvSt → GlvSt) : (x.modPair p f).me.capture = x.me.capture := rfl
@[simp] theorem Side.modPair_me_free (p : Nat) (f : GlvSt → GlvSt) : (x.modPair p f).me.free = x.me.free := rfl
@[simp] theorem Side.modPair_me_engines (p : Nat) (f : GlvSt → GlvSt) : (x.modPair p f).me.engines = x.me.engines := rfl
@[simp] theorem Side.modPair_me_stalls (p : Nat) (f : GlvSt → GlvSt) : (x.modPair p f).me.stalls = x.me.stalls := rfl
@[simp] theorem Side.modPair_me_accs (p : Nat) (f : GlvSt → GlvSt) : (x.modPair p f).me.accs = x.me.accs := rfl
@[simp] theorem Side.modPair_me_gfx (p : Nat) (f : GlvSt → GlvSt) : (x.modPair p f).me.gfx = x.me.gfx := rfl
@[simp] theorem Side.modPair_me_lockedAt (p : Nat) (f : GlvSt → GlvSt) : (x.modPair p f).me.lockedAt = x.me.lockedAt := rfl
@[simp] theorem Side.modPair_rd (p : Nat) (f : GlvSt → GlvSt) (r : Reg) : (x.modPair p f).rd r = x.rd r := rfl
@[simp] theorem Side.modPair_hrd (p : Nat) (f : GlvSt → GlvSt) (r : Reg) : (x.modPair p f).hrd r = x.hrd r := rfl
@[simp] theorem Side.modPair_live (p : Nat) (f : GlvSt → GlvSt) : (x.modPair p f).live = x.live := rfl

/-! `modLines` -/

@[simp] theorem Side.modLines_d (f : List CacheLine → List CacheLine) : (x.modLines f).d = x.d := rfl
@[simp] theorem Side.modLines_hub (f : List CacheLine → List CacheLine) : (x.modLines f).hub = x.hub := rfl
@[simp] theorem Side.modLines_me_gfx (f : List CacheLine → List CacheLine) : (x.modLines f).me.gfx = { x.me.gfx with lines := f x.me.gfx.lines } := rfl
@[simp] theorem Side.modLines_me_regs (f : List CacheLine → List CacheLine) : (x.modLines f).me.regs = x.me.regs := rfl
@[simp] theorem Side.modLines_me_rst (f : List CacheLine → List CacheLine) : (x.modLines f).me.rst = x.me.rst := rfl
@[simp] theorem Side.modLines_me_time (f : List CacheLine → List CacheLine) : (x.modLines f).me.time = x.me.time := rfl
@[simp] theorem Side.modLines_me_cad (f : List CacheLine → List CacheLine) : (x.modLines f).me.cad = x.me.cad := rfl
@[simp] theorem Side.modLines_me_safe (f : List CacheLine → List CacheLine) : (x.modLines f).me.safe = x.me.safe := rfl
@[simp] theorem Side.modLines_me_fired (f : List CacheLine → List CacheLine) : (x.modLines f).me.fired = x.me.fired := rfl
@[simp] theorem Side.modLines_me_fns (f : List CacheLine → List CacheLine) : (x.modLines f).me.fns = x.me.fns := rfl
@[simp] theorem Side.modLines_me_mem (f : List CacheLine → List CacheLine) : (x.modLines f).me.mem = x.me.mem := rfl
@[simp] theorem Side.modLines_me_out (f : List CacheLine → List CacheLine) : (x.modLines f).me.out = x.me.out := rfl
@[simp] theorem Side.modLines_me_capture (f : List CacheLine → List CacheLine) : (x.modLines f).me.capture = x.me.capture := rfl
@[simp] theorem Side.modLines_me_free (f : List CacheLine → List CacheLine) : (x.modLines f).me.free = x.me.free := rfl
@[simp] theorem Side.modLines_me_engines (f : List CacheLine → List CacheLine) : (x.modLines f).me.engines = x.me.engines := rfl
@[simp] theorem Side.modLines_me_stalls (f : List CacheLine → List CacheLine) : (x.modLines f).me.stalls = x.me.stalls := rfl
@[simp] theorem Side.modLines_me_accs (f : List CacheLine → List CacheLine) : (x.modLines f).me.accs = x.me.accs := rfl
@[simp] theorem Side.modLines_me_lockedAt (f : List CacheLine → List CacheLine) : (x.modLines f).me.lockedAt = x.me.lockedAt := rfl
@[simp] theorem Side.modLines_rd (f : List CacheLine → List CacheLine) (r : Reg) : (x.modLines f).rd r = x.rd r := rfl
@[simp] theorem Side.modLines_hrd (f : List CacheLine → List CacheLine) (r : Reg) : (x.modLines f).hrd r = x.hrd r := rfl
@[simp] theorem Side.modLines_live (f : List CacheLine → List CacheLine) : (x.modLines f).live = x.live := rfl

/-! `setEarly` -/

@[simp] theorem Side.setEarly_d (l : List NearReq) : (x.setEarly l).d = x.d := rfl
@[simp] theorem Side.setEarly_hub (l : List NearReq) : (x.setEarly l).hub = x.hub := rfl
@[simp] theorem Side.setEarly_me_cbb (l : List NearReq) : (x.setEarly l).me.cbb = { x.me.cbb with early := l } := rfl
@[simp] theorem Side.setEarly_me_regs (l : List NearReq) : (x.setEarly l).me.regs = x.me.regs := rfl
@[simp] theorem Side.setEarly_me_rst (l : List NearReq) : (x.setEarly l).me.rst = x.me.rst := rfl
@[simp] theorem Side.setEarly_me_time (l : List NearReq) : (x.setEarly l).me.time = x.me.time := rfl
@[simp] theorem Side.setEarly_me_cad (l : List NearReq) : (x.setEarly l).me.cad = x.me.cad := rfl
@[simp] theorem Side.setEarly_me_safe (l : List NearReq) : (x.setEarly l).me.safe = x.me.safe := rfl
@[simp] theorem Side.setEarly_me_fired (l : List NearReq) : (x.setEarly l).me.fired = x.me.fired := rfl
@[simp] theorem Side.setEarly_me_fns (l : List NearReq) : (x.setEarly l).me.fns = x.me.fns := rfl
@[simp] theorem Side.setEarly_me_mem (l : List NearReq) : (x.setEarly l).me.mem = x.me.mem := rfl
@[simp] theorem Side.setEarly_me_out (l : List NearReq) : (x.setEarly l).me.out = x.me.out := rfl
@[simp] theorem Side.setEarly_me_capture (l : List NearReq) : (x.setEarly l).me.capture = x.me.capture := rfl
@[simp] theorem Side.setEarly_me_free (l : List NearReq) : (x.setEarly l).me.free = x.me.free := rfl
@[simp] theorem Side.setEarly_me_engines (l : List NearReq) : (x.setEarly l).me.engines = x.me.engines := rfl
@[simp] theorem Side.setEarly_me_stalls (l : List NearReq) : (x.setEarly l).me.stalls = x.me.stalls := rfl
@[simp] theorem Side.setEarly_me_accs (l : List NearReq) : (x.setEarly l).me.accs = x.me.accs := rfl
@[simp] theorem Side.setEarly_me_gfx (l : List NearReq) : (x.setEarly l).me.gfx = x.me.gfx := rfl
@[simp] theorem Side.setEarly_me_lockedAt (l : List NearReq) : (x.setEarly l).me.lockedAt = x.me.lockedAt := rfl
@[simp] theorem Side.setEarly_rd (l : List NearReq) (r : Reg) : (x.setEarly l).rd r = x.rd r := rfl
@[simp] theorem Side.setEarly_hrd (l : List NearReq) (r : Reg) : (x.setEarly l).hrd r = x.hrd r := rfl
@[simp] theorem Side.setEarly_live (l : List NearReq) : (x.setEarly l).live = x.live := rfl

/-! The hub's own updates -/

@[simp] theorem Side.hwr_d (r : Reg) (v : Word) : (x.hwr r v).d = x.d := rfl
@[simp] theorem Side.hwr_me (r : Reg) (v : Word) : (x.hwr r v).me = x.me := rfl
@[simp] theorem Side.hwr_hub_regs (r : Reg) (v : Word) : (x.hwr r v).hub.regs = x.hub.regs.put r v := rfl
@[simp] theorem Side.hwr_rd (r : Reg) (v : Word) (b : Reg) : (x.hwr r v).rd b = x.rd b := rfl
@[simp] theorem Side.hwr_live (r : Reg) (v : Word) : (x.hwr r v).live = x.live := rfl
@[simp] theorem Side.hemit_d (o : Output) : (x.hemit o).d = x.d := rfl
@[simp] theorem Side.hemit_me (o : Output) : (x.hemit o).me = x.me := rfl
@[simp] theorem Side.hemit_hub_regs (o : Output) : (x.hemit o).hub.regs = x.hub.regs := rfl
@[simp] theorem Side.hemit_rd (o : Output) (b : Reg) : (x.hemit o).rd b = x.rd b := rfl
@[simp] theorem Side.hemit_hrd (o : Output) (b : Reg) : (x.hemit o).hrd b = x.hrd b := rfl

/-! Registers -/

/-- A register reads what hardware wrote, and every other register what it read before. -/
theorem Side.rd_wr (r a : Reg) (v : Word) : (x.wr r v).rd a = if a = r then v else x.rd a := by
  simp only [Side.rd, Side.wr, Tbl.get_put]

@[simp] theorem Side.rd_wr_same (r : Reg) (v : Word) : (x.wr r v).rd r = v := by simp [Side.rd_wr]

theorem Side.rd_wr_ne {r a : Reg} (v : Word) (h : a ≠ r) : (x.wr r v).rd a = x.rd a := by simp [Side.rd_wr, h]

/-- The same for the hub. -/
theorem Side.hrd_hwr (r a : Reg) (v : Word) : (x.hwr r v).hrd a = if a = r then v else x.hrd a := by
  simp only [Side.hrd, Side.hwr, Tbl.get_put]

@[simp] theorem Side.hrd_hwr_same (r : Reg) (v : Word) : (x.hwr r v).hrd r = v := by simp [Side.hrd_hwr]

/-! The state -/

@[simp] theorem State.side_d (s : State) (d : Ch) : (s.side d).d = d := rfl
@[simp] theorem State.side_me (s : State) (d : Ch) : (s.side d).me = s.chan d := rfl
@[simp] theorem State.side_hub (s : State) (d : Ch) : (s.side d).hub = s.hub := rfl

@[simp] theorem State.chan_onSide (s : State) (d : Ch) (f : Side → Side) : (s.onSide d f).chan d = (f (s.side d)).me := by
  cases d <;> rfl

@[simp] theorem State.chan_peer_onSide (s : State) (d : Ch) (f : Side → Side) :
    (s.onSide d f).chan d.peer = s.chan d.peer := by
  cases d <;> rfl

@[simp] theorem State.hub_onSide (s : State) (d : Ch) (f : Side → Side) : (s.onSide d f).hub = (f (s.side d)).hub := by
  cases d <;> rfl

@[simp] theorem State.pending_onSide (s : State) (d : Ch) (f : Side → Side) : (s.onSide d f).pending = s.pending := by
  cases d <;> rfl

@[simp] theorem State.pending_elapse (s : State) (n : Now) : (s.elapse n).pending = s.pending := rfl

@[simp] theorem State.hub_elapse (s : State) (n : Now) : (s.elapse n).hub = s.hub := rfl

/-- The channel's view after an operation that keeps which channel it is. -/
theorem State.side_onSide (s : State) (d : Ch) (f : Side → Side) (h : (f (s.side d)).d = d) :
    (s.onSide d f).side d = f (s.side d) := by
  have e : (s.onSide d f).side d = { f (s.side d) with d := d } := by cases d <;> rfl
  rw [e]
  generalize f (s.side d) = y at h
  cases y
  cases h
  rfl

/-- An operation acts on a state through the channel's view alone. -/
theorem State.onSide_congr (s : State) (d : Ch) {f g : Side → Side} (h : f (s.side d) = g (s.side d)) :
    s.onSide d f = s.onSide d g := by
  simp only [State.onSide, h]

end Sys2Proof.Machine
end

