-- ==== Sys2Proof/Laws/Run.lean ====
section
/-!
SUPPORT. How a command of a channel runs: the one lemma that says what `onLive` answers on a die that runs, and the ones
that say what a command leaves alone whatever it does.
-/

namespace Sys2Proof.Machine

/-- With no trigger fired, nothing is entered. -/
theorem Side.settle_of_nil {x : Side} (h : x.me.fired = []) : x.settle = x := by
  simp only [Side.settle, h]

/-- After the end of a command no trigger waits. -/
theorem Side.settle_fired (x : Side) : x.settle.me.fired = [] := by
  unfold Side.settle
  split
  · assumption
  · rfl

/-- Time moves neither the die's phase nor what waits on it. -/
@[simp] theorem Chan.elapse_rst (c : Chan) (n : Nat) : (c.elapse n).rst = c.rst := by
  unfold Chan.elapse; split <;> rfl
@[simp] theorem Chan.elapse_fired (c : Chan) (n : Nat) : (c.elapse n).fired = c.fired := by
  unfold Chan.elapse; split <;> rfl
@[simp] theorem Chan.elapse_regs (c : Chan) (n : Nat) : (c.elapse n).regs = c.regs := by
  unfold Chan.elapse; split <;> rfl

/-- The channel's die after the time of a command. -/
theorem State.chan_elapse (s : State) (n : Now) (d : Ch) : (s.elapse n).chan d = (s.chan d).elapse (n.on d) := by
  cases d <;> rfl

@[simp] theorem State.at_d (s : State) (n : Now) (d : Ch) : (s.at_ n d).d = d := rfl
@[simp] theorem State.at_hub (s : State) (n : Now) (d : Ch) : (s.at_ n d).hub = s.hub := rfl

/-- Time changes no register. -/
@[simp] theorem State.at_rd (s : State) (n : Now) (d : Ch) (a : Reg) : (s.at_ n d).rd a = s.reg d a := by
  simp [State.at_, Side.rd, State.reg, State.chan_elapse]

@[simp] theorem State.at_hrd (s : State) (n : Now) (d : Ch) (a : Reg) : (s.at_ n d).hrd a = s.hreg a := rfl

/-- A command of a channel on a die that runs and on which nothing waits: exactly the operation's effect, when that fires no
trigger. -/
theorem onLive_eq {n : Now} {d : Ch} {f g : Side → Side} {s : State} (h : (s.at_ n d).Ready) (hf : f (s.at_ n d) = g (s.at_ n d))
    (hg : (g (s.at_ n d)).me.fired = []) : onLive n d f s = .next (s.after n d g) := by
  have e : (fun x : Side => if x.live then (f x).settle else x) (s.at_ n d) = g (s.at_ n d) := by
    simp only [h.1, if_true]
    rw [hf, Side.settle_of_nil hg]
  exact congrArg _ (State.onSide_congr _ d e)

/-- The same with the entry of what the operation fires. -/
theorem onLive_ends {n : Now} {d : Ch} {f g : Side → Side} {s : State} (h : (s.at_ n d).live = true)
    (hf : f (s.at_ n d) = g (s.at_ n d)) : onLive n d f s = .next (s.ends n d g) := by
  have e : (fun x : Side => if x.live then (f x).settle else x) (s.at_ n d) = (g (s.at_ n d)).settle := by
    simp only [h, if_true, hf]
  exact congrArg Host.Outcome.next (State.onSide_congr (s.elapse n) d (g := fun x : Side => (g x).settle) e)

/-- The same for a command that also acts on a die that does not run. -/
theorem onAny_eq {n : Now} {d : Ch} {f g : Side → Side} {s : State} (hf : f (s.at_ n d) = g (s.at_ n d))
    (hg : (g (s.at_ n d)).me.fired = []) : onAny n d f s = .next (s.after n d g) := by
  have e : (fun x : Side => (f x).settle) (s.at_ n d) = g (s.at_ n d) := by
    show (f (s.at_ n d)).settle = _
    rw [hf, Side.settle_of_nil hg]
  exact congrArg _ (State.onSide_congr _ d e)

/-- A command on a die that is unpowered or in reset: time passes, nothing else. -/
theorem onLive_dead {n : Now} {d : Ch} {f : Side → Side} {s : State} (h : (s.chan d).rst.phase ≠ .run) :
    onLive n d f s = .next (s.elapse n) := by
  have hl : (s.at_ n d).live = false := by
    simp only [Side.live, State.at_, State.side_me, State.chan_elapse, Chan.elapse_rst]
    exact beq_false_of_ne h
  have e : (s.elapse n).onSide d (fun x : Side => if x.live then (f x).settle else x) = (s.elapse n).onSide d id :=
    State.onSide_congr _ d (by
      show (if (s.at_ n d).live = true then _ else _) = _
      rw [hl]; rfl)
  show Host.Outcome.next _ = _
  rw [e]
  cases d <;> rfl

/-- What an on-any-die command answers, with the entry of what the operation fires. -/
theorem onAny_ends {n : Now} {d : Ch} {f g : Side → Side} {s : State} (hf : f (s.at_ n d) = g (s.at_ n d)) :
    onAny n d f s = .next (s.ends n d g) := by
  have e : (fun x : Side => (f x).settle) (s.at_ n d) = (g (s.at_ n d)).settle := by simp only [hf]
  exact congrArg Host.Outcome.next (State.onSide_congr (s.elapse n) d (g := fun x : Side => (g x).settle) e)

/-- A ring command that Rhordo takes runs. -/
theorem Side.hostCmd_of_takes {x : Side} {r : CmdRef} {op : Nat} {c : Cmd} (h : x.Takes r op c) (f : Cmd → Side → Side) :
    x.hostCmd r op f = f c x := by
  obtain ⟨hp, hi, hc, ho, hk⟩ := h
  have hi' : ¬(r.fn.val < 17 ∧ x.resetHolds r.fn = true) := fun e => by simp [hi e.1] at e
  simp only [Side.hostCmd, Side.withCmd, hp, hc, ho, hk]
  simp only [Bool.not_true, Bool.false_or, Bool.and_eq_true, decide_eq_true_eq, bne_iff_ne, if_neg hi', decide_true, Bool.and_self,
    if_true]

theorem Side.planCmd_of_plans {x : Side} {r : CmdRef} {op : Nat} {c : Cmd} (h : x.Plans r op c) (f : Cmd → Side → Side) :
    x.planCmd r op f = f c x := by
  obtain ⟨hp, hs, hc, ho, hk⟩ := h
  simp [Side.planCmd, Side.withCmd, hp, hs, hc, ho, hk]

theorem Side.withCmd_of_holds {x : Side} {r : CmdRef} {op : Nat} {c : Cmd} (h : x.Holds r op c) (f : Cmd → Side → Side) :
    x.withCmd r op f = f c x := by
  obtain ⟨hc, ho, hk⟩ := h
  simp [Side.withCmd, hc, ho, hk]

/-- A register write that is performed. -/
theorem Side.access_of_may {x : Side} {w : Init} {a : Reg} (h : x.may w a = true) (f : Side → Side) :
    x.access w a f = (f x).drive (a / 0x40000) := by
  simp only [Side.may, Bool.and_eq_true, Bool.not_eq_true'] at h
  simp only [Side.access, h.1.1, h.1.2, h.2]
  rfl

/-- A write of a register of the hub that is performed. -/
theorem onHubReg_ends {n : Now} {d : Ch} {w : Init} {a : Reg} {f g : Side → Side} {s : State} (h : (s.at_ n d).hmay w a = true)
    (hf : f (s.at_ n d) = g (s.at_ n d)) : onHubReg n d w a f s = .next (s.ends n d g) := by
  simp only [Side.hmay, Bool.and_eq_true] at h
  have e : (fun x : Side => (f x).settle) (s.at_ n d) = (g (s.at_ n d)).settle := by simp only [hf]
  have k : onHubReg n d w a f s = .next ((s.elapse n).onSide d fun x => (f x).settle) := by
    have h1 : ((s.elapse n).side d).reachesHub w = true := h.1.1
    have h2 : ((s.elapse n).side d).hubPageOn a = true := h.1.2
    have h3 : ((s.elapse n).side d).hpermits w a = true := h.2
    simp only [onHubReg, h1, h2, h3]; rfl
  exact k.trans (congrArg Host.Outcome.next (State.onSide_congr (s.elapse n) d (g := fun x : Side => (g x).settle) e))

/-- What a command of the cadence answers. -/
theorem onTick_runs {n : Now} {d : Ch} {f g : Side → Side} {s : State} (h : (s.at_ n d).me.ticking = true)
    (hf : f (s.at_ n d) = g (s.at_ n d)) : onTick n d f s = .next (s.runs n d g) := by
  unfold State.runs
  split
  · rename_i hl
    have e : (fun x : Side => if x.live then (f x).settle else if x.me.ticking then
        { f x with me := { (f x).me with fired := x.me.fired } } else x) (s.at_ n d) = (g (s.at_ n d)).settle := by
      simp only [hl, if_true, hf]
    exact congrArg Host.Outcome.next (State.onSide_congr (s.elapse n) d (g := fun x : Side => (g x).settle) e)
  · rename_i hl
    have e : (fun x : Side => if x.live then (f x).settle else if x.me.ticking then
        { f x with me := { (f x).me with fired := x.me.fired } } else x) (s.at_ n d)
          = { g (s.at_ n d) with me := { (g (s.at_ n d)).me with fired := (s.at_ n d).me.fired } } := by
      simp only [hl, h, if_true, hf]; rfl
    exact congrArg Host.Outcome.next (State.onSide_congr (s.elapse n) d
      (g := fun x : Side => { g x with me := { (g x).me with fired := x.me.fired } }) e)

/-- A request that the Hatbox works on. -/
theorem Side.serve_of_serves {x : Side} {p : Fin 4} {code : Nat} (h : x.Serves p code) (f : Side → Side) :
    x.serve p code f = f x := by
  obtain ⟨h1, h2, h3, h4, h5, h6⟩ := h
  simp [Side.serve, h1, h2, h3, h4, h5, h6]

/-- A register write that its page's WORLD or LOCK refuses is counted and does nothing more. -/
theorem Side.access_of_not_may {x : Side} {w : Init} {a : Reg} (hp : x.pageOn a = true) (h : x.may w a = false)
    (f : Side → Side) : x.access w a f = x.denied w := by
  simp only [Side.may, hp, Bool.true_and, Bool.and_eq_false_iff, Bool.not_eq_false'] at h
  rcases h with h | h <;> simp only [Side.access, hp, h] <;> simp

end Sys2Proof.Machine
end

