-- ==== Sys2Proof/Laws/Quiet.lean ====
section
/-!
SUPPORT. What raising an event, counting and completing a command can change: event and counter registers, the rings of
the functions, the recorder's queue, what is shown outside; nothing else, and no trigger when no page routes to the pin.
-/

namespace Sys2Proof.Machine

/-- A register that events and counters move: EVT_RAW, CNT_OVF, a counter, or RM_CNT_OVF. -/
def Counted (a : Nat) : Prop := a % 0x1000 = 0x10 ∨ a % 0x1000 = 0x24 ∨ a % 0x1000 = 0xF0 ∨ 0xF00 ≤ a % 0x1000

/-- y differs from x only in what events, counts and completions write. -/
structure Side.Quiet (x y : Side) : Prop where
  d : y.d = x.d
  me : y.me = { x.me with
    regs := y.me.regs, fns := y.me.fns, mem := y.me.mem, recorder := y.me.recorder, out := y.me.out, fired := y.me.fired }
  hub : y.hub = { x.hub with regs := y.hub.regs, lastUp := y.hub.lastUp, pending := y.hub.pending, out := y.hub.out }
  rd : ∀ a, ¬Counted a → y.rd a = x.rd a
  hrd : ∀ a, ¬Counted a → y.hrd a = x.hrd a
  fired : x.NoPins → y.me.fired = x.me.fired

/-- The offset of a register in its page. -/
theorem mod_page (a b r : Nat) (h : r < 0x1000) : (a * 0x40000 + 0x1000 * b + r) % 0x1000 = r := by omega

/-- The routes of events are not counters. -/
theorem not_counted_route (t i : Nat) : ¬Counted (headReg t i Reg.EVT_ROUTE) := by
  have h : (headReg t i Reg.EVT_ROUTE : Nat) % 0x1000 = 0x20 := mod_page t i 0x20 (by decide)
  rw [Counted, h]; decide

/-- Nothing routes to the pin afterwards either. -/
theorem Side.Quiet.noPins {x y : Side} (h : x.Quiet y) (hp : x.NoPins) : y.NoPins :=
  ⟨fun t i => by rw [h.rd _ (not_counted_route t i)]; exact hp.1 t i,
   fun t i => by rw [h.hrd _ (not_counted_route t i)]; exact hp.2 t i⟩

theorem Side.Quiet.refl (x : Side) : x.Quiet x := ⟨rfl, rfl, rfl, fun _ _ => rfl, fun _ _ => rfl, fun _ => rfl⟩

theorem Side.Quiet.trans {x y z : Side} (h : x.Quiet y) (k : y.Quiet z) : x.Quiet z where
  d := k.d.trans h.d
  me := by rw [k.me, h.me]
  hub := by rw [k.hub, h.hub]
  rd := fun a ha => (k.rd a ha).trans (h.rd a ha)
  hrd := fun a ha => (k.hrd a ha).trans (h.hrd a ha)
  fired := fun hp => (k.fired (h.noPins hp)).trans (h.fired hp)

/-- A quiet change keeps a calm channel calm. -/
theorem Side.Quiet.calm {x y : Side} (h : x.Quiet y) (hc : x.Calm) : y.Calm :=
  ⟨⟨by rw [Side.live, h.me]; exact hc.1.1, by rw [h.fired hc.2]; exact hc.1.2⟩, h.noPins hc.2⟩

/-- A change of rings, memory, recorder or outputs alone. -/
theorem Side.Quiet.of_rings {x y : Side} (hd : y.d = x.d)
    (hm : y.me = { x.me with fns := y.me.fns, mem := y.me.mem, recorder := y.me.recorder, out := y.me.out })
    (hh : y.hub = { x.hub with lastUp := y.hub.lastUp, pending := y.hub.pending, out := y.hub.out }) : x.Quiet y where
  d := hd
  me := by rw [hm]
  hub := by rw [hh]
  rd := fun a _ => by simp only [Side.rd]; rw [hd, hm]
  hrd := fun a _ => by simp only [Side.hrd]; rw [hh]
  fired := fun _ => by rw [hm]

/-- A write of a counted register of the die. -/
theorem Side.Quiet.of_wr (x : Side) {r : Reg} (v : Word) (hr : Counted r) : x.Quiet (x.wr r v) where
  d := rfl
  me := rfl
  hub := rfl
  rd := fun _ ha => Side.rd_wr_ne x v fun e => ha (e ▸ hr)
  hrd := fun _ _ => rfl
  fired := fun _ => rfl

/-- A write of a counted register of the hub. -/
theorem Side.Quiet.of_hwr (x : Side) {r : Reg} (v : Word) (hr : Counted r) : x.Quiet (x.hwr r v) where
  d := rfl
  me := rfl
  hub := rfl
  rd := fun _ _ => rfl
  hrd := fun a ha => by rw [Side.hrd_hwr, if_neg fun e : a = r => ha (e ▸ hr)]
  fired := fun _ => rfl

theorem counted_raw (t i : Nat) : Counted (headReg t i Reg.EVT_RAW) := by
  left; exact mod_page t i 0x10 (by decide)

theorem counted_ovf (t i : Nat) : Counted (headReg t i Reg.CNT_OVF) := by
  right; left; exact mod_page t i 0x24 (by decide)

/-- A counter number names one of the 32 counters of a page. -/
theorem counted_ct (c : Ct) (i : Nat) (h : c.n < 32) : Counted (c.reg.inst i) := by
  have e : c.reg.inst i = c.t * 0x40000 + 0x1000 * i + (0xF00 + 4 * c.n) := by
    show c.t * 0x40000 + 0xF00 + 4 * c.n + 0x1000 * i = _
    omega
  right; right; right
  rw [e, mod_page _ _ _ (by omega)]; omega

/-! The operations -/

theorem Side.record_quiet (x : Side) (typ stall : Nat) (body : List Word) : x.Quiet (x.record typ stall body) := by
  unfold Side.record; split
  · exact .of_rings rfl rfl rfl
  · exact .refl x

theorem Side.loftPut_quiet (x : Side) (a : Nat) (l : List Byte) : x.Quiet (x.loftPut a l) := .of_rings rfl rfl rfl

theorem Side.emit_quiet (x : Side) (o : Output) : x.Quiet (x.emit o) := .of_rings rfl rfl rfl

theorem Side.hemit_quiet (x : Side) (o : Output) : x.Quiet (x.hemit o) := .of_rings rfl rfl rfl

theorem Side.modFn_quiet (x : Side) (f : Nat) (g : FnSt → FnSt) : x.Quiet (x.modFn f g) := .of_rings rfl rfl rfl

theorem Side.putIndex_quiet (x : Side) (f k v : Nat) : x.Quiet (x.putIndex f k v) := by
  unfold Side.putIndex; split
  · exact x.loftPut_quiet _ _
  · exact .refl x

theorem Side.msix_quiet (x : Side) (f v : Nat) : x.Quiet (x.msix f v) := by
  unfold Side.msix; dsimp only; split
  · exact .refl x
  · split <;> exact .of_rings rfl rfl rfl

theorem Side.bump_quiet (x : Side) (c : Ct) (i : Nat) (h : c.n < 32) : x.Quiet (x.bump c i) := by
  unfold Side.bump; split
  · exact .of_wr x _ (counted_ovf _ _)
  · exact .of_wr x _ (counted_ct c i h)

theorem Side.hbump_quiet (x : Side) (c : Ct) (i : Nat) (h : c.n < 32) : x.Quiet (x.hbump c i) := by
  unfold Side.hbump; split
  · exact .of_hwr x _ (counted_ovf _ _)
  · exact .of_hwr x _ (counted_ct c i h)

/-- What a lost count does is quiet. -/
abbrev QuietSat (sat : Side → Side) : Prop := ∀ x : Side, Side.Quiet x (sat x)

theorem Side.eventRecordWith_quiet {sat : Side → Side} (hs : QuietSat sat) (x : Side) (f die : Nat) (e : Ev) (i st : Nat) :
    x.Quiet (x.eventRecordWith sat f die e i st) := by
  unfold Side.eventRecordWith
  split
  · exact .refl x
  · split
    · exact .refl x
    · split
      · split
        · exact hs x
        · apply Side.Quiet.of_hwr
          right; right; right
          rw [show x.rm Reg.RM_EQ_DROPPED = 0x30 * 0x40000 + 0x1000 * x.d.die + 0xF20 by
            exact Nat.add_right_comm 0xC00000 0xF20 (0x1000 * x.d.die), mod_page _ _ _ (by decide)]
          decide
      · exact ((x.loftPut_quiet _ _).trans (Side.modFn_quiet _ _ _)).trans (Side.putIndex_quiet _ _ _ _)

/-- A count that its user's counting function keeps quiet. -/
abbrev QuietCount (cnt : Side → Ct → Side) : Prop := ∀ (x : Side) (c : Ct), c.n < 32 → Side.Quiet x (cnt x c)

theorem Side.deliverWith_quiet {sat : Side → Side} (hs : QuietSat sat) {cnt : Side → Ct → Side} (hc : QuietCount cnt) (x : Side)
    (route owner : Word) (die : Nat) (e : Ev) (i st fn : Nat) :
    x.Quiet (x.deliverWith sat cnt route owner die e i st fn) := by
  have h1 : ∀ x : Side, x.Quiet (if bit route 6 then
      ((cnt x Ct.EVA_DELIVERED_HOST).eventRecordWith sat fn die e i st).msix fn (fld route 5 0) else x) := by
    intro x; split
    · exact ((hc x _ (by decide)).trans (Side.eventRecordWith_quiet hs _ _ _ _ _ _)).trans (Side.msix_quiet _ _ _)
    · exact .refl x
  have h2 : ∀ x : Side, x.Quiet (if bit route 7 then
      (cnt x Ct.EVA_DELIVERED_FW).emit (.fwInt (if fld owner 1 0 = 1 then fld owner 3 2 else 0) e.t i e.bit) else x) := by
    intro x; split
    · exact (hc x _ (by decide)).trans (Side.emit_quiet _ _)
    · exact .refl x
  have h3 : ∀ x : Side, x.Quiet (if bit route 8 then
      ((cnt x Ct.EVA_DELIVERED_SAFE).emit (.fwInt 2 e.t i e.bit)).record 0x09 0
        [pack [(0, e.t), (16, i), (24, die)], word e.bit, 0, 0, 0, 0, 0, 0] else x) := by
    intro x; split
    · exact ((hc x _ (by decide)).trans (Side.emit_quiet _ _)).trans (Side.record_quiet _ _ _ _)
    · exact .refl x
  exact ((h1 x).trans (h2 _)).trans (h3 _)

theorem Side.fireEv_quiet {x y : Side} (h : x.Quiet y) (b : Bool) (hb : x.NoPins → b = false) (cls : Nat) (e : Ev) (i : Nat)
    (z : Side) (hz : y.Quiet z) : x.Quiet (if b then z.fireEv cls e i else y) := by
  cases b with
  | false => exact h
  | true =>
    have k := h.trans hz
    refine ⟨k.d, ?_, k.hub, k.rd, k.hrd, fun hp => absurd (hb hp) (by decide)⟩
    show ({ z.me with fired := _ } : Chan) = _
    rw [k.me]; rfl

theorem Side.raiseBy_quiet {sat : Side → Side} (hs : QuietSat sat) {cnt : Side → Ct → Side} (hc : QuietCount cnt) (x : Side)
    (e : Ev) (i st : Nat) : x.Quiet (x.raiseBy sat cnt e i st) := by
  unfold Side.raiseBy
  dsimp only
  have q1 := Side.Quiet.of_wr x (setBit (x.rd (headReg e.t i Reg.EVT_RAW)) e.bit true) (counted_raw e.t i)
  generalize x.wr (headReg e.t i Reg.EVT_RAW) (setBit (x.rd (headReg e.t i Reg.EVT_RAW)) e.bit true) = y at q1
  refine Side.fireEv_quiet (q1.trans ?_) _ ?_ _ _ _ _ (hc _ _ (by decide))
  · split
    · exact Side.deliverWith_quiet hs hc _ _ _ _ _ _ _ _
    · exact .refl _
  · intro hp
    rw [hp.1 e.t i]; rfl

theorem Side.eqLost_quiet {cnt : Side → Ct → Side} (hc : QuietCount cnt) : QuietSat (Side.eqLost cnt) := by
  intro x
  refine (Side.Quiet.of_hwr x _ ?_).trans (Side.raiseBy_quiet (fun y => .refl y) hc _ _ _ _)
  right; right
  rw [show x.rm Reg.RM_CNT_OVF = 0x30 * 0x40000 + 0x1000 * x.d.die + 0xF0 by
    exact Nat.add_right_comm 0xC00000 0xF0 (0x1000 * x.d.die), mod_page _ _ _ (by decide)]
  decide

theorem Side.deliver_quiet {cnt : Side → Ct → Side} (hc : QuietCount cnt) (x : Side) (route owner : Word) (die : Nat) (e : Ev)
    (i st fn : Nat) : x.Quiet (x.deliver cnt route owner die e i st fn) :=
  Side.deliverWith_quiet (Side.eqLost_quiet hc) hc x route owner die e i st fn

theorem Side.raiseWith_quiet {cnt : Side → Ct → Side} (hc : QuietCount cnt) (x : Side) (e : Ev) (i st : Nat) :
    x.Quiet (x.raiseWith cnt e i st) := Side.raiseBy_quiet (Side.eqLost_quiet hc) hc x e i st

theorem bump_quietCount : QuietCount fun y k => y.bump k 0 := fun x c h => x.bump_quiet c 0 h

theorem Side.countEva_quiet : QuietCount Side.countEva := by
  intro x c h
  unfold Side.countEva
  split
  · exact (x.bump_quiet c 0 h).trans (Side.raiseWith_quiet bump_quietCount _ _ _ _)
  · exact x.bump_quiet c 0 h

/-- Raising an event is quiet. -/
theorem Side.raise_quiet (x : Side) (e : Ev) (i : Nat) : x.Quiet (x.raise e i) :=
  Side.raiseWith_quiet Side.countEva_quiet x e i 0

/-- An event record is quiet. -/
theorem Side.eventRecord_quiet (x : Side) (f die : Nat) (e : Ev) (i st : Nat) : x.Quiet (x.eventRecord f die e i st) :=
  Side.eventRecordWith_quiet (Side.eqLost_quiet Side.countEva_quiet) x f die e i st

/-- Counting is quiet. -/
theorem Side.count_quiet (x : Side) (c : Ct) (i : Nat) (h : c.n < 32 := by decide) : x.Quiet (x.count c i) := by
  unfold Side.count
  split
  · exact (x.bump_quiet c i h).trans (Side.raise_quiet _ _ _)
  · exact x.bump_quiet c i h

theorem Side.hdeliver_quiet {cnt : Side → Ct → Side} (hc : QuietCount cnt) (x : Side) (e : Ev) (i fn : Nat) :
    x.Quiet (x.hdeliver cnt e i fn) := by
  unfold Side.hdeliver; dsimp only; split
  · exact Side.deliver_quiet hc _ _ _ _ _ _ _ _
  · split
    · exact x.msix_quiet _ _
    · exact .refl x

theorem Side.hraiseWith_quiet {cnt : Side → Ct → Side} (hc : QuietCount cnt) (x : Side) (e : Ev) (i fn : Nat) :
    x.Quiet (x.hraiseWith cnt e i fn) := by
  unfold Side.hraiseWith
  dsimp only
  have q1 := Side.Quiet.of_hwr x (setBit (x.hrd (headReg e.t i Reg.EVT_RAW)) e.bit true) (counted_raw e.t i)
  generalize x.hwr (headReg e.t i Reg.EVT_RAW) (setBit (x.hrd (headReg e.t i Reg.EVT_RAW)) e.bit true) = y at q1
  have q2 : x.Quiet (if !bit (x.hrd (headReg e.t i Reg.EVT_RAW)) e.bit && bit (y.hrd (headReg e.t i Reg.EVT_EN)) e.bit then
      y.hdeliver cnt e i fn else y) := by
    refine q1.trans ?_
    split
    · exact Side.hdeliver_quiet hc _ _ _ _
    · exact .refl _
  generalize (if !bit (x.hrd (headReg e.t i Reg.EVT_RAW)) e.bit && bit (y.hrd (headReg e.t i Reg.EVT_EN)) e.bit then
      y.hdeliver cnt e i fn else y) = z at q2
  refine Side.fireEv_quiet q2 _ ?_ _ _ _ _ (hc _ _ (by decide))
  intro hp
  rw [(q2.noPins hp).2 e.t i]
  simp

theorem hbump_quietCount : QuietCount fun y k => y.hbump k 0 := fun x c h => x.hbump_quiet c 0 h

theorem Side.hcountEva_quiet : QuietCount Side.hcountEva := by
  intro x c h
  unfold Side.hcountEva
  split
  · exact (x.hbump_quiet c 0 h).trans (Side.hraiseWith_quiet hbump_quietCount _ _ _ _)
  · exact x.hbump_quiet c 0 h

/-- Raising an event of a hub page toward a channel is quiet. -/
theorem Side.hraise_quiet (x : Side) (e : Ev) (i fn : Nat) : x.Quiet (x.hraise e i fn) :=
  Side.hraiseWith_quiet Side.hcountEva_quiet x e i fn

theorem Side.hcount_quiet (x : Side) (c : Ct) (i fn : Nat) (h : c.n < 32 := by decide) : x.Quiet (x.hcount c i fn) := by
  unfold Side.hcount
  split
  · exact (x.hbump_quiet c i h).trans (Side.hraise_quiet _ _ _ _)
  · exact x.hbump_quiet c i h

theorem Side.denied_quiet (x : Side) (w : Init) : x.Quiet (x.denied w) := by
  cases w with
  | pf c =>
    unfold Side.denied; dsimp only; split
    · exact Side.hcount_quiet x _ _ _
    · split
      · exact (x.hbump_quiet _ _ (by decide)).trans (.of_hwr _ _ (counted_raw _ _))
      · exact x.hbump_quiet _ _ (by decide)
  | pair p => exact (Side.countEva_quiet x _ (by decide)).trans (Side.raise_quiet _ _ _)
  | hatbox => exact (Side.countEva_quiet x _ (by decide)).trans (Side.raise_quiet _ _ _)
  | vf c v => exact (Side.countEva_quiet x _ (by decide)).trans (Side.raise_quiet _ _ _)

theorem Side.putCompletion_quiet (x : Side) (f kind ring op id st res : Nat) (l : List Word) :
    x.Quiet (x.putCompletion f kind ring op id st res l) := by
  unfold Side.putCompletion
  split
  · exact (x.emit_quiet _).trans (Side.record_quiet _ _ _ _)
  · split
    · exact .refl x
    · split
      · exact .refl x
      · dsimp only
        split
        · exact ((x.loftPut_quiet _ _).trans (Side.modFn_quiet _ _ _)).trans (Side.putIndex_quiet _ _ _ _)
        · exact (((x.loftPut_quiet _ _).trans (Side.modFn_quiet _ _ _)).trans (Side.putIndex_quiet _ _ _ _)).trans
            (Side.record_quiet _ _ _ _)

theorem Side.signalCq_quiet (x : Side) (f : Nat) : x.Quiet (x.signalCq f) := by
  unfold Side.signalCq
  split
  · split
    · exact .refl x
    · exact x.msix_quiet _ _
  · exact .refl x

/-- A completion is quiet. -/
theorem Side.completion_quiet (x : Side) (f kind ring op id st res : Nat) (l : List Word) :
    x.Quiet (x.completion f kind ring op id st res l) :=
  (x.putCompletion_quiet _ _ _ _ _ _ _ _).trans (Side.signalCq_quiet _ _)

/-- So is the completion of an accepted command. -/
theorem Side.complete_quiet (x : Side) (f : Nat) (c : Cmd) (st res : Nat) (l : List Word) : x.Quiet (x.complete f c st res l) :=
  (x.completion_quiet _ _ _ _ _ _ _ _).trans (Side.modFn_quiet _ _ _)

/-- Raising an event on a calm channel fires nothing. -/
@[simp] theorem Side.raise_fired {x : Side} (h : x.NoPins) (e : Ev) (i : Nat) : (x.raise e i).me.fired = x.me.fired :=
  (x.raise_quiet e i).fired h

end Sys2Proof.Machine
end

