-- ==== Sys2Proof/Laws/Whole.lean ====
section
/-!
SUPPORT. What the ways in which a command runs leave alone, whatever it does: the queue, the peer die, and the rule that no
trigger waits afterwards; and what a write of several bytes leaves to read.
-/

namespace Sys2Proof.Machine

/-! ## The queue -/

@[simp] theorem State.onSide_pending (s : State) (d : Ch) (f : Side → Side) : (s.onSide d f).pending = s.pending := by
  cases d <;> rfl
@[simp] theorem State.elapse_pending (s : State) (n : Now) : (s.elapse n).pending = s.pending := rfl
@[simp] theorem State.raiseBoth_pending (s : State) (e : Ev) : (s.raiseBoth e).pending = s.pending := rfl
@[simp] theorem State.hubCount_pending (s : State) (c : Ct) (i : Nat) : (s.hubCount c i).pending = s.pending := by
  unfold State.hubCount; dsimp only; split <;> rfl
@[simp] theorem State.hubDenied_pending (s : State) (d : Ch) (w : Init) : (s.hubDenied d w).pending = s.pending := by
  unfold State.hubDenied; split <;> simp
@[simp] theorem State.onServed_pending (s : State) (t i : Nat) (f : Side → Side) : (s.onServed t i f).pending = s.pending := by
  unfold State.onServed; dsimp only; split <;> simp
@[simp] theorem State.hubCut_pending (s : State) : s.hubCut.pending = s.pending := by
  unfold State.hubCut; simp

/-- Every way to run a command answers a next state and keeps the queue. -/
theorem onLive_next (n : Now) (d : Ch) (f : Side → Side) (s : State) : ∃ t, onLive n d f s = .next t ∧ t.pending = s.pending :=
  ⟨_, rfl, by simp⟩
theorem onAny_next (n : Now) (d : Ch) (f : Side → Side) (s : State) : ∃ t, onAny n d f s = .next t ∧ t.pending = s.pending :=
  ⟨_, rfl, by simp⟩
theorem onTick_next (n : Now) (d : Ch) (f : Side → Side) (s : State) : ∃ t, onTick n d f s = .next t ∧ t.pending = s.pending :=
  ⟨_, rfl, by simp⟩
theorem onHubReg_next (n : Now) (d : Ch) (w : Init) (a : Reg) (f : Side → Side) (s : State) :
    ∃ t, onHubReg n d w a f s = .next t ∧ t.pending = s.pending := by
  unfold onHubReg; dsimp only; repeat' split
  all_goals exact ⟨_, rfl, by simp⟩
theorem onPage_next (n : Now) (d : Ch) (w : Init) (hub : Bool) (page : Nat) (r : Reg) (f : Nat → Nat → Side → Side) (s : State) :
    ∃ t, onPage n d w hub page r f s = .next t ∧ t.pending = s.pending := by
  unfold onPage; split
  · exact ⟨_, rfl, rfl⟩
  · split
    · dsimp only; repeat' split
      all_goals exact ⟨_, rfl, by simp⟩
    · exact onLive_next _ _ _ _

/-! ## The peer die -/

/-- What acts on one channel's view leaves the other die alone. -/
@[simp] theorem State.onSide_peer (s : State) (d : Ch) (f : Side → Side) : (s.onSide d f).chan d.peer = s.chan d.peer := by
  cases d <;> rfl

/-! ## No trigger waits -/

theorem State.side_fired {s : State} (h : s.NoTriggerWaits) (d : Ch) : (s.side d).me.fired = [] := by
  cases d
  · exact h.1
  · exact h.2

theorem noTrigger_onSide {s : State} {d : Ch} {f : Side → Side} (h : s.NoTriggerWaits) (hf : (f (s.side d)).me.fired = []) :
    (s.onSide d f).NoTriggerWaits := by
  cases d
  · exact ⟨hf, h.2⟩
  · exact ⟨h.1, hf⟩

theorem noTrigger_elapse {s : State} (n : Now) (h : s.NoTriggerWaits) : (s.elapse n).NoTriggerWaits :=
  ⟨(Chan.elapse_fired _ _).trans h.1, (Chan.elapse_fired _ _).trans h.2⟩

theorem noTrigger_settle {s : State} {d : Ch} {f : Side → Side} (h : s.NoTriggerWaits) :
    (s.onSide d fun x => (f x).settle).NoTriggerWaits :=
  noTrigger_onSide h (Side.settle_fired _)

theorem noTrigger_raiseBoth {s : State} (e : Ev) (h : s.NoTriggerWaits) : (s.raiseBoth e).NoTriggerWaits := by
  unfold State.raiseBoth
  exact noTrigger_settle (noTrigger_settle h)

theorem Side.hbump_me (x : Side) (c : Ct) (i : Nat) : (x.hbump c i).me = x.me := by
  unfold Side.hbump; split <;> rfl

theorem noTrigger_hubCount {s : State} (c : Ct) (i : Nat) (h : s.NoTriggerWaits) : (s.hubCount c i).NoTriggerWaits := by
  have k : (s.putSide .a ((s.side .a).hbump c i)).NoTriggerWaits := by
    refine ⟨?_, h.2⟩
    show ((s.side .a).hbump c i).me.fired = []
    rw [Side.hbump_me]; exact h.1
  unfold State.hubCount; dsimp only; split
  · exact noTrigger_raiseBoth _ k
  · exact k

theorem noTrigger_hubDenied {s : State} (d : Ch) (w : Init) (h : s.NoTriggerWaits) : (s.hubDenied d w).NoTriggerWaits := by
  unfold State.hubDenied; split
  · exact noTrigger_settle h
  · exact noTrigger_raiseBoth _ (noTrigger_hubCount _ _ h)

theorem noTrigger_onServed {s : State} (t i : Nat) (f : Side → Side) (h : s.NoTriggerWaits) : (s.onServed t i f).NoTriggerWaits := by
  unfold State.onServed; split
  · exact noTrigger_settle h
  · dsimp only; exact noTrigger_settle (noTrigger_settle h)

/-! ## Bytes -/

/-- What a memory byte reads as after several bytes were written. -/
theorem Mem.get_write (m : Mem) (hm : m.wf = true) (a : Nat) (l : List Byte) (k : Nat) :
    (m.write a l).get k = if a ≤ k ∧ k < a + l.length then l.getD (k - a) 0 else m.get k := by
  induction l generalizing m a with
  | nil => simp only [Mem.write, List.length_nil]; rw [if_neg (by omega)]
  | cons v t ih =>
    simp only [Mem.write]
    rw [ih _ (Mem.wf_put m a v hm), Mem.get_put _ _ _ _ hm]
    by_cases h1 : k = a
    · subst h1; simp
    · by_cases h2 : a + 1 ≤ k ∧ k < a + 1 + t.length
      · rw [if_pos h2, if_pos (by simp; omega)]
        obtain ⟨j, rfl⟩ : ∃ j, k = a + 1 + j := ⟨k - a - 1, by omega⟩
        have e1 : a + 1 + j - a = j + 1 := by omega
        have e2 : a + 1 + j - (a + 1) = j := by omega
        rw [e1, e2]; simp
      · rw [if_neg h2, if_neg h1, if_neg (by simp; omega)]

/-- A set with a member added. -/
theorem NatSet.contains_add (l : NatSet) (k j : Nat) : (l.add k).contains j = (l.contains j || j == k) := by
  rw [Bool.eq_iff_iff]
  simp only [List.contains_iff_mem, Bool.or_eq_true, beq_iff_eq]
  induction l with
  | nil => simp [NatSet.add]
  | cons a t ih =>
    simp only [NatSet.add]; split
    · simp only [List.mem_cons]; tauto
    · split
      · subst_vars; simp only [List.mem_cons]; tauto
      · simp only [List.mem_cons, ih]; tauto

end Sys2Proof.Machine
end

