-- ==== Sys2Proof/WellFormed.lean ====
section
/-!
DEFINITION. Which commands can come to the module at all: every operand fits the field, the wire or the address space
that carries it. A check refuses by name. The meanings do not lean on it: they are total on every command.
-/

namespace Sys2Proof

/-- Why a command is ill-formed. -/
inductive Ill where
  /-- A CMD_ID of more than 32 bits (R707). -/
  | cmdId
  /-- A page number outside the 64 MiB of a region (R859). -/
  | page
  /-- A register offset outside its region, or not word-aligned (R859, R862). -/
  | offset
  /-- A number wider than the field that carries it. -/
  | number
  /-- A transfer of no byte, or of more than its bus moves at once. -/
  | length
  /-- An Ethernet frame whose addresses, tags or type do not fit their fields. -/
  | frame
  /-- A CAN frame whose identifier, length or flags its format does not have (R595). -/
  | can
  /-- A plan or paging field that does not fit its register (R303). -/
  | plan
  /-- A bridle value that does not fit its register (R450). -/
  | bridle
  /-- An accumulator that a unit does not have (R142). -/
  | upset
  /-- A raster job without work, or with compositor fields that do not fit (R535, R552). -/
  | job
deriving DecidableEq, Repr

/-- n fits k bits. -/
def fits (k n : Nat) : Bool := decide (n < 2 ^ k)

/-- A length in [1, m]. -/
def lenOk (m n : Nat) : Bool := decide (1 ≤ n) && decide (n ≤ m)

/-- The payload lengths of a CAN format. -/
def CanFmt.lenOk : CanFmt → Nat → Bool
  | .classical, n => decide (n ≤ 8)
  | .fd, n => decide (n ≤ 8) || [12, 16, 20, 24, 32, 48, 64].contains n
  | .xl, n => decide (1 ≤ n) && decide (n ≤ 2048)

/-- A CAN frame that can be on the wire. -/
def CanFrame.ok (f : CanFrame) : Bool :=
  f.fmt.lenOk f.data.length && fits (if f.ide then 29 else 11) f.id && (!f.rtr || f.fmt == .classical) && (!f.brs || f.fmt == .fd)
    && (!f.ide || f.fmt != .xl)

/-- An Ethernet frame that can be on the wire. -/
def EthFrame.ok (f : EthFrame) : Bool :=
  fits 48 f.dst && fits 48 f.src && fits 16 f.etype && (f.tag.all fun t => fits 12 t.1 && fits 3 t.2) && f.rtag.all (fits 16)
    && (f.ptp.all fun m => fits 8 m.domain && fits 16 m.seq)
    && f.acf.all fun a => fits 64 a.stream && fits 32 a.time && a.msgs.all fun m => fits 5 m.bus && m.frame.ok

/-- A bridle value that fits its registers. -/
def BridleCfg.ok (c : BridleCfg) : Bool :=
  decide (c.inst < 20) && decide (c.cls < 4) && decide (c.gprio < 16) && decide (c.uprio < 4) && fits 19 c.loftRate
    && fits 17 c.loftBurst && fits 19 c.yardRate && fits 17 c.yardBurst && fits 16 c.lat

/-- A paging configuration that fits its registers. -/
def PageCfg.ok (p : PageCfg) : Bool :=
  fits 32 p.stride && fits 32 p.ropeFreq && fits 32 p.yardBase && fits 18 p.yardPages && fits 64 p.loftBase && fits 30 p.loftPages
    && fits 64 p.shedBase && fits 30 p.shedPages && fits 9 p.attnPages && fits 64 p.seqTable && decide (p.buckets.length ≤ 8)
    && p.buckets.all (fits 11)

/-- A mirror that fits its registers. -/
def MirrorCfg.ok (m : MirrorCfg) : Bool := fits 5 m.bank && fits 17 m.line && fits 18 m.lines && fits 30 m.src

/-- An admission that fits its registers. -/
def AdmitReq.ok (q : AdmitReq) : Bool :=
  fits 8 q.engines && fits 32 q.banks && fits 16 q.loftBase && fits 16 q.loftUnits && fits 64 q.shedBase && fits 64 q.shedSize
    && fits 64 q.planBase && fits 4 q.pdmas && q.paging.all PageCfg.ok && q.mirrors.all MirrorCfg.ok && decide (q.recorded.length ≤ 20) && fits 64 q.fAct

/-- A raster or compositor job that has work (R535, R552). -/
def GfxJob.ok (j : GfxJob) : Bool :=
  (j.pass.all fun p => (p.binned.all fun b => lenOk 65536 b.1 && lenOk 65536 b.2)
      && p.targets.all fun t => t.off % 4096 == 0 && decide (1 ≤ t.width) && [1, 2, 4, 8, 16].contains t.bpt)
    && j.comp.all fun k => fits 64 k.frame && fits 64 k.addr && fits 32 k.budget && decide (2 ≤ k.cores) && decide (k.cores ≤ 12)

/-- The name of the first check that fails. -/
def firstIll : List (Bool × Ill) → Option Ill
  | [] => none
  | (ok, e) :: t => if ok then firstIll t else some e

/-- A command that names an accepted ring command. -/
def Instr.ref : Instr → Option CmdRef
  | .gfxJob _ _ r _ | .compJobStart _ _ r | .compLatestStart _ _ r | .jobCommit _ _ r _ _ | .admission _ _ r _ | .remove _ _ r _
  | .chanCfg _ _ r _ | .seqSubmit _ _ r | .seqAbort _ _ r | .instanceCfg _ _ r | .instanceReset _ _ r | .iovMap _ _ r
  | .logMask _ _ r | .imageUpdate _ _ r | .attest _ _ r | .lifecycle _ _ r | .replay _ _ r | .nop _ _ r | .abort _ _ r => some r
  | _ => none

/-- A command that names a register page. -/
def Instr.pageNo : Instr → Option Nat
  | .blkQuiesce _ _ _ _ p _ | .blkDisable _ _ _ _ p _ | .softReset _ _ _ _ p | .evtRawClear _ _ _ _ p _ _ | .evtEnWrite _ _ _ _ p _
  | .evtSet _ _ _ _ p _ | .cntOvfClear _ _ _ _ p _ _ | .lock _ _ _ _ p => some p
  | _ => none

/-- An offset in a region of the register space. -/
def RegSpace.offOk (sp : RegSpace) (off : Nat) : Bool :=
  off % 4 == 0 && match sp with
    | .rm => fits 12 off
    | _ => fits 26 off

/-- The checks of the operands that only some commands have. -/
def Instr.checks : Instr → List (Bool × Ill)
  | .csiFrameStart _ _ _ _ num => [(fits 16 num, .number)]
  | .csiLine _ _ _ _ dt p _ => [(fits 6 dt, .number), (fits 16 p.length, .length)]
  | .gfxJob _ _ _ j => [(j.ok, .job)]
  | .ethFrameRx _ _ _ f _ _ => [(f.ok, .frame)]
  | .fdbAgeing _ _ mac vid => [(fits 48 mac && fits 12 vid, .number)]
  | .canFrameRx _ _ _ f _ => [(f.ok, .can)]
  | .cbbNearWrite _ _ _ off l => [(fits 28 off, .offset), (lenOk 4096 l.length, .length)]
  | .cbbNearRead _ _ _ off n | .cbbReadReissue _ _ _ off n => [(fits 28 off, .offset), (lenOk 4096 n, .length)]
  | .cbbAtomic _ _ _ off _ => [(fits 28 off, .offset)]
  | .workUnitDone _ _ _ l => [(l.all fun u => decide (u.row < 128) && decide (u.col ≤ 128), .upset)]
  | .admission _ _ _ q => [(q.ok, .plan), (q.bridles.all BridleCfg.ok, .bridle)]
  | .chanCfg _ _ _ l => [(l.all BridleCfg.ok, .bridle)]
  | .startupSelftestDone _ _ _ l => [(l.all AdmitReq.ok, .plan), (l.all fun q => q.bridles.all BridleCfg.ok, .bridle)]
  | .syncReceived _ _ _ _ gm _ _ _ | .announceReceived _ _ _ _ gm => [(fits 64 gm, .number)]
  | .yardAccess _ _ _ _ a n _ _ => [(fits 28 a, .offset), (lenOk 4096 n, .length)]
  | .apertureWrite _ _ _ off l _ _ => [(fits 36 off, .offset), (lenOk 4096 l.length, .length)]
  | .apertureRead _ _ _ off n => [(fits 36 off, .offset), (lenOk 4096 n, .length)]
  | .lowWordRead _ _ _ sp off | .registerWrite _ _ _ sp off _ => [(sp.offOk off, .offset)]
  | _ => []

/-- Whether a command is well formed: `none`, or the name of the first check that refuses it. -/
def Instr.illFormed (i : Instr) : Option Ill :=
  firstIll ([((i.ref.all fun r => fits 32 r.id), Ill.cmdId), (i.pageNo.all (fits 14), Ill.page)] ++ i.checks)

end Sys2Proof
end

