-- ==== Sys2Proof/Tests/Slice0.lean ====
section
/-!
SUPPORT. Tests: an ill-formed command for each check; for the statements, a state and operands that meet the hypotheses of
each clause, at the ends of their ranges where they have any; a few single steps worked out by hand from the spec.
-/

set_option Elab.async false

namespace Sys2Proof.Tests

open Sys2Proof Sys2Proof.Machine

/-! ## Small states -/

/-- No time passes. -/
def now : Now := ⟨0, 0⟩

/-- The state after reset with every domain of die A on and its loft zeroed, some of its registers set, and a change. -/
def built (l : List (Reg × Nat)) (f : Side → Side) : State :=
  State.reset.onSide .a fun x => f (l.foldl (fun x e => x.wrN e.1 e.2)
    ((x.wrN Reg.PWR_DOM_STAT 0xFFFFFF).modMem fun m => { m with wipe := [] }))

/-- Channel A's view of it. -/
def view (l : List (Reg × Nat)) (f : Side → Side := id) : Side := (built l f).at_ now .a

/-- The channel at an instant of MT. -/
def atMt (t : Nat) (x : Side) : Side := { x with me := { x.me with time := { x.me.time with mt := t } } }

/-- A command of the physical function in its ring 0. -/
def ref0 : CmdRef := { fn := 0, ring := 0, id := 7 }

/-- An accepted command with an opcode and the words from word 2 on. -/
def cmdOf (op : Nat) (l : List Word) : Cmd :=
  { ring := 0, id := 7, op := op, auth := false, words := [word op, 7] ++ l, ext := [], checked := true, handed := false, fixed := false }

/-- A function that has accepted it. -/
def holding (op : Nat) (l : List Word) (x : Side) : Side := x.modFn 0 fun s => { s with accepted := [cmdOf op l] }

/-- An empty Ethernet frame. -/
def frame0 : EthFrame := { dst := 0, src := 0, tag := none, rtag := none, etype := 0x9000, body := [], acf := none, ptp := none }

/-- A stamp pair at zero. -/
def stamp0 : Stamp := { vt := 0, mt := 0, st := 0, valid := false }

/-- FP-PLAN, which owns the blocks that no instance owns. -/
def fpPlan : Init := .pair 1

/-! ## Well-formedness -/

theorem ill_cmdId : (Instr.nop now .a { fn := 0, ring := 0, id := 2 ^ 32 }).illFormed = some .cmdId := by decide +kernel
theorem ill_page : (Instr.lock now .a (.pf .a) false (2 ^ 14)).illFormed = some .page := by decide +kernel
theorem ill_offset : (Instr.registerWrite now .a (.pf .a) .die 0x42 0).illFormed = some .offset := by decide +kernel
theorem ill_number : (Instr.csiFrameStart now .a 0 0 65536).illFormed = some .number := by decide +kernel
theorem ill_length : (Instr.apertureRead now .a 0 0 0).illFormed = some .length := by decide +kernel
theorem ill_frame :
    (Instr.ethFrameRx now .a 0 { dst := 2 ^ 48, src := 0, tag := none, etype := 0, rtag := none, acf := none, body := [], ptp := none } true none).illFormed
      = some .frame := by decide +kernel
theorem ill_can : (Instr.canFrameRx now .a 0 { fmt := .classical, ide := false, id := 0x800, rtr := false, brs := false, data := [] }
    none).illFormed = some .can := by decide +kernel
theorem ill_upset : (Instr.workUnitDone now .a 0 [⟨0, 128, 0, 1, false⟩]).illFormed = some .upset := by decide +kernel
/-- A BINNED pass with no tile. -/
def pass0 : Pass := { binned := some (0, 1), targets := [], state := 0, prims := [] }

theorem ill_job : (Instr.gfxJob now .a ref0 { ctx := 0, groups := 0, pass := some pass0, comp := none }).illFormed = some .job := by
  decide +kernel

/-- A bridle at the edge of its fields. -/
def bridle0 : BridleCfg :=
  { inst := 12, cls := 3, gprio := 15, uprio := 3, loftRate := 2 ^ 19 - 1, loftBurst := 2 ^ 17 - 1, yardRate := 1, yardBurst := 1,
    lat := 65535 }

/-- A small admission of stall 0. -/
def plan0 : AdmitReq :=
  { stall := 0, served := false, duplex := false, engines := 1, banks := 1, loftBase := 0, loftUnits := 1, export_ := 0, import_ := 0,
    shedBase := 0, shedSize := 0, planBase := 0, pdmas := 0, paging := none, bridles := [bridle0], recorded := [], mirrors := [], fAct := 1 }

theorem ill_bridle : (Instr.admission now .a ref0 { plan0 with bridles := [{ bridle0 with inst := 20 }] }).illFormed = some .bridle := by
  decide +kernel
theorem ill_plan : (Instr.admission now .a ref0 { plan0 with engines := 256 }).illFormed = some .plan := by decide +kernel
theorem well_plan : (Instr.admission now .a ref0 plan0).illFormed = none := by decide +kernel

/-! ## Sensor ingress and fusion -/

/-- Fusion enabled with an image whose sensors have these KIND words (FUS_BANK0 is tile buffer 0 after reset). -/
def fusView (l : List (Reg × Nat)) (kinds : List (Nat × Byte)) (f : Side → Side := id) : Side :=
  view ([(Reg.FUS_CTRL, 1)] ++ l) fun x => f (kinds.foldl (fun x e => x.physPut 0 0 (128 + 128 * e.1) [e.2]) x)

/-- A sample in reception since MT 0. -/
def intake0 : Intake :=
  { seq := 1, vt := 0, mt := 0, own := 0, count := 0, bytes := 0, crc := 0, bad := false, inst := 0, fault := false, last := 0 }

theorem meets_CameraFramesComplete_on :
    (fusView [] [(0, 1)]).live = true ∧ (fusView [] [(0, 1)]).snsOn = true ∧ (fusView [] [(0, 1)]).cameraAt 0 0 = some 0 := by decide +kernel
theorem meets_CameraFramesComplete_none :
    (view []).live = true ∧ (view []).snsOn = true ∧ (view []).cameraAt 3 3 = none := by decide +kernel
theorem meets_CameraFramesComplete_vc : (view []).live = true ∧ (view []).snsOn = true ∧ 4 ≤ (4 : Fin 16).val := by decide +kernel

theorem meets_CameraLinesComplete_line :
    (view []).live = true ∧ (view []).snsOn = true ∧ planesOf 0x2A 2 ≠ [] ∧ (0x2A : Nat) ≠ 2 ∧ (0x2A : Nat) ≠ 3 ∧ (3 : Fin 16).val < 4 :=
  ⟨by decide +kernel, by decide +kernel, List.cons_ne_nil _ _, by decide, by decide, by decide⟩
theorem meets_CameraLinesComplete_unsupported : planesOf 0x3F 2 = [] ∧ (0x3F : Nat) ≠ 2 ∧ (0x3F : Nat) ≠ 3 := ⟨rfl, by decide, by decide⟩

theorem meets_CameraFramesComplete_timeout :
    let x := fusView [] [(0, 1)] fun x => atMt 33333333 (x.modSen 0 fun q => { q with intake := some intake0 })
    x.live = true ∧ x.snsOn = true ∧ x.cameraAt 0 0 = some 0 ∧ (x.sen 0).intake = some intake0 ∧ intake0.mt + x.me.cad.period ≤ x.mt := by
  decide +kernel
theorem meets_CameraFramesComplete_link :
    (view []).flag (Reg.SNS_STAT.inst 0) 0 = !true ∧ (view [(Reg.SNS_STAT.inst 3, 1)]).flag (Reg.SNS_STAT.inst 3) 0 = !false := by
  decide +kernel

/-- An IMU on stamp unit 0: sensor 0, its counter at byte b of a burst, with an edge being read. -/
def imuView (b : Byte) : Side := fusView [(Reg.SNS_STAT.inst 4, 2)] [(0, 2)] fun x => x.physPut 0 0 (128 + 4 * 17 + 1) [b]

theorem meets_SamplesComplete_edge :
    (view []).live = true ∧ (view []).snsOn = true ∧ (view []).me.recorder.replay = none
      ∧ (view []).flag (Reg.SNS_STAT.inst (4 + 1)) 1 = false ∧ (imuView 0).flag (Reg.SNS_STAT.inst 4) 1 = true
      ∧ (imuView 0).me.recorder.replay = none := by decide +kernel
theorem meets_SamplesComplete_burst :
    (imuView 0).live = true ∧ (imuView 0).snsOn = true ∧ (imuView 0).listening = true ∧ (imuView 0).imuAt 0 = some 0
      ∧ (imuView 0).sf 0 17 15 8 ≠ 0xFF ∧ (imuView 0xFF).imuAt 0 = some 0 ∧ (imuView 0xFF).listening = true
      ∧ (imuView 0xFF).flag (Reg.SNS_STAT.inst 4) 1 = true ∧ (imuView 0xFF).sf 0 17 15 8 = 0xFF := by decide +kernel

theorem meets_SamplesComplete_ethernet :
    let x := fusView [] [(0, 3)] fun x => x.modNet fun k => { k with sensorIn := [(0, frame0, stamp0, 0)] }
    x.live = true ∧ x.snsOn = true ∧ x.me.net.sensorIn = [(0, frame0, stamp0, 0)] ∧ x.listening = true ∧ x.ethAt 0 = some 0 := by
  decide +kernel

/-- A stage of frame 0. -/
def stage0 : Stage := { n := 0, tgt := 0, pose := false, contrib := [], faults := [], ring := [] }

theorem meets_FusionStagesComplete :
    let x := fun s : Nat => view [] fun x => { x with me := { x.me with
      cad := { x.me.cad with slot := s }, fus := { x.me.fus with proj := some stage0, trk := some stage0 } } }
    (x 0).live = true ∧ (x 0).me.fus.proj = some stage0 ∧ (x 0).me.fus.trk = some stage0 ∧ (x 0).stageOver stage0 ((x 0).pf 0 31 21) = false
      ∧ (x 0).stageOver stage0 ((x 0).pf 1 20 10) = false ∧ (x 96).me.fus.proj = some stage0 ∧ (x 96).me.fus.trk = some stage0
      ∧ (x 96).live = true ∧ (x 96).stageOver stage0 ((x 96).pf 0 31 21) = true ∧ (x 96).stageOver stage0 ((x 96).pf 1 20 10) = true := by
  decide +kernel

theorem meets_FusionStagesComplete_control :
    (view []).live = true ∧ (view []).may fpPlan Reg.FUS_SWAP = true ∧ (view []).may fpPlan Reg.FUS_CTRL = true ∧ bit (1 : Word) 0 = true
      ∧ (view []).fusOn = (bit (0 : Word) 0 && !(view []).flag Reg.SAFE_UNIT_FENCE 4)
      ∧ (view []).fusOn ≠ (bit (1 : Word) 0 && !(view []).flag Reg.SAFE_UNIT_FENCE 4) := by decide +kernel

/-! ## Raster cluster and display -/

/-- Contexts 0 and 1 READY and enabled, a GFX_JOB accepted. -/
def gfxView (l : List (Reg × Nat)) (f : Side → Side := id) : Side :=
  view ([(Reg.GFX_CTX_STAT.inst 1, 1), (Reg.GFX_CTX_CFG.inst 1, 1), (Reg.GFX_CTX_STAT.inst 2, 1), (Reg.GFX_CTX_CFG.inst 2, 1)] ++ l)
    fun x => f (holding 6 [] x)

/-- A job of one workgroup in context 1, and its queued form; a compositor job of pipe 0 for display frame f. -/
def gfxJob1 : GfxJob := { ctx := 1, groups := 1, pass := none, comp := none }
def job1 (left : Nat) : GJob :=
  { fn := 0, ring := 0, id := 7, ctx := 1, left := left, running := 0, pass := none, tiles := none, owners := [], next := 0, ended := [],
    frags := 0, comp := none, started := false, abort := false }
def comp0 (f : Nat) : CompJob := { pipe := 0, frame := f, plane := 0, addr := 0, budget := 10, cores := 2 }
def compJob (f : Nat) (started : Bool) : GJob :=
  { fn := 0, ring := 0, id := 7, ctx := 0, left := 0, running := 0, pass := none, tiles := none, owners := [], next := 0, ended := [],
    frags := 0, comp := some (comp0 f), started := started, abort := false }

/-- A view with that job in the cluster. -/
def jobView (j : GJob) (l : List (Reg × Nat) := []) : Side := gfxView l fun x => x.modGfx fun g => { g with jobs := [j] }

theorem meets_WorkgroupsComplete_job :
    (gfxView []).live = true ∧ (gfxView []).Takes ref0 0x06 (cmdOf 6 []) ∧ ((gfxView []).me.gfx.jobs.any fun k => k.is ref0) = false
      ∧ (gfxView []).ctxState ((gfxView []).jobCtx ref0 gfxJob1) ≠ 0
      ∧ (gfxJob1.comp.isSome = true ↔ (gfxView []).jobCtx ref0 gfxJob1 = 0)
      ∧ (gfxView []).ctxState ((gfxView []).jobCtx ref0 { gfxJob1 with ctx := 2 }) = 0 := by unfold Side.Takes; decide +kernel

/-- A core's work, since MT 0. -/
def work1 : CoreRun := { fn := 0, ring := 0, id := 7, ctx := 1, at_ := 0, tile := none, batch := 0 }

theorem meets_WorkgroupsComplete_dispatch :
    let x := jobView (job1 1)
    x.live = true ∧ x.coreFree 11 = true ∧ x.nextCtx 11 = some 1 ∧ x.ctxJob 1 11 = some (job1 1) := by decide +kernel
theorem meets_WorkgroupsComplete_run :
    let x := gfxView [] fun x => atMt 200000 (x.modGfx fun g => { g with cores := [(2, work1)], claimed := [2] })
    x.live = true ∧ x.workOn 2 = some work1 ∧ x.me.gfx.claimed.contains 2 = true ∧ work1.at_ + 200000 ≤ x.mt
      ∧ x.robFits work1 [] = true := by decide +kernel

theorem meets_WorkgroupsComplete_same :
    sameEnds .a 2 [] = false ∧ sameEnds .a 2 [.workgroupEnd now .a 11 [] ⟨[], [], []⟩, .workgroupEnd now .a 2 [] ⟨[], [], []⟩] = true := by
  decide +kernel

/-- An IMMEDIATE pass of 65 primitives over one block, and a fragment of the last one. -/
def pass65 : Pass := { binned := none, targets := [], state := 0, prims := List.replicate 65 [(0, 0)] }
def frag64 : Frag := { prim := 64, x := 7, y := 7, data := [] }

/-- The reorder buffer of partition 0 with k fragments, and the batch of the last primitive at its end. -/
def robView (k : Nat) : Side :=
  gfxView [] fun x => x.modGfx fun g => { g with
    jobs := [{ job1 0 with running := 1, pass := some pass65 }], cores := [(2, { work1 with batch := 1 })]
    rob := List.replicate k { fn := 0, ring := 0, id := 7, frag := frag64 } }

theorem meets_WorkgroupsComplete_full :
    (robView 4095).robFits { work1 with batch := 1 } [frag64] = true ∧ (robView 4096).robFits { work1 with batch := 1 } [frag64] = false
      ∧ (robView 4096).live = true ∧ (robView 4096).workOn 2 = some { work1 with batch := 1 } := by decide +kernel

theorem meets_GfxJobsComplete_start :
    (jobView (compJob 10 false)).live = true ∧ (jobView (compJob 10 false)).jobOf ref0 = some (compJob 10 false)
      ∧ (compJob 10 false).comp = some (comp0 10)
      ∧ (jobView (compJob 10 false) [(Reg.DPY_H.inst 0, 0x07E907E8), (Reg.DPY_V.inst 0, 0x04390438), (Reg.DPY_PCLK.inst 0, 148500)]).compReady
        (compJob 10 false) (comp0 10) = true
      ∧ (jobView (compJob 10 false) [(Reg.DPY_H.inst 0, 0x07E907E8), (Reg.DPY_V.inst 0, 0x04390438), (Reg.DPY_PCLK.inst 0, 148500)]).jobOf
        ref0 = some (compJob 10 false) := by decide +kernel
theorem meets_GfxJobsComplete_late :
    let x := jobView (compJob 0 false)
    x.jobOf ref0 = some (compJob 0 false) ∧ (compJob 0 false).started = false
      ∧ x.frameAt (comp0 0).pipe (comp0 0).frame - (comp0 0).budget ≤ x.vt := by decide +kernel
theorem meets_GfxJobsComplete_commit :
    (jobView (compJob 0 true)).jobOf ref0 = some (compJob 0 true) ∧ (compJob 0 true).started = true
      ∧ (jobView (job1 0)).jobOf ref0 = some (job1 0) ∧ (job1 0).comp = none ∧ (jobView (job1 0)).rasterOver (job1 0) = true := by
  decide +kernel

/-- Pipe 0 with a valid timing of 640 × 480 (R915). -/
def vga : List (Reg × Nat) :=
  [(Reg.DPY_H, 0x03200280), (Reg.DPY_HSYNC, 0x00600290), (Reg.DPY_V, 0x020D01E0), (Reg.DPY_VSYNC, 0x000201EA), (Reg.DPY_PCLK, 25175),
   (Reg.DPY_LINK_CFG, 1)]

theorem meets_DisplayControlWrites :
    (view vga).live = true ∧ (view vga).may (.pair 3) (Reg.DPY_CTRL.inst 0) = true ∧ bit (1 : Word) 0 = true
      ∧ (view []).may (.pair 3) (Reg.DPY_CTRL.inst 0) = true
      ∧ (view []).timingOk 0 (fld 1 2 1) = false ∧ (view vga).timingOk 0 (fld 1 2 1) = true ∧ (view vga).pipeOn 0 = false
      ∧ (view vga).outputTaken 0 (fld 1 2 1) = false
      ∧ (view (vga ++ [(Reg.DPY_CTRL.inst 1, 1)])).outputTaken 0 (fld 1 2 1) = true
      ∧ (view (vga ++ [(Reg.DPY_CTRL.inst 1, 1)])).timingOk 0 (fld 1 2 1) = true ∧ (view (vga ++ [(Reg.DPY_CTRL.inst 1, 1)])).pipeOn 0 = false
      ∧ (view (vga ++ [(Reg.DPY_CTRL.inst 1, 1)])).may (.pair 3) (Reg.DPY_CTRL.inst 0) = true
      ∧ bit (0 : Word) 0 = false ∧ (view (vga ++ [(Reg.DPY_CTRL, 1)])).pipeOn 0 = true
      ∧ (view (vga ++ [(Reg.DPY_CTRL, 1)])).isDp 0 = true
      ∧ (view (vga ++ [(Reg.DPY_CTRL, 1)])).may (.pair 3) (Reg.DPY_CTRL.inst 0) = true := by decide +kernel

theorem meets_DisplayPipesComplete :
    let x := view (vga ++ [(Reg.DPY_CTRL, 1)])
    let y := view (vga ++ [(Reg.DPY_CTRL, 1)]) fun x => x.modDpy 0 fun s => { s with start := some (0, 0) }
    x.live = true ∧ x.pipeOn 0 = true ∧ x.pageOn (Reg.DPY_CTRL.inst 0) = true ∧ x.frameDue 0 = true ∧ x.isDp 0 = true ∧ x.pipeOn 3 = false
      ∧ y.pipeOn 0 = true ∧ (y.dpy 0).start = some (0, 0) ∧ x.may (.pair 3) (plReg Reg.PL_FLIP 3 5) = true := by decide +kernel

/-- A write of region r of telltale page 4. -/
def ttWrite (x : Side) (r : Nat) (q : TtReg) (v : Word) : Side :=
  (x.store (ttReg 0 r q) v).modDpy 0 fun t => { t with wrote := t.wrote.put r x.mt }

theorem meets_TelltalesComplete_region :
    (view []).live = true ∧ (view []).may (.pair 2) (ttReg 0 15 .rctrl) = true ∧ (ttWrite (view []) 15 .rctrl 0).ttBad 0 = false
      ∧ (ttWrite (view []) 15 .rctrl 1).ttBad 0 = true := by decide +kernel
/-- Pipe 0 with a live region of one pixel that shows its background, its expected check code c. -/
def ttView (c : Word) : Side :=
  view [(Reg.TT_CTRL.inst 4, 1), (Reg.TT_STAT.inst 4, 2 ^ 18)] fun x => x.modDpy 0 fun s => { s with
    start := some (0, 0), regions := [(0, { TtSt.zero with rctrl := 1, crcOff := c })] }

theorem meets_TelltalesComplete_check :
    (ttView 0).live = true ∧ (ttView 0).ttLive 0 0 = true ∧ (ttView (crc32c [0, 0, 0])).ttLive 0 0 = true
      ∧ (ttView (crc32c [0, 0, 0])).live = true
      ∧ crc32c ((ttView 0).ttOutput ((ttView 0).ttRegion 0 0) []) ≠ ((ttView 0).ttRegion 0 0).expected
      ∧ crc32c ((ttView (crc32c [0, 0, 0])).ttOutput ((ttView (crc32c [0, 0, 0])).ttRegion 0 0) [])
        = ((ttView (crc32c [0, 0, 0])).ttRegion 0 0).expected := by decide +kernel
theorem meets_TelltalesComplete_stall :
    let x := view (vga ++ [(Reg.TT_CTRL.inst 4, 1)]) fun x => atMt 40000000 (x.modDpy 0 fun s => { s with ttFrom := some 0 })
    x.live = true ∧ x.flag (Reg.TT_CTRL.inst (4 + 0)) 0 = true ∧ x.flag (Reg.TT_STAT.inst (4 + 0)) 17 = false
      ∧ (x.dpy 0).ttFrom = some 0 ∧ x.dotTime 0 (x.frameDots 0) ≠ 0 ∧ 0 + 2 * x.dotTime 0 (x.frameDots 0) ≤ x.mt := by decide +kernel
theorem meets_TelltalesComplete_atlas :
    let x := view [(Reg.TT_CTRL.inst 4, 1), (Reg.LOFT_SEAL, 0x00010000)]
    x.live = true ∧ x.flag (Reg.TT_CTRL.inst (4 + 0)) 0 = true ∧ x.flag (Reg.TT_STAT.inst (4 + 0)) 18 = false
      ∧ x.atlasSealed 0 = true ∧ x.pageOn (Reg.TT_CTRL.inst (4 + 0)) = true := by decide +kernel

/-! ## Network and gateway -/

/-- The network registers of the spec's instance 9; port 0 in use with its link up; an image in force. -/
def netView (l : List (Reg × Nat)) (f : NetSt → NetSt := id) (t : Nat := 0) : Side :=
  view ([(Reg.NET_PORT_CFG.inst 0, 0x05EE0003), (Reg.NET_PORT_STAT.inst 0, 3)] ++ l) fun x => atMt t (x.modNet f)

/-- A frame as the switch holds it. -/
def held0 : NetFrame := { frame := frame0, cls := 7, mask := 1, res := none, in_ := none, held := false }

theorem meets_SwitchFramesComplete_rx :
    (netView []).live = true ∧ (netView []).portUp 0 = true ∧ (netView []).portUp 8 = true ∧ wireBytes frame0 ≤ (netView []).maxFrame 0
      ∧ (netView []).maxFrame 0 < wireBytes { frame0 with body := List.replicate 1600 0 } ∧ (netView []).netLoaded = false
      ∧ (netView [(Reg.NET_STAT.inst 9, 4)]).netLoaded = true ∧ (netView [(Reg.NET_STAT.inst 9, 4)]).portUp 0 = true := by decide +kernel
/-- A Sync of domain 0 in a frame. -/
def ptp0 : PtpMsg := { kind := .sync, gptp := true, domain := 0, seq := 1, rate := 0, corr := 0, carrier := 0, check := 0, twoStep := true, origin := 0 }

theorem meets_SwitchFramesComplete_ptp :
    let x := netView [(Reg.TIME_CTRL, 1), (Reg.NET_STAT.inst 9, 4)]
    x.live = true ∧ x.portUp 0 = true ∧ wireBytes { frame0 with ptp := some ptp0 } ≤ x.maxFrame 0 ∧ x.ptpBase ptp0 = some false
      ∧ frame0.ptp.bind x.ptpBase = none ∧ wireBytes frame0 ≤ x.maxFrame 0 ∧ x.netLoaded = true := by decide +kernel
theorem meets_SwitchFramesComplete_tx :
    let x := netView [] (fun k => { k with ports := [(0, { queue := [held0], tx := [] })] })
    let t : NetTx := { item := held0, left := 6720, at_ := 0, stomp := false }
    let y := netView [] (fun k => { k with ports := [(0, { queue := [], tx := [t] })] }) 672
    x.portUp 0 = true ∧ x.txReady 0 = some held0 ∧ (y.port 0).tx = t :: [] ∧ t.paused = false ∧ t.left ≤ 10 * (y.mt - t.at_) := by decide +kernel

/-- An image whose gate lists have two entries: port 7 with an interval of 1, stream gate 63 too. -/
def gates0 : Mem :=
  (([(imgGate 7 0 + 1, (4 : Byte)), (imgGate 7 0 + 4, 1), (imgSGate 63 0 + 4, 1), (imgSGate 63 1 + 4, 1)] : List (Nat × Byte)).foldl
    (fun m e => m.put e.1 e.2) [])

theorem meets_SwitchTimersComplete_gates :
    let x := netView [] (fun k => { k with gates := some gates0, pos := [(7, 0, 0), (127, 0, 0)] }) 1
    x.live = true ∧ x.me.net.gates = some gates0 ∧ x.gatePos 7 = some (0, 0) ∧ 0 + 1 < imgField gates0 (imgGate 7 0) 0 16 9
      ∧ 0 + (imgWord gates0 (imgGate 7 0) 1).toNat ≤ x.mt ∧ x.gatePos (64 + 63) = some (0, 0) ∧ 0 + 1 < sgateLen gates0 63
      ∧ 0 + (imgWord gates0 (imgSGate 63 0) 1).toNat ≤ x.mt := by decide +kernel
theorem meets_SwitchTimersComplete_recovery :
    let r : RecvSt := { last := 0, hist := [], any := false, at_ := 0 }
    let x := netView [] (fun k => { k with recv := [(255, r)] })
    Tbl.get RecvSt.fresh x.me.net.recv 255 = r ∧ r.any = false ∧ r.at_ + imgField x.me.net.img (imgStream 255) 5 9 0 * 1000000 ≤ x.mt := by
  decide +kernel
theorem meets_SwitchTimersComplete_link :
    (netView []).pageOn (Reg.NET_PORT_CFG.inst 0) = true ∧ (netView []).portMode 0 ≠ 0
      ∧ (netView []).flag (Reg.NET_PORT_STAT.inst 0) 0 = !false := by decide +kernel

theorem meets_SwitchTimersComplete_image :
    (view []).live = true ∧ (view []).may fpPlan (Reg.NET_IMG_LOAD.inst 9) = true ∧ bit (1 : Word) 0 = true
      ∧ (netView [] fun k => { k with load := some (0, false) }).me.net.load = some (0, false) := by decide +kernel

/-- A classical CAN frame. -/
def can0 : CanFrame := { fmt := .classical, ide := false, id := 0x7FF, rtr := false, brs := false, data := [1] }

theorem meets_CanFramesComplete :
    let x := view [(Reg.CANG_STAT.inst 15, 0x3FD)] fun x => x.modNet fun k => { k with canq := [(15, [can0])] }
    x.live = true ∧ x.canOn 15 = true ∧ takeLeast (x.canQueue 15) = some (can0, []) ∧ x.tec 15 + tecStep .rx ≤ 255
      ∧ 255 < x.tec 15 + tecStep .tx := by decide +kernel
theorem meets_CanFramesComplete_cycle :
    let x := view [(Reg.CANG_STAT.inst 15, 1)]
    let y := view [(Reg.CANG_STAT.inst 15, 1)] fun x => x.modNet fun k => { k with canEarly := [⟨15, can0, none⟩] }
    let l := canCycle .a [.canFrameRx now .a 15 can0 none, .canFrameRx ⟨1, 0⟩ .a 0 can0 none]
    x.live = true ∧ x.canOn 15 = true ∧ x.me.net.canEarly = [] ∧ l = [⟨15, can0, none⟩] ∧ x.canTakes 15 can0 = true ∧ (∀ q ∈ l, (15 : Fin 16).val ≤ q.c.val)
      ∧ now.on .a = 0 ∧ y.live = true ∧ y.canOn 15 = true ∧ y.me.net.canEarly.contains ⟨15, can0, none⟩ = true := by decide +kernel
theorem meets_CanRecoveryCompletes :
    let x := view [(Reg.CANG_STAT, 1)] fun x => x.modNet fun k => { k with canOver := [0], acf := [(63, { msgs := [], at_ := 0, first := 0 })] }
    let y := view [(Reg.CANG_STAT.inst 0, 2)] fun x => x.modNet fun k => { k with recovering := [0] }
    x.live = true ∧ x.canOn 0 = true ∧ x.me.net.canOver.contains 0 = true ∧ x.acfWait 63 = some { msgs := [], at_ := 0, first := 0 }
      ∧ 0 + (imgWord x.me.net.img (imgTalker 63) 5).toNat ≤ x.mt ∧ y.live = true ∧ y.may fpPlan (Reg.CANG_RECOVER.inst 0) = true
      ∧ y.canState 0 = 2 ∧ y.me.net.recovering.contains 0 = true := by decide +kernel

/-! ## Companion bus -/

/-- Window 0 of 64 KiB at offset 0, open to every initiator, with these further bits of CBB_WIN_CFG. -/
def cbbView (cfg : Nat) (f : CbbSt → CbbSt := id) (t : Nat := 0) : Side :=
  view [(Reg.CBB_CTRL, 1), (Reg.CBB_WIN_CFG, 0x3FC1 + cfg), (Reg.CBB_WIN_NEAR, 0x1000)] fun x => atMt t (x.modCbb f)

/-- A posted write of one byte. -/
def near0 : CbbReq :=
  { kind := .posted, init := 0, win := 0, cs := 0, off := 0, far := 0, len := 1, lanes := 0, data := [1], pos := 0, got := [], err := false,
    buf := none, cblock := false, sem := false, second := false }

theorem meets_NearRequestsComplete_window :
    (cbbView 0).live = true ∧ (cbbView 0).cbbOn = true ∧ (cbbView 0).winAt 0xFFFC 4 = some 0
      ∧ (cbbView 0).winRefuses 0 5 0xFFFC 4 true = false ∧ (cbbView 0).winRefuses 0 5 0xFFFC 4 false = false
      ∧ (cbbView 0).semBlocks ((cbbView 0).cbbWin Reg.CBB_WIN_FAR 0 29 28) 5 = false ∧ (cbbView 0).me.cbb.freeBuf = some 0
      ∧ (cbbView 0).me.cbb.early = []
      ∧ ∀ q ∈ sameCycle .a [.cbbNearRead now .a 5 0 4, .cbbNearRead ⟨1, 0⟩ .a 0 0 4], (5 : Fin 6).val ≤ q.init.val := by decide +kernel
theorem meets_NearRequestsComplete_early :
    let x := cbbView 0 fun b => { b with early := [⟨0, 0, .write [1]⟩, ⟨0, 0, .read 4⟩, ⟨0, 0, .atomic (.swap 1)⟩, ⟨0, 0, .reissue 4⟩] }
    x.live = true ∧ now.on .a = 0 ∧ x.me.cbb.early.contains ⟨0, 0, .write [1]⟩ = true ∧ x.me.cbb.early.contains ⟨0, 0, .read 4⟩ = true
      ∧ x.me.cbb.early.contains ⟨0, 0, .atomic (.swap 1)⟩ = true ∧ x.me.cbb.early.contains ⟨0, 0, .reissue 4⟩ = true := by decide +kernel
theorem meets_NearRequestsComplete_write :
    (cbbView 0x20).winAt 0 1 = some 0 ∧ (cbbView 0x20).winRefuses 0 0 0 1 true = false ∧ (cbbView 0x20).cbbWin Reg.CBB_WIN_CFG 0 5 5 = 1
      ∧ (cbbView 0).cbbWin Reg.CBB_WIN_CFG 0 5 5 = 0 ∧ (cbbView 0).me.cbb.posted < 16
      ∧ 16 ≤ (cbbView 0 fun b => { b with queue := List.replicate 16 near0 }).me.cbb.posted := by decide +kernel
theorem meets_NearRequestsComplete_atomic :
    (cbbView 0x08).winAt 0 4 = some 0 ∧ (cbbView 0x08).winRefuses 0 0 0 4 true = false ∧ (cbbView 0x08).cbbWin Reg.CBB_WIN_CFG 0 4 3 = 1
      ∧ (cbbView 0x10).winRefuses 0 0 0 4 true = false ∧ (cbbView 0x10).cbbWin Reg.CBB_WIN_CFG 0 4 3 = 2
      ∧ (cbbView 0x10).winAt 0 4 = some 0 ∧ (cbbView 0x10).me.cbb.freeBuf = some 0 ∧ (0 : Nat) % 4 = 0 := by decide +kernel
theorem meets_NearRequestsComplete_reissue :
    let b : CbbBuf := { init := 0, off := 0, len := 4, fill := some ([1, 2, 3, 4], false, 0) }
    ((cbbView 0 fun c => { c with bufs := [(7, b)] }).me.cbb.bufs.find? fun e =>
      e.2.init == 0 && e.2.off == 0 && e.2.len == 4) = some (7, b) ∧ b.fill = some ([1, 2, 3, 4], false, 0) ∧ (view []).cbbOn = false := by
  decide +kernel

theorem meets_FarCyclesComplete_start :
    let x := cbbView 0 fun b => { b with queue := [near0] }
    x.live = true ∧ x.me.cbb.queue = near0 :: [] ∧ x.me.cbb.cycle = none ∧ x.farIdle near0 = true ∧ x.pageOn Reg.CBB_CTRL = true := by
  decide +kernel
theorem meets_FarCyclesComplete_end :
    let x := cbbView 0 (fun b => { b with queue := [near0], cycle := some 0 }) 10000000
    x.live = true ∧ x.me.cbb.queue = near0 :: [] ∧ x.me.cbb.cycle = some 0 ∧ x.busCycles (x.farLength near0 0) (x.mt - 0) = true
      ∧ x.farLength near0 0 < x.farLimit ∧ x.busCycles x.farLimit (x.mt - 0) = true := by decide +kernel
theorem meets_FarCyclesComplete_expiry :
    let x := cbbView 0 (fun b => { b with bufs := [(7, { init := 0, off := 0, len := 1, fill := some ([1], true, 0) })] }) 1000000
    x.bufFill 7 = some ([1], true, 0) ∧ 0 + clampN 1 1000 (x.field Reg.CBB_RB_HOLD 9 0) * 1000 ≤ x.mt
      ∧ x.nearClaims 7 (sameCycle .a []) = false := by decide +kernel

theorem meets_SemaphoresAndWindows :
    let x := cbbView 0
    let y := cbbView 0 (fun b => { b with sem := [(3, 5, 0)] }) 1000000
    x.live = true ∧ x.pageOn Reg.CBB_SEM = true ∧ x.me.cbb.holder 3 = none ∧ y.live = true ∧ y.pageOn Reg.CBB_SEM = true
      ∧ y.me.cbb.holder 3 = some 5 ∧ bit (1 : Word) 0 = true ∧ y.semTaken 3 = some (5, 0)
      ∧ semReleases .a 3 5 [.cbbSemRelease now .a 5 3 1] = true
      ∧ 0 + clampN 1 1000 (y.field Reg.CBB_SEM_MAX 9 0) * 1000 ≤ y.mt ∧ x.may fpPlan (windowReg 15 .cfg) = true
      ∧ (x.store (windowReg 15 .cfg) (if WindowReg.cfg = .far then 0 &&& 0x3FFF0000#32 else 0)).windowsBad = false
      ∧ x.may fpPlan (windowReg 0 .near) = true
      ∧ (x.store (windowReg 0 .near) (if WindowReg.near = .far then 0x01FFFFFF &&& 0x3FFF0000#32 else 0x01FFFFFF)).windowsBad = true := by
  decide +kernel

/-! ## Tensor engines, stalls and paging -/

/-- A run on an engine, of stall 0 from the beginning of its plan image; and the same run whose head descriptor has started. -/
def run0 (served : Bool := false) : Run := Run.first 0 0 1 10 0 served
def ran (served : Bool := false) : Run := { run0 served with started := true }

/-- Engine 0 with a run in a state of TE_STAT, a millisecond later: bytes of its descriptor, words of the header at tile
address 0. -/
def engView (r : Run) (te : Nat) (desc : List (Nat × Byte)) (hdr : List (Nat × Nat)) (l : List (Reg × Nat) := []) : Side :=
  view ([(Reg.TE_STAT, te)] ++ l) fun x =>
    let x := desc.foldl (fun x e => x.physPut 2 0 e.1 [e.2]) x
    let x := hdr.foldl (fun x e => x.physPut 0 0 (4 * e.1) (natBytes 4 e.2)) x
    atMt 1000000 (x.modEng 0 fun s => { s with run := some r })

theorem meets_DescriptorsComplete_start :
    let x := engView run0 0 [] [] [(Reg.CAD_STAT, 1)]
    x.live = true ∧ (x.eng 0).run = some run0 ∧ run0.started = false ∧ x.teState 0 = 0 ∧ x.waitMet run0 (x.desc run0) = true
      ∧ run0.served = false ∧ run0.refused = none ∧ x.budgetOver run0 = false := by decide +kernel
theorem meets_DescriptorsComplete_refused :
    let r := { run0 with refused := some (5, 1, true) }
    ((engView r 0 [] []).eng 0).run = some r ∧ r.refused = some (5, 1, true) ∧ 200 ≤ 3 * ((engView r 0 [] []).mt - r.issueMt) := by
  decide +kernel
theorem meets_DescriptorsComplete_served :
    let x := engView (run0 true) 0 [] [] [(Reg.BSQ_STAT, 1)]
    (x.eng 0).run = some (run0 true) ∧ x.teState 0 = 0 ∧ x.waitMet (run0 true) (x.desc (run0 true)) = true ∧ x.bsqServes 0 = true
      ∧ x.issueOpen = true ∧ x.budgetOver (run0 true) = false ∧ (run0 true).refused = none ∧ x.serveLeft 0 0 = some (2 ^ 64) ∧ (x.desc (run0 true)).wcet ≤ 24000 ∧ fit (x.desc (run0 true)).wcet ≤ 2 ^ 64 := by
  decide +kernel
theorem meets_DescriptorsComplete_round :
    let x := engView ran 1 [(0, 1)] [(1, 1), (2, 1), (3, 1)]
    (x.eng 0).run = some ran ∧ ran.started = true ∧ x.teState 0 = 1 ∧ (x.desc ran).op = 1
      ∧ ran.units (x.qop 0 ran (x.desc ran)).units ≠ []
      ∧ x.roundOver ran ((x.desc ran).unitCycles (x.qop 0 ran (x.desc ran)).a) = true := by decide +kernel
/-- A run of a served stall whose descriptor's pages have all been delivered. -/
def walked : Run := { ran true with pages := 512 }

theorem meets_DescriptorsComplete_attention :
    let x := engView walked 1 [(0, 7), (46, 4), (53, 1)] [(2, 1)]
    (x.eng 0).run = some walked ∧ x.teState 0 = 1 ∧ (x.desc walked).op = 7
      ∧ walked.units (x.attnDims 0 walked (x.desc walked)).1 ≠ []
      ∧ x.roundOver walked (x.attnDims 0 walked (x.desc walked)).2 = true
      ∧ x.pagesReady 0 walked (x.desc walked) (walked.units (x.attnDims 0 walked (x.desc walked)).1) = true := by decide +kernel
theorem meets_DescriptorsComplete_commit :
    let x := engView ran 1 [] []
    let y := engView ran 1 [(0, 4)] [(1, 1), (2, 1), (3, 1)]
    x.teState 0 = 1 ∧ ran.refused = none ∧ x.descDone 0 ran (x.desc ran) = true ∧ x.avgBad 0 ran (x.desc ran) = false ∧ y.descDone 0 ran (y.desc ran) = true
      ∧ y.avgBad 0 ran (y.desc ran) = true := by decide +kernel

theorem meets_EngineStopsComplete :
    let x := engView ran 1 [] []
    let y := engView (ran true) 1 [] [] [(Reg.CAD_STAT, 1)]
    let z := engView (run0 true) 0 [] [] [(Reg.CAD_STAT, 1)]
    let first := fun x : Side => x.commitFirst (sameCommits .a [])
    ((first x).eng 0).run = some ran ∧ (first x).budgetOver ran = true ∧ ((first (engView run0 0 [] [] [(Reg.CAD_STAT, 1)])).eng 0).run = some run0
      ∧ (first (engView run0 0 [] [] [(Reg.CAD_STAT, 1)])).budgetOver run0 = false
      ∧ x.live = true ∧ (x.eng 0).run = some ran ∧ ran.overrun = false ∧ 5 * (x.desc ran).wcet < 3 * (x.mt - ran.issueMt)
      ∧ x.budgetOver ran = true ∧ (engView ran 2 [] []).teState 0 = 2 ∧ (y.eng 0).run = some (ran true) ∧ (ran true).served = true
      ∧ y.serveLeft 0 0 = none ∧ y.teState 0 = 1 ∧ (z.eng 0).run = some (run0 true) ∧ z.serveLeft 0 0 = none := by decide +kernel

/-- A step whose program has run on engine 0, with what its descriptors met. -/
def step0 (again chk par win nonfin : Bool) : Step :=
  { num := 0, seqs := [], rows := 0, bucket := 0, alloc := [], out := [], again := again, chk := chk, par := par, win := win,
    nonfin := nonfin, lost := [], done := [0], gone := [], moved := [] }

/-- Stall 0, served and running on engine 0, with a step. -/
def stepView (t : Option Step) : Side :=
  view [(Reg.PSQ_STAT, 10), (Reg.BSQ_STAT, 1), (Reg.PSQ_ENGINES, 1)] fun x => x.modStl 0 fun s => { s with step := t }

theorem meets_StepsComplete_form :
    let x := stepView none
    x.live = true ∧ x.serving 0 = true ∧ x.psq 0 = 2 ∧ (x.stl 0).step = none ∧ (((x.switchIfDue 0).pagingRules 0).stl 0).moves = []
      ∧ ((x.switchIfDue 0).pagingRules 0).stepEngine 0 = some 0 := by decide +kernel
theorem meets_StepsComplete_commit (a c p w f : Bool) :
    let x := stepView (some (step0 a c p w f))
    x.live = true ∧ x.serving 0 = true ∧ (x.stl 0).step = some (step0 a c p w f) ∧ x.stepEngine 0 = some 0
      ∧ x.stepRan 0 (step0 a c p w f) = true
      ∧ (step0 a c p w f).win = w ∧ (step0 a c p w f).par = p ∧ (step0 a c p w f).chk = c ∧ (step0 a c p w f).again = a
      ∧ (step0 a c p w f).nonfin = f := by revert a c p w f; decide +kernel

theorem meets_PageMovesComplete_walk :
    let x := engView (ran true) 1 [(0, 6), (46, 7), (53, 1)] [(2, 1)] [(Reg.PDMA_STAT.inst 3, 0x80)]
    x.live = true ∧ (x.eng 0).run = some (ran true) ∧ x.teState 0 = 1 ∧ (x.desc (ran true)).op = 6 ∧ (x.desc (ran true)).pdma = 3
      ∧ x.unitReady 3 0 = true
      ∧ x.ringRoom 3 (ran true) (x.desc (ran true)) (hW (x.hdrIn 0 0 (x.desc (ran true)).aA)) (x.walk 0 (ran true) (x.desc (ran true))).length = true
      ∧ ((x.walk 0 (ran true) (x.desc (ran true)))[(ran true).pages]?).isSome = true := by decide +kernel
theorem meets_PageMovesComplete_move :
    let x := view [(Reg.PDMA_STAT, 0x80)] fun x => x.modStl 0 fun s => { s with moves := [(0, 0, 0, 0)] }
    (x.stl 0).moves = (0, 0, 0, 0) :: [] ∧ x.moveUnit 0 = some 0 := by decide +kernel
theorem meets_PageMovesComplete_swap (o : Bool) :
    let w : Swap := { seq := 0, out := o, left := if o then [] else [(0, 0, 0)], copied := [] }
    let v : Swap := { seq := 0, out := false, left := [], copied := [] }
    let x := view [(Reg.PDMA_STAT, 0x80)] fun x => (x.modStl 0 fun s => { s with swap := some w }).hwr Reg.PCI_LINK_STAT 0x100
    let y := view [] fun x => x.modStl 0 fun s => { s with swap := some v }
    (x.stl 0).swap = some w ∧ w.out = o ∧ w.flight = none ∧ x.linkUp = true ∧ x.moveUnit 0 = some 0 ∧ (y.stl 0).swap = some v := by
  revert o; decide +kernel

/-- A view with an accepted command of this opcode, and stall 0 in a state of PSQ_STAT. -/
def cmdView (op : Nat) (l : List Word) (psq : Nat) (f : Side → Side := id) : Side :=
  view [(Reg.PSQ_STAT, psq), (Reg.BSQ_SEQ_MAX, 4)] fun x => f (holding op l x)

theorem meets_AdmissionsComplete_admit :
    let x := cmdView 1 [] 0
    x.live = true ∧ x.Plans ref0 0x01 (cmdOf 1 []) ∧ x.admitFree = true ∧ ((domainsOf plan0).all x.domOn) = true := by
  unfold Side.Plans; decide +kernel
theorem meets_AdmissionsComplete_mirror :
    let x := cmdView 1 [] 0 fun x => x.modStl 0 fun s => { s with admitting := some (plan0, some (0, 0, 7)) }
    (x.stl 0).admitting = some (plan0, some (0, 0, 7)) ∧ x.accepted 0 0 7 = some (cmdOf 1 []) ∧ x.pairUp 1 = true := by decide +kernel
theorem meets_AdmissionsComplete_remove :
    (cmdView 2 [] 2).Plans ref0 0x02 (cmdOf 2 []) ∧ (cmdView 2 [] 2).psq 0 ≠ 0 ∧ (cmdView 2 [] 2).psq 0 ≠ 3
      ∧ (cmdView 2 [] 0).Plans ref0 0x02 (cmdOf 2 []) ∧ (cmdView 2 [] 0).psq 0 = 0 ∧ (cmdView 2 [] 3).psq 0 = 3
      ∧ (cmdView 2 [] 3).drainOver 0 = true ∧ ((cmdView 2 [] 3).stl 0).remover = none ∧ (cmdView 2 [] 3).pairUp 1 = true := by unfold Side.Plans; decide +kernel

theorem meets_SequenceCommandsComplete_chan :
    let x := cmdView 3 [] 0
    x.live = true ∧ x.Plans ref0 0x03 (cmdOf 3 []) ∧ x.chanOk [] = true ∧ x.chanOk [{ bridle0 with inst := 0 }] = false := by
  unfold Side.Plans; decide +kernel
theorem meets_SequenceCommandsComplete_submit :
    let x := cmdView 4 [] 10
    x.Holds ref0 0x04 (cmdOf 4 []) ∧ (cmdOf 4 []).handed = false ∧ x.seqExists (cmdOf 4 []).seqReq.stall (cmdOf 4 []).seqReq.seq = true := by
  unfold Side.Holds; decide +kernel
theorem meets_SequenceCommandsComplete_abort :
    let c := cmdOf 5 [0x300]
    let x := cmdView 5 [0x300] 10
    let y := cmdView 5 [0x300] 10 fun x => x.putSqf 0 3 0 2 0 1
    x.Holds ref0 0x05 c ∧ x.seqExists (c.w 2 % 8) (bits (c.w 2) 15 8) = true ∧ x.seqState (c.w 2 % 8) (bits (c.w 2) 15 8) = 0
      ∧ y.Holds ref0 0x05 c ∧ y.seqExists (c.w 2 % 8) (bits (c.w 2) 15 8) = true ∧ y.seqState (c.w 2 % 8) (bits (c.w 2) 15 8) ≠ 0 := by
  unfold Side.Holds; decide +kernel

/-! ## Reset, boot, the host link and power -/

/-- The die in a phase of its reset. -/
def phaseView (p : Phase) (l : List (Reg × Nat) := []) (f : Side → Side := id) : Side :=
  view l fun x => f (x.modRst fun r => { r with phase := p })

theorem meets_ResetsComplete_cold :
    (phaseView .coldReset).me.rst.phase ≠ .off ∧ (view []).me.ticking = true ∧ (phaseView .coldReset).me.rst.phase = .coldReset
      ∧ (view [] fun x => x.modHbx fun h => { h with lcArmed := some 4 }).live = true
      ∧ (view [] fun x => x.modHbx fun h => { h with lcArmed := some 4 }).me.hbx.lcArmed.isSome = true := by decide +kernel

/-- Rhordo in a mode. -/
def modeView (m : Nat) (l : List (Reg × Nat) := []) (f : Side → Side := id) : Side := view l fun x => f (x.setMode m)

theorem meets_BootStepsComplete :
    (modeView 1).live = true ∧ (modeView 1).inRom = true ∧ (modeView 1).field Reg.LOFT_STAT 1 0 < 2
      ∧ (modeView 1 [(Reg.LOFT_STAT, 2)]).inRom = true ∧ (modeView 1 [(Reg.LOFT_STAT, 2)]).field Reg.LOFT_STAT 1 0 = 2
      ∧ (modeView 3).mode = 3 ∧ (modeView 4).mode = 4
      ∧ ((modeView 4).me.hbx.seals.any fun e => e.kind == 1 && e.pendingVerify) = false := by decide +kernel

/-- A sealed package that waits for its verification. -/
def seal0 : SealEntry :=
  { slot := 0, kind := 2, base := 0, bytes := 0, digest := [], stall := 0, fixed := false, pendingVerify := true }

theorem meets_ResetsComplete_request :
    let x := view [(Reg.SAFE_STAT, 2)] fun x => atMt 100000000 (x.modSafe fun s => { s with resetDue := true })
    x.live = true ∧ x.safeState = 2 ∧ x.me.safe.resetDue = true ∧ x.me.rst.req = none ∧ x.requestDue = true ∧ x.calm = true := by
  decide +kernel
theorem meets_ResetsComplete_reset :
    let x := view [] fun x => atMt 20000 (x.modRst fun r => { r with req := some (3, 0) })
    let y := phaseView .faultReset
    x.live = true ∧ x.me.rst.req = some (3, 0) ∧ 0 + 20000 ≤ x.mt ∧ y.me.rst.phase = .faultReset ∧ y.calm = true := by decide +kernel
theorem meets_ResetsComplete_verify :
    let x := view [(Reg.HBX_STAT, 0x40)] fun x => (x.modRst fun r => { r with warm := true }).modHbx fun h => { h with seals := [seal0] }
    x.live = true ∧ x.me.rst.warm = true ∧ x.flag Reg.HBX_STAT 6 = true ∧ x.verifying = some seal0 := by decide +kernel

theorem meets_HubAndLinkComplete :
    let s := built [] id
    let t := built [] fun x => x.hwr Reg.PCI_LINK_STAT 0x100
    let u := built [] fun x => { x with hub := { x.hub with down := true, hot := true, cool := 1000 } }
    s.hub.down = false ∧ HubTrigger.perst ≠ .thermal ∧ t.hub.down = false ∧ bit (t.hreg Reg.PCI_LINK_STAT) 8 = true
      ∧ linkOk (linkRate (s.hreg Reg.PCI_LINK_CFG) (5 : Fin 6)) (linkWidth (s.hreg Reg.PCI_LINK_CFG) (8 : Fin 9)) = true
      ∧ u.hub.down = true ∧ u.hub.hot = true ∧ 1000 ≤ u.hub.cool := by decide +kernel

theorem meets_PowerDomainsComplete :
    let x := view [(headReg T.FUS 0 Reg.BLK_CTRL, 3)] fun x => atMt 1000000 (x.modPwr fun p => { p with
      rising := [13], quiescing := [16], req := some (2, false, some 0) })
    x.live = true ∧ x.may fpPlan Reg.PWR_REQ = true ∧ x.me.pwr.rising.contains 13 = true ∧ (∀ p ∈ parents 13, x.domOn p = true)
      ∧ x.me.pwr.quiescing.contains 16 = true ∧ (∀ p ∈ domainPages 16, x.quiesced p.1 p.2 = true) ∧ x.domOn 22 = true
      ∧ x.me.pwr.req = some (2, false, some 0) ∧ 0 + 1000000 ≤ x.mt := by decide +kernel

theorem meets_ThermalAndClocksComplete :
    ([0] : List Int) ≠ [] ∧ (view []).me.ticking = true ∧ (view [] fun x => x.modPwr fun p => { p with refLost := true }).me.pwr.refLost = true
      ∧ (view []).live = true ∧ 2 ≤ (view [(Reg.PWR_THERM_STAT, 2)]).thermal ∧ (view [(Reg.PWR_THERM_STAT, 2)]).live = true
      ∧ 100 < (-101 : Int).natAbs ∧ (100 : Int).natAbs ≤ 100 ∧ (view []).me.pwr.refLost = false := by decide +kernel

/-! ## Time bases and cadence -/

/-- VT's domain enabled, port 7 its slave, in a state of VT, with an accepted grandmaster. -/
def timeView (st gm : Nat) : Side :=
  view [(Reg.NET_PORT_CFG.inst 7, 0x05EE0002), (Reg.NET_PORT_STAT.inst 7, 3), (Reg.TIME_CTRL, 1), ((Reg.PORT_ROLE : Reg).el 0x10 7, 2),
    (Reg.TIME_STATE, st), (Reg.ACC_GM_VT, gm)]

/-- This channel is VT's grandmaster, port 0 a master. -/
def gmView : Side :=
  view [(Reg.NET_PORT_CFG.inst 0, 0x05EE0003), (Reg.NET_PORT_STAT.inst 0, 3), (Reg.TIME_CTRL, 0x11), (Reg.PORT_ROLE, 3)]

theorem meets_GptpMessagesComplete :
    (timeView 1 5).live = true ∧ (timeView 1 5).portUp 7 = true ∧ (timeView 1 0).portUp 7 = true ∧ gmView.portUp 0 = true
      ∧ (timeView 1 5).baseOfDomain 0 = some false ∧ (timeView 1 5).portRole 7 false = 2
      ∧ (timeView 1 5).isGm false = false ∧ (timeView 1 5).accGm false ≠ 0 ∧ (timeView 1 5).accGm false ≠ 6 ∧ (timeView 1 0).accGm false = 0
      ∧ (timeView 1 0).baseOfDomain 0 = some false ∧ (timeView 1 0).portRole 7 false = 2 ∧ (timeView 1 5).baseState false = 1
      ∧ (timeView 2 5).baseState false = 2 ∧ (timeView 4 5).baseState false = 4 ∧ gmView.live = true ∧ gmView.isGm false = true
      ∧ gmView.portRole 0 false = 3 ∧ sentBefore gmView.me.time.sentAt 0 (logNs gmView.me.time.gptp.logSync) gmView.mt = true
      ∧ sentBefore (timeView 1 5).me.time.pdelayAt 7 (logNs (timeView 1 5).me.time.gptp.logPdelay) (timeView 1 5).mt = true := by
  decide +kernel
theorem meets_GptpMessagesComplete_timeout :
    let x := view [(Reg.NET_PORT_CFG.inst 7, 0x05EE0002), (Reg.NET_PORT_STAT.inst 7, 3), (Reg.TIME_CTRL, 1),
      ((Reg.PORT_ROLE : Reg).el 0x10 7, 2), (Reg.TIME_STATE, 2)] fun x => atMt 500000000 (x.modTime fun t => { t with
      syncAt := [(0, 0, 125000000)] })
    x.live = true ∧ x.portUp 7 = true ∧ x.syncOver false = true ∧ x.isGm false = false ∧ x.baseState false = 2
      ∧ (timeView 1 5).syncOver false = false := by decide +kernel

theorem meets_TimeRolesComplete :
    let x := view [(Reg.HOLDREF_CFG, 1), (Reg.TIME_CTRL, 0x11), ((Reg.PORT_ROLE : Reg).el 0x10 1, 2)]
    let y := view [(Reg.TIME_STATE, 3)] (atMt 3600000000000)
    x.live = true ∧ x.holdrefPs ≠ 0 ∧ ((100020 : Nat) - (x.holdrefPs : Int)).natAbs * 1000000 ≤ 200 * x.holdrefPs
      ∧ 200 * x.holdrefPs < ((100021 : Nat) - (x.holdrefPs : Int)).natAbs * 1000000 ∧ y.baseState false = 3 ∧ (y.base false).expired = false
      ∧ clampN 1 3600 (y.rdN Reg.HOLDOVER_MAX) * 10 ^ 9 ≤ y.mt - (y.base false).holdMt ∧ x.may fpPlan Reg.TIME_CTRL = true
      ∧ x.isGm false = true ∧ x.may fpPlan Reg.GM_ACCEPT = true ∧ x.may fpPlan Reg.SNAP = true ∧ bit (1 : Word) 0 = true
      ∧ x.may fpPlan ((Reg.PORT_ROLE : Reg).el 0x10 0) = true ∧ fld 2 1 0 = 2 ∧ x.otherSlave 0 false = true
      ∧ x.otherSlave 1 false = false := by decide +kernel

/-- A cadence driven by MT at a slot, at an instant of MT. -/
def cadView (slot t : Nat) (l : List (Reg × Nat) := []) : Side :=
  view ([(Reg.CAD_STAT, 1)] ++ l) fun x => atMt t (x.modCad fun c => { c with slot := slot, fsync := [(7, 0, true)] })

theorem meets_CadenceRunsComplete_first :
    let x := (cadView 96 33333333).commitFirst (sameCommits .a [.descriptorCommit now .a 0])
    let y := (cadView 95 33333333).commitFirst (sameCommits .a [])
    sameCommits .a [.descriptorCommit now .a 0] = [0] ∧ x.cadSrc ≠ 0 ∧ x.me.cad.slots ≤ x.me.cad.slot ∧ x.frameEnd = some (0, 33333333) ∧ y.cadSrc ≠ 0
      ∧ y.me.cad.slot < y.me.cad.slots ∧ y.slotReached y.me.cad.slot = true ∧ ((view []).commitFirst (sameCommits .a [])).cadSrc = 0 := by
  decide +kernel
theorem meets_CadenceRunsComplete :
    (view []).me.ticking = true ∧ (view []).cadSrc = 0 ∧ (cadView 96 33333333).cadSrc ≠ 0
      ∧ (cadView 96 33333333).me.cad.slots ≤ (cadView 96 33333333).me.cad.slot ∧ (cadView 96 33333333).frameEnd = some (0, 33333333)
      ∧ (cadView 95 33333333).me.cad.slot < (cadView 95 33333333).me.cad.slots ∧ (cadView 95 33333333).cadSrc ≠ 0
      ∧ (cadView 95 33333333).slotReached (cadView 95 33333333).me.cad.slot = true
      ∧ (view [] (atMt 33333333)).me.cad.tickMt + 33333333 ≤ (view [] (atMt 33333333)).mt := by decide +kernel
theorem meets_CadenceRunsComplete_pulse :
    let x := cadView 1 33333333 [(fsyncCfg 0, 0x1001), (fsyncCfg 0 + 4, 5)]
    Tbl.get (0, false) x.me.cad.fsync 7 = (0, true) ∧ 0 + x.rdN (fsyncCfg 7 + 8) ≤ x.mt ∧ Tbl.get (0, false) x.me.cad.fsync 0 = (0, false)
      ∧ x.cadSrc ≠ 0 ∧ x.me.cad.slot ≠ 0
      ∧ fires (bit (x.rd (fsyncCfg 0)) 0) (fld (x.rd (fsyncCfg 0)) 11 2) (fld (x.rd (fsyncCfg 0)) 22 12) x.slotNow = true
      ∧ x.slotMt x.slotNow + x.rdN (fsyncCfg 0 + 4) ≤ x.mt ∧ 0 < x.slotMt x.slotNow + x.rdN (fsyncCfg 0 + 4) := by decide +kernel

theorem meets_CadenceControlWrites :
    let x := view []
    let y := view [(Reg.CAD_PERIOD, 999999), (Reg.GATE_CFG, 1)]
    x.live = true ∧ x.may fpPlan Reg.CAD_APPLY = true ∧ bit (1 : Word) 0 = true ∧ cadCfgOk (x.rdN Reg.CAD_PERIOD) (x.rdN Reg.CAD_SLOTS) = true
      ∧ x.applyBlocked = false ∧ y.may fpPlan Reg.CAD_APPLY = true ∧ cadCfgOk (y.rdN Reg.CAD_PERIOD) (y.rdN Reg.CAD_SLOTS) = false
      ∧ y.applyBlocked = true ∧ x.may fpPlan Reg.CAD_CTRL = true ∧ x.may fpPlan (launchReg (.fsync 7)) = true
      ∧ x.may fpPlan (launchReg (.dpyLock 3)) = true ∧ x.may fpPlan (launchReg .gate) = true ∧ x.may (.pair 2) (launchReg (.av 15)) = true
      ∧ x.may fpPlan (fsyncCfg 7 + (if true then 8 else 4)) = true ∧ x.may fpPlan (fsyncCfg 0 + (if false then 8 else 4)) = true := by
  decide +kernel

/-! ## Rings and the host port -/

/-- A view with an accepted command of this opcode, the link up and windows of 2 MiB for functions 0 and 1. -/
def hostView (op : Nat) (l : List Word) (f : Side → Side := id) : Side :=
  view [] fun x => f ((((holding op l x).hwr Reg.PCI_LINK_STAT 0x100).hwr (x.iov Reg.IOV_WIN 0) 0x00010000).hwr (x.iov Reg.IOV_WIN 1)
    0x00010001)

theorem meets_HostCommandsComplete :
    (hostView 0 []).live = true ∧ (hostView 0 []).Takes ref0 0x00 (cmdOf 0 []) ∧ (hostView 0x0B []).Takes ref0 0x0B (cmdOf 0x0B [])
      ∧ (hostView 9 []).Takes ref0 0x09 (cmdOf 9 []) ∧ (cmdOf 9 []).w 2 = 0 ∧ 16 < (cmdOf 9 [17]).w 2
      ∧ (hostView 9 [1]).Takes ref0 0x09 (cmdOf 9 [1]) ∧ (cmdOf 9 [1]).w 2 ≠ 0 ∧ (cmdOf 9 [1]).w 2 ≤ 16
      ∧ (hostView 9 [1]).readRcb ((cmdOf 9 [1]).w 2) ((cmdOf 9 [1]).w64 4) = none
      ∧ (hostView 0x0A [17]).Takes ref0 0x0A (cmdOf 0x0A [17]) ∧ 16 < (cmdOf 0x0A [17]).w 2
      ∧ (hostView 0x0A [16]).Takes ref0 0x0A (cmdOf 0x0A [16]) ∧ (cmdOf 0x0A [16]).w 2 ≤ 16 := by unfold Side.Takes; decide +kernel

/-- An RCB of a virtual function with one submission ring and an event ring of 16 entries, a completion ring of 256 (R701, R702), at the start of its window. -/
def rcb1 : List Byte :=
  [1, 1, 0, 0, 0, 0x10, 0, 0, 0, 0, 0, 0, 0, 0, 0, 0] ++ [0, 0x20, 0, 0, 0, 0, 0, 0, 4, 0, 0, 0, 0, 0, 0, 0] ++ List.replicate 48 0
    ++ [0, 0x40, 0, 0, 0, 0, 0, 0, 8, 0, 0, 0, 0, 0, 0, 0] ++ [0, 0x90, 0, 0, 0, 0, 0, 0, 4, 0, 0, 0, 0, 0, 0, 0] ++ List.replicate 16 0

theorem meets_HostCommandsComplete_rcb :
    let x := hostView 9 [1] fun x => x.loftPut 0x200000 rcb1
    x.Takes ref0 0x09 (cmdOf 9 [1]) ∧ (x.readRcb ((cmdOf 9 [1]).w 2) ((cmdOf 9 [1]).w64 4)).isSome = true := by
  unfold Side.Takes; decide +kernel
theorem meets_HostCommandsComplete_map :
    (hostView 8 [0]).Takes ref0 0x08 (cmdOf 8 [0]) ∧ (cmdOf 8 [0]).w 2 = 0 ∧ (hostView 8 [1, 1]).Takes ref0 0x08 (cmdOf 8 [1, 1])
      ∧ (hostView 8 [1, 1]).mapOk ((cmdOf 8 [1, 1]).w 2) ((cmdOf 8 [1, 1]).words.getD 3 0 &&& 0x3F#32) = true
      ∧ (hostView 8 [1, 0x21]).Takes ref0 0x08 (cmdOf 8 [1, 0x21])
      ∧ (hostView 8 [1, 0x21]).mapOk ((cmdOf 8 [1, 0x21]).w 2) ((cmdOf 8 [1, 0x21]).words.getD 3 0 &&& 0x3F#32) = false := by
  unfold Side.Takes; decide +kernel

/-- The target of an ABORT: SEQ_SUBMIT, or NOP, with CMD_ID 9 in ring 3. -/
def target (op : Nat) : Cmd := { cmdOf op [] with ring := 3, id := 9 }

/-- A view with an ABORT of that command, which function 0 has accepted, completed, or still has in its ring. -/
def abortView (f : FnSt → FnSt) : Side := hostView 7 [9, 3] fun x => x.modFn 0 f

theorem meets_HandedCommandsComplete_hand :
    (hostView 0x0C []).Takes ref0 0x0C (cmdOf 0x0C []) ∧ (hostView 0x0D []).Takes ref0 0x0D (cmdOf 0x0D [])
      ∧ (hostView 0x0E []).Takes ref0 0x0E (cmdOf 0x0E []) := by unfold Side.Takes; decide +kernel
theorem meets_HandedCommandsComplete_abort :
    let c := cmdOf 7 [9, 3]
    let x := fun op => abortView fun s => { s with accepted := s.accepted ++ [target op] }
    (x 4).Takes ref0 0x07 c ∧ (x 4).accepted 0 (c.w 3 % 4) (c.w 2) = some (target 4) ∧ (target 4).abortable = true
      ∧ (x 4).commitsToo 0 (target 4) [] = false
      ∧ (x 3).accepted 0 (c.w 3 % 4) (c.w 2) = some (target 3) ∧ (x 3).Takes ref0 0x07 c
      ∧ (x 3).commitsToo 0 (target 3) [.chanCfg now .a { fn := 0, ring := 3, id := 9 } []] = true
      ∧ (x 0).Takes ref0 0x07 c ∧ (x 0).accepted 0 (c.w 3 % 4) (c.w 2) = some (target 0) ∧ (target 0).abortable = false := by
  unfold Side.Takes; decide +kernel

/-- A function's rings: entries of 16 in every ring from offset 0x2000 on. -/
def rings0 : Rcb := { sqCount := 4, idxBase := 0x1000, rings := (List.range 7).map fun k => { base := 0x2000 * (k + 1), log2 := 4, vec := 0 } }

theorem meets_HandedCommandsComplete_gone :
    let c := cmdOf 7 [9, 3]
    let x := abortView fun s => { s with done := [(3, 9)] }
    let y := abortView id
    let z := hostView 7 [9, 3] fun x => ((x.modFn 0 fun s => { s with rcb := some rings0 }).hwr (x.iov Reg.SQ_TAIL 0 + 12) 1).loftPut 0x8004 [9]
    x.Takes ref0 0x07 c ∧ x.accepted 0 (c.w 3 % 4) (c.w 2) = none ∧ (x.fn 0).done.contains (c.w 3 % 4, c.w 2) = true
      ∧ y.accepted 0 (c.w 3 % 4) (c.w 2) = none ∧ (y.fn 0).done.contains (c.w 3 % 4, c.w 2) = false
      ∧ y.waitsInRing 0 (c.w 3 % 4) (c.w 2) = false ∧ z.Takes ref0 0x07 c ∧ z.accepted 0 (c.w 3 % 4) (c.w 2) = none
      ∧ (z.fn 0).done.contains (c.w 3 % 4, c.w 2) = false ∧ z.waitsInRing 0 (c.w 3 % 4) (c.w 2) = true := by
  unfold Side.Takes; decide +kernel
theorem meets_HandedCommandsComplete_replay :
    let c := cmdOf 0x0F [0, 0, 0, 0, 0, 0, 0, 65535]
    let x := hostView 0x0F [0, 0, 0, 0, 0, 0, 0, 65535]
    let y := view [(Reg.PSQ_STAT, 2)] fun x => { (holding 0x0F [0, 0, 0, 0, 0, 0, 0, 65535] x) with
      me := { (holding 0x0F [0, 0, 0, 0, 0, 0, 0, 65535] x).me with fuses := { Fuses.fresh with lc := 1 } } }
    x.Takes ref0 0x0F c ∧ (x.me.recorder.replay.any fun p => p.ring == c.ring && p.id == c.id) = false ∧ x.lc ≠ 1 ∧ x.lc ≠ 3
      ∧ y.Takes ref0 0x0F c ∧ y.lc = 1 ∧ 1 ≤ c.replayReq.count ∧ c.replayReq.count ≤ 65535 ∧ y.psq c.replayReq.stall = 2
      ∧ y.served c.replayReq.stall = false := by unfold Side.Takes; decide +kernel

theorem meets_RingsComplete_register :
    (modeView 5).live = true ∧ (modeView 5).hflag ((modeView 5).rm Reg.RM_CMD_STAT) 0 = false ∧ (modeView 5).mode ≠ 0
      ∧ (modeView 5).mode ≠ 7 ∧ (modeView 5 [] fun x => x.hwr (x.rm Reg.RM_CMD_STAT) 1).hflag Reg.RM_CMD_STAT 0 = true
      ∧ (modeView 7).hflag ((modeView 7).rm Reg.RM_CMD_STAT) 0 = false ∧ (modeView 7).mode = 7 := by decide +kernel
theorem meets_RingsComplete_accept :
    let q : RingDesc := { base := 0x2000, log2 := 4, vec := 0 }
    let x := modeView 6 [] fun x => (((x.modFn 0 fun s => { s with rcb := some rings0 }).hwr (x.iov Reg.SQ_TAIL 0) 1).hwr
      (x.iov Reg.IOV_WIN 0) 0x00010000).hwr Reg.PCI_LINK_STAT 0x100
    x.live = true ∧ x.mode = 6 ∧ x.pairUp 0 = true ∧ x.linkUp = true ∧ x.iovState 0 = 0 ∧ x.cqRoom 0 = true ∧ x.nextRing 0 = some 0
      ∧ (x.fn 0).ring 0 = some q ∧ bit (word (x.loftWord (x.entryAt 0 q (Tbl.get 0 (x.fn 0).sqHead 0) 64))) 8 = false := by decide +kernel
theorem meets_RingsComplete_doorbell :
    let q : RingDesc := { base := 0x2000, log2 := 4, vec := 0 }
    let x := hostView 0 [] fun x => x.modFn 0 fun s => { s with rcb := some rings0 }
    let f := fun (v : Word) (x : Side) => x.hwr (x.iov Reg.SQ_TAIL 0 + 4 * 0) v
    x.hostReach = true ∧ x.iovState 0 = 0 ∧ (f 17 x).pairUp 0 = true ∧ (f 17 (x.setField Reg.GLV_STAT 1 0 3)).pairUp 0 = false
      ∧ ((f 16 x).fn 0).ring 0 = some q ∧ (f 16 x).ringFill 0 0 ≤ 2 ^ q.log2 ∧ (f 17 x).live = true
      ∧ ((f 17 x).fn 0).ring 0 = some q ∧ ((f 17 x).fn 0).err.contains 0 = false ∧ 2 ^ q.log2 < (f 17 x).ringFill 0 0
      ∧ ((f 16 (hostView 0 [])).fn 0).ring 0 = none
      ∧ (hostView 0 [] fun x => x.hwr (x.iov Reg.IOV_STAT 16) 1).hostReach = true
      ∧ (hostView 0 [] fun x => x.hwr (x.iov Reg.IOV_STAT 16) 1).iovState 16 ≠ 0 := by decide +kernel

theorem meets_HostAccessesComplete :
    let x := hostView 0 []
    let y := hostView 0 [] fun x => x.modMem fun m => { m with poison := [0] }
    x.hostReach = true ∧ x.live = true ∧ 0x1FFFFF + ([1] : List Byte).length ≤ x.winSize 0
      ∧ x.sealed (x.winBase 0 + 0x1FFFFF) 1 = false ∧ x.winSize 0 < 0x200000 + ([1] : List Byte).length ∧ 0x1FFFFF + 1 ≤ x.winSize 0
      ∧ (x.loftMeet (x.winBase 0 + 0x1FFFFF) 1).2 = false ∧ y.hostReach = true ∧ y.live = true ∧ 0 + 1 ≤ y.winSize 0
      ∧ (y.loftMeet (y.winBase 0 + 0) 1).2 = true ∧ x.brRate 18 = 0
      ∧ (x.wrN (Reg.BRDL_LOFT_RATE.inst 18) 1).brRate 18 ≠ 0 ∧ (x.wrN (Reg.BRDL_LOFT_RATE.inst 18) 1).live = true ∧ (built [] id).hub.down = false ∧ (∀ st < 8, x.psq st = 0)
      ∧ (63 : Fin 64).val < (if (0 : Fin 17) = 0 then 64 else 60) ∧ (59 : Fin 64).val < (if (16 : Fin 17) = 0 then 64 else 60)
      ∧ (if (16 : Fin 17) = 0 then 64 else 60) ≤ (60 : Fin 64).val := by decide +kernel
theorem meets_HostAccessesComplete_shed :
    let r := (if true then Reg.SHED_SIZE else Reg.SHED_BASE).inst Ch.a.die + (if true then 4 else 0)
    let x := view [(Reg.PSQ_STAT.inst 7, 1), (Reg.PSQ_SHED_SIZE.inst 7, 1)]
    (view []).hmay (.pair 0) r = true ∧ (view []).shedHeld = false ∧ x.hmay (.pair 0) r = true ∧ x.shedHeld = true := by decide +kernel

/-- A function in a state of its reset, at an instant of MT. -/
def resetView (st t : Nat) : Side := view [] fun x => atMt t (x.hwrN (x.iov Reg.IOV_STAT 16) st)

theorem meets_InstanceResetsComplete :
    (built [] id).hub.down = false ∧ (16 : Fin 17) ≠ 0 ∧ (view []).hmay (.pair 0) ((Reg.IOV_CTRL : Reg).inst (17 * Ch.a.die + 16)) = true
      ∧ bit (2 : Word) 1 = true ∧ bit (1 : Word) 1 = false ∧ (resetView 1 2000000).iovState 16 = 1
      ∧ 2000000 ≤ (resetView 1 2000000).mt - ((resetView 1 2000000).fn 16).drainMt ∧ (resetView 1 0).iovState 16 = 1
      ∧ (resetView 1 0).drained 16 = true ∧ (resetView 2 0).live = true ∧ 2 ≤ (resetView 2 0).iovState 16 ∧ (resetView 2 0).pairUp 0 = true := by
  decide +kernel

/-- The hub with heartbeats and messages on their way to channel A. -/
def laneState (f : PeerLane → PeerLane) : State :=
  { (built [] id) with hub := { (built [] id).hub with toA := f PeerLane.zero } }

theorem meets_PeerTrafficComplete :
    let b : Heartbeat := { vt := 0, valid := false, frame := 0, seq := 0, state := 0 }
    let m := mailboxWords 0 0 0 []
    let x := view [] (atMt 10000000)
    x.live = true ∧ x.hbPeriod ≤ x.mt - x.me.safe.hbMt ∧ ((laneState fun q => { q with beats := [b] }).hub.lane .a).beats = b :: []
      ∧ x.watchOver = true ∧ x.me.safe.hbGot = false ∧ (view []).watchOver = false ∧ (laneState id).hub.linkLost = false
      ∧ (view [] fun x => atMt 10000000 (x.modSafe fun s => { s with hbGot := true })).watchOver = true
      ∧ (view [] fun x => atMt 10000000 (x.modSafe fun s => { s with hbGot := true })).me.safe.hbGot = true
      ∧ bit (1 : Word) 0 = true ∧ (laneState id).hub.down = false ∧ ((laneState id).hub.lane Ch.b.peer).full = false
      ∧ ((laneState fun q => { q with flight := List.replicate 16 (m, false) }).hub.lane Ch.b.peer).full = true
      ∧ ((laneState fun q => { q with flight := [(m, false)] }).hub.lane .a).flight = (m, false) :: [] ∧ malformed m = false
      ∧ (view []).untimely m false = false ∧ malformed (m.set 15 0) = true := by decide +kernel
theorem meets_PeerTrafficComplete_pop : (view []).hpermits (.pair 2) (peerReg Reg.MB_SEND 4 .a) = true ∧ (view []).hmay (.pair 0) (peerReg Reg.MB_POP 4 .a) = true ∧ bit (1 : Word) 0 = true := by decide +kernel

/-! ## Glove pairs and safe state -/

theorem meets_GlovePairsComplete :
    (view []).live = true ∧ (view []).pairUp 3 = true
      ∧ (let x := view [] (atMt 1000000)
         x.live = true ∧ x.pairUp 3 = true ∧ (x.pair 3).wdMt + 1000000 ≤ x.mt)
      ∧ (view [(Reg.GLV_STAT.inst 3, 2)]).field (Reg.GLV_STAT.inst 3) 1 0 = 2
      ∧ (view [(Reg.GLV_STAT.inst 3, 3)]).field (Reg.GLV_STAT.inst 3) 1 0 = 3 ∧ ((view [(Reg.GLV_STAT.inst 3, 3)]).pair 3).hbxHalt = false
      ∧ (view [(Reg.GLV_STAT, 3)]).field (Reg.GLV_STAT.inst 0) 1 0 = 3 ∧ ((view [(Reg.GLV_STAT, 3)]).pair 0).hbxHalt = false
      ∧ (view []).debugOpen = true ∧ (view [(Reg.HBX_STAT, 2)]).debugOpen = false ∧ DebugAct.halt ≠ .hatbox
      ∧ (view [(Reg.HBX_STAT, 2)]).field Reg.HBX_STAT 2 0 ≠ 0 := by decide +kernel

/-- FP-SAFE. -/
def fpSafe : Init := .pair 2

theorem meets_SafePageComplete :
    let x := view [(Reg.SAFE_STAT, 2)]
    let y := view [(Reg.SAFE_STAT, 2)] fun x => atMt 1000000000 (x.modSafe fun s => { s with resetDue := true })
    (view []).live = true ∧ (view []).may fpSafe Reg.SAFE_READY = true ∧ bit (1 : Word) 0 = true ∧ (view []).safeState = 0
      ∧ (view []).may fpSafe Reg.SAFE_ENTER = true ∧ x.may fpSafe Reg.SAFE_RELEASE = true ∧ x.safeState = 2 ∧ x.canRelease = true
      ∧ y.may fpSafe Reg.SAFE_RELEASE = true ∧ y.safeState = 2 ∧ y.canRelease = false ∧ (view []).may fpSafe Reg.SAFE_KICK = true
      ∧ clampN 1 1000 (y.field Reg.SAFE_CFG 23 10) * 1000000 ≤ y.mt - y.me.safe.enterMt
      ∧ (modeView 6 [] (atMt 10000000)).kickRule = true ∧ (modeView 6 [] (atMt 10000000)).kickLate = true := by decide +kernel

/-- A fault message that waits for every exit. -/
def msg0 : FaultMsg := { kind := 0, cls := 1, words := [], eth := true, can := true, mbx := true, mt := 0, late := false }

theorem meets_MessagesAndSelfTestComplete :
    let x := view [] fun x => x.modSafe fun s => { s with msgs := [msg0], slices := [(.fus, 0, none)] }
    let y := view [] fun x => { x with me := { x.me with cad := { x.me.cad with begun := true }, safe := { x.me.safe with covFrame := 1 } } }
    x.live = true ∧ takeMessage .eth x.me.safe.msgs = some ({ msg0 with eth := false }, [{ msg0 with eth := false }])
      ∧ takeMessage .can x.me.safe.msgs = some ({ msg0 with can := false }, [{ msg0 with can := false }])
      ∧ takeMessage .mailbox x.me.safe.msgs = some ({ msg0 with mbx := false }, [{ msg0 with mbx := false }])
      ∧ x.exitOpen .mailbox = true ∧ x.exitOpen .eth = false ∧ x.exitOpen .can = false
      ∧ (view [(Reg.CANG_STAT, 1)]).exitOpen .can = true ∧ (x.me.safe.slices.any fun e => e.1 == .fus) = true ∧ y.live = true
      ∧ y.periodOver = true := by decide +kernel

/-- A cadence by MT whose frame has t ns left, with fusion enabled and no budget ahead. -/
def windowView (t : Nat) : Side :=
  view [(Reg.FUS_CTRL, 1), (Reg.CAD_STAT, 1)] fun x => atMt (33333333 - t) (x.modCad fun c => { c with slot := 96 })

theorem meets_MessagesAndSelfTestComplete_slice :
    let x := view []
    40337 < 40338 ∧ x.sliceWindow (.te 7) = none ∧ x.sliceWindow (.bank 31) = some (2 ^ 64) ∧ 40338 ≤ 2 ^ 64 ∧ 40338 ≤ 40338
      ∧ x.unitFenced (.bank 31) = false ∧ (x.me.safe.slices.any fun e => e.1 == .bank 31) = false
      ∧ (windowView 40337).sliceWindow .fus = some 40337 ∧ (windowView 40338).sliceWindow .fus = some 40338 := by decide +kernel

/-! ## Memory tiers and bridles -/

theorem meets_SramsComplete :
    let x := view [(Reg.YARD_CTRL, 1)] fun x => x.modMem fun m => { m with refetch := [7], zeroing := [31] }
    x.live = true ∧ x.me.mem.refetch.contains 7 = true ∧ x.me.mem.zeroing ≠ [] ∧ x.flag Reg.YARD_CTRL 0 = true ∧ 131071 / 131072 < 32
      ∧ x.me.mem.zeroing.contains (131071 / 131072) = false ∧ (7 : Fin 9).val = (7 : Fin 8).val ∧ (8 : Fin 9).val ≠ (7 : Fin 8).val
      ∧ (view [(Reg.TE_STAT.inst 7, 0x80)]).flag (Reg.TE_STAT.inst 7) 7 = true ∧ x.flag (Reg.TE_STAT.inst 7) 7 = false := by decide +kernel

/-- A read of a yard byte by the general DMA. -/
def yard8 : YardReq := ⟨8, 0, 1, none, []⟩

theorem meets_SramsComplete_bank :
    let l : List Instr := [.yardAccess now .a 8 .yard 0 1 none [], .yardAccess ⟨1, 0⟩ .a 7 .yard 0 1 none []]
    (view []).me.mem.yardEarly = [] ∧ bankCycle .a 0 [] = [] ∧ bankCycle .a 0 l = [yard8] ∧ yard8.m.val ≠ (0 : Fin 9).val ∧ now.on .a = 0
      ∧ (view [] fun x => x.modMem fun m => { m with yardEarly := [yard8] }).live = true
      ∧ (view [] fun x => x.modMem fun m => { m with yardEarly := [yard8] }).me.mem.yardEarly.contains ⟨8, 0, 1, none, []⟩ = true := by
  decide +kernel

/-- A bridle whose yard RATE is 0, and a bank that no stall holds. -/
theorem meets_SramsComplete_bridle :
    (view []).brYardRate 7 = 0 ∧ (⟨7, 0, 1, some [1], []⟩ : YardReq).m.val = (7 : Fin 8).val
      ∧ ((view []).accrue 7).bankOwner (268435455 / bankBytes) = none := by decide +kernel

/-- A read of 64 bytes at the loft's beginning. -/
def req0 : MemReq := { loft := true, addr := 0, len := 64, write := none }

theorem meets_LoftComplete :
    let x := view [(Reg.LOFT_CTRL, 1), (Reg.BRDL_LOFT_RATE.inst 12, 1), (Reg.LOFT_CFG, 1)] fun x => (x.modMem fun m => { m with
      wb := [9], gdmaZero := [(3, 1)] }).modBridle 19 fun q => { q with out := [(req0, 0)], busy := true }
    (∀ k < 20, ((view []).bridle k).out = []) ∧ (∃ k < 20, (x.bridle k).out ≠ []) ∧ (4 : Nat) ∈ [(4 : Fin 5).val, 0, 1, 0]
      ∧ x.live = true ∧ ((([] : List DramCell).foldl Side.flipDram x).bridle 19).out = (req0, 0) :: []
      ∧ ((([] : List DramCell).foldl Side.flipDram x).bridle 19).busy = true ∧ x.me.mem.wb = 9 :: [] ∧ x.me.mem.gdmaZero = (3, 1) :: [] ∧ x.brRate 12 ≠ 0
      ∧ x.flag Reg.LOFT_CTRL 0 = true ∧ x.inline = true ∧ (4 : Fin 5) ≠ 0 ∧ x.may fpPlan (Reg.BRDL_MAXLAT_CLR.inst 19) = true
      ∧ bit (1 : Word) 0 = true := by decide +kernel

/-! ## Hatbox, recorder and pages -/

/-- The Hatbox works on a request of FP-PLAN, or of FP-HOST, with this code. -/
def hbxView (p : Fin 4) (code : Nat) (ans : Option (Nat × Nat × List Word)) : Side :=
  view [(hbxReq p 0, code)] fun x => x.modHbx fun h => { h with waiting := [p.val], busy := true, answer := ans }

theorem meets_HatboxComplete_serves (c : Fin 8) (h : c ≠ 1) : (hbxView 0 (c.val + 1) none).Serves 0 (c.val + 1) := by
  unfold Side.Serves; revert c h; decide +kernel
theorem meets_HatboxComplete_unseal : (hbxView 1 2 none).live = true ∧ (hbxView 1 2 none).Serves 1 2 := by
  unfold Side.Serves; decide +kernel
theorem meets_HatboxComplete_rest :
    let x := hbxView 0 0 (some (0, 0, []))
    let y := hbxView 0 2 none
    (view []).live = true ∧ (view []).domOn 22 = true ∧ bit (8 : Word) 3 = true ∧ x.me.hbx.waiting = 0 :: [] ∧ x.me.hbx.busy = true
      ∧ x.flag Reg.HBX_STAT 7 = false ∧ x.me.hbx.answer = some (0, 0, []) ∧ y.me.hbx.waiting = 0 :: [] ∧ y.me.hbx.busy = true
      ∧ y.flag Reg.HBX_STAT 7 = false ∧ y.me.hbx.answer = none ∧ requestOk (y.arg 0 0 % 256) 0 = false
      ∧ (view []).flag Reg.HBX_STAT 7 = false ∧ (view [(Reg.HBX_STAT, 0x80)]).flag Reg.HBX_STAT 7 = true
      ∧ (view [(Reg.HBX_STAT, 0x80)]).me.hbx.busy = false
      ∧ ((view [(Reg.HBX_STAT, 0x80)] fun x => x.modHbx fun h => { h with busy := true, waiting := [3] }).me.hbx.waiting = 3 :: [])
      ∧ (view [(Reg.HBX_STAT, 0x80)] fun x => x.modHbx fun h => { h with busy := true, waiting := [3] }).me.hbx.busy = true
      ∧ (view [(Reg.HBX_STAT, 0x80)] fun x => x.modHbx fun h => { h with busy := true, waiting := [3] }).flag Reg.HBX_STAT 7 = true := by
  decide +kernel

theorem meets_RecorderComplete :
    let x := view [(Reg.REC_RGN, 0x00020000)] fun x => (x.hwr (x.iov Reg.IOV_WIN 0) 0x00020000).modRec fun c => { c with
      queue := [{ typ := 1, stall := 0, body := [], at_ := stamp0 }] }
    x.live = true ∧ x.may fpPlan Reg.REC_CTRL = true ∧ bit (1 : Word) 0 = true ∧ (view []).may fpPlan Reg.REC_CTRL = true
      ∧ (view []).recRegionOk = false ∧ x.recRegionOk = true
      ∧ x.me.recorder.queue = { typ := 1, stall := 0, body := [], at_ := stamp0 } :: [] := by decide +kernel
theorem meets_RecorderComplete_late :
    let x := fun t : Nat => view [(Reg.BRDL_LOFT_RATE.inst 12, 1)] fun x => atMt t (x.modRec fun c => { c with
      queue := [{ typ := 1, stall := 0, body := [], at_ := stamp0 }] })
    (x 10000).live = true ∧ (x 10000).mt ≤ stamp0.mt + 10000 ∧ (x 10000).field (Reg.BRDL_LOFT_RATE.inst 12) 18 0 ≠ 0
      ∧ stamp0.mt + 10000 < (x 10001).mt ∧ (x 10001).live = true
      ∧ (x 10001).me.recorder.queue = { typ := 1, stall := 0, body := [], at_ := stamp0 } :: [] := by decide +kernel
theorem meets_RecorderComplete_export :
    let x := view [(Reg.REC_RGN, 0x00020000)] fun x => ((x.hwr Reg.PCI_LINK_STAT 0x100).hwr Reg.SHED_SIZE 0x1000).modRec fun c => { c with
      export_ := some (0, some 0) }
    x.me.recorder.export_ = some (0, some 0) ∧ x.exportFits (x.ringNewest 0 0) = true := by decide +kernel

theorem meets_PageHeadsComplete :
    pageNamed false (T.DPY * 64 + 7) = some (T.DPY, 7) ∧ pageNamed true (T.HUB_IOV * 64 + 33) = some (T.HUB_IOV, 33) ∧ (view []).live = true
      ∧ ([Reg.BLK_CTRL, Reg.EVT_RAW, Reg.EVT_EN, Reg.EVT_SET, Reg.CNT_OVF, Reg.LOCK].all fun r =>
        (view []).may fpPlan (headReg T.DPY 7 r) && (view []).hmay (.pf .a) (headReg T.HUB_IOV 16 r)) = true
      ∧ pageNamed true (T.HUB_IOV * 64 + 16) = some (T.HUB_IOV, 16) := by decide +kernel

theorem meets_RegisterAccessesComplete :
    (view []).reachesHub fpPlan = true ∧ Init.wide fpPlan = true ∧ vfPage (.vf .b 15) (Reg.IOV_STAT.inst 33) = true
      ∧ (view []).reachesHub (.vf .b 15) = true ∧ (view []).reachesHub (.pf .a) = true ∧ (built [] id).hub.down = false
      ∧ Reg.BSQ_SHED_RATE % 4 = 0 ∧ Reg.BSQ_SHED_RATE % 0x40000 / 0x1000 < pagesOnDie (Reg.BSQ_SHED_RATE / 0x40000)
      ∧ (rowAt Reg.BSQ_SHED_RATE).isSome = true ∧ (headWrite now .a fpPlan false (Reg.CAD_CTRL / 0x1000) (Reg.EVT_EN % 0x1000) 0).isSome = true
      ∧ (headWrite now .a fpPlan false (Reg.BSQ_SHED_RATE / 0x1000) (Reg.BSQ_SHED_RATE % 0x1000) 0).isNone = true
      ∧ (timeWrite now .a fpPlan (Reg.BSQ_SHED_RATE / 0x40000) (Reg.BSQ_SHED_RATE % 0x1000) 0).isNone = true
      ∧ (portWrite now .a fpPlan (Reg.BSQ_SHED_RATE / 0x40000) (Reg.BSQ_SHED_RATE % 0x40000 / 0x1000) (Reg.BSQ_SHED_RATE % 0x1000) 0).isNone
        = true
      ∧ (safeWrite now .a fpPlan (Reg.BSQ_SHED_RATE / 0x40000) (Reg.BSQ_SHED_RATE % 0x1000) 0).isNone = true
      ∧ 0x42 % 4 ≠ 0 ∧ (rowAt 0x38).isSome = false ∧ isSlot 0x38 = false := by decide +kernel
theorem meets_RegisterAccessesComplete_read :
    (view []).live = true ∧ ¬(Reg.CBB_SEM ≤ Reg.CAD_FRAME ∧ Reg.CAD_FRAME < Reg.CBB_SEM + 16)
      ∧ ¬(Reg.CBB_SEM ≤ Reg.CAD_CTRL ∧ Reg.CAD_CTRL < Reg.CBB_SEM + 16) ∧ (view []).me.fired = [] ∧ (view []).pageOn Reg.CAD_FRAME = true ∧ isLow Reg.CAD_FRAME = true
      ∧ Reg.CAD_FRAME % 0x1000 < 0xFF8 ∧ isLow (Reg.CAD_FRAME + 4) = false ∧ isSlot (Reg.CAD_FRAME + 4) = false ∧ Reg.CAD_FRAME % 4 = 0
      ∧ Reg.CAD_FRAME % 0x40000 / 0x1000 < pagesOnDie (Reg.CAD_FRAME / 0x40000) ∧ isSlot Reg.CAD_FRAME = false
      ∧ isLow Reg.CAD_CTRL = false ∧ 4 ≤ Reg.CAD_CTRL % 0x1000 ∧ isLow (Reg.CAD_CTRL - 4) = false ∧ isSlot Reg.CAD_CTRL = false
      ∧ (view []).pageOn Reg.CAD_CTRL = true := by decide +kernel
theorem meets_RegisterAccessesComplete_store :
    let off := Reg.TE_CHK_CFG.inst 7
    off % 4 = 0 ∧ off % 0x40000 / 0x1000 < pagesOnDie (off / 0x40000) ∧ accOf off = some .rwl ∧ 0x40 ≤ off % 0x1000
      ∧ [T.SNS, T.TE, T.PSQ, T.PDMA, T.GLV, T.CLK, T.EVA].contains (off / 0x40000) = true ∧ (view []).live = true
      ∧ (view []).may fpPlan off = true ∧ Reg.PDMA_CFG.inst 3 / 0x40000 = T.PDMA ∧ Reg.PDMA_CFG.inst 3 % 0x1000 = 0x44
      ∧ accOf (Reg.PDMA_CFG.inst 3) = some .rwl ∧ (view []).may fpPlan (Reg.PDMA_CFG.inst 3) = true ∧ Reg.PCI_LINK_CFG % 4 = 0 ∧ Reg.PCI_LINK_CFG / 0x40000 = T.HUB_PCI
      ∧ Reg.PCI_LINK_CFG % 0x40000 / 0x1000 < pagesOnHub (Reg.PCI_LINK_CFG / 0x40000) ∧ accOf Reg.PCI_LINK_CFG = some .rwl
      ∧ 0x40 ≤ Reg.PCI_LINK_CFG % 0x1000 ∧ (view []).hmay (.pair 0) Reg.PCI_LINK_CFG = true
      ∧ ∀ r ∈ [Reg.EVT_RAW, Reg.EVT_EN, Reg.EVT_SET, Reg.CNT_OVF], headReg T.CLK 0 r % 0x1000 = r
        ∧ (rowAt (headReg T.CLK 0 r)).isSome = true := by decide +kernel
/-! ## The machine as a whole -/

theorem meets_QueueRunsInOrder :
    ∃ t, Sys2Proof.core.run 1 (State.reset.withPending ([Instr.cbbFarCycleStart now .a] ++ [])) = .next t ∧ t.pending = [] := ⟨_, rfl, rfl⟩
theorem meets_StepsEnterEveryTrigger : State.reset.NoTriggerWaits ∧ ∃ t, step State.reset = .next t := ⟨⟨rfl, rfl⟩, _, rfl⟩
theorem meets_ChannelsAreIsolated :
    dieOf (.slotStart now .b) = some (now, .b) ∧ ∃ t, exec (.slotStart now .b) State.reset = .next t := ⟨rfl, _, rfl⟩

theorem meets_AbsentPagesReadZero :
    let s := (built [] id).onSide .b fun x => x.modRst fun r => { r with phase := .faultReset }
    0x40 % 4 = 0 ∧ (view []).me.fired = [] ∧ (s.chan .b).rst.phase ≠ .run ∧ (s.at_ now .b).me.fired = []
      ∧ (s.at_ now .b).reachesHub (.pf .a) = true ∧ Reg.TE_STAT % 4 = 0
      ∧ (State.reset.at_ now .a).domOn (pageDomain (Reg.TE_STAT / 0x40000) (Reg.TE_STAT % 0x40000 / 0x1000)) = false
      ∧ pagesOnDie (Reg.TE_STAT.inst 8 / 0x40000) ≤ Reg.TE_STAT.inst 8 % 0x40000 / 0x1000 ∧ Reg.PCI_LINK_STAT / 0x40000 ≠ T.PWR
      ∧ Reg.PCI_LINK_STAT / 0x40000 ≠ T.EVA ∧ pagesOnHub (0x40 / 0x40000) ≤ 0x40 % 0x40000 / 0x1000
      ∧ (built [] fun x => { x with hub := { x.hub with down := true } }).hub.down = true := by decide +kernel
theorem meets_TimeBasesAdvance :
    (State.reset.chan .a).ticking = true ∧ ((State.reset.onSide .a fun x => x.modRst fun r => { r with phase := .off }).chan .a).ticking = false := by
  decide +kernel

/-- A counter of each kind: of the die, of the hub, of the register page, of 32 bits and of 16 bits, below its maximum and
at it. -/
theorem meets_CountersSaturate :
    let x := view [(Ct.TE_CHECK_FAIL_FRAMES.reg.inst 7, 0xFFFF)] fun x =>
      (x.hwrN (Ct.IOV_OUT_OF_WINDOW.reg.inst 17) 0xFFFFFFFF).hwrN (x.rm Reg.RM_EQ_DROPPED) 0xFFFFFFFF
    Ct.TE_CHECK_FAIL_FRAMES.n < 32 ∧ Ct.TE_CHECK_FAIL_FRAMES.max = 0xFFFF ∧ Ct.TE_CHECK_FAIL_FRAMES.t ≠ T.EVA ∧ 63 < 64
      ∧ Ct.TE_CHECK_FAIL_FRAMES.t ≠ 0x30 ∧ Ct.TE_CHECK_FAIL_FRAMES.max ≤ x.rdN (Ct.TE_CHECK_FAIL_FRAMES.reg.inst 7)
      ∧ x.rdN (Ct.EVA_INJECTED.reg.inst 0) < Ct.EVA_INJECTED.max ∧ Ct.EVA_INJECTED.t = T.EVA ∧ Ct.EVA_INJECTED.max = 0xFFFFFFFF
      ∧ Ct.EVA_INJECTED.n < 32 ∧ Ct.IOV_OUT_OF_WINDOW.max ≤ x.hrdN (Ct.IOV_OUT_OF_WINDOW.reg.inst 17)
      ∧ x.hrdN (Ct.IOV_OUT_OF_WINDOW.reg.inst 0) < Ct.IOV_OUT_OF_WINDOW.max ∧ Ct.RM_EQ_DROPPED.t = 0x30
      ∧ Ct.RM_EQ_DROPPED.n + 23 < 32 ∧ Ct.RM_EQ_DROPPED.max ≤ x.hrdN (x.rm (Ct.RM_EQ_DROPPED.reg + 4 * 0))
      ∧ x.hrdN (x.rm (Ct.RM_EQ_DROPPED.reg + 4 * 23)) < Ct.RM_EQ_DROPPED.max := by decide +kernel
theorem meets_RaiseWinsOverClear :
    let x := view [(headReg T.CLK 0 Reg.EVT_EN, 1), (headReg T.CLK 0 Reg.EVT_ROUTE, 0x1C0)] fun x =>
      (x.hwr (headReg T.HUB_IOV 0 Reg.EVT_EN) 1).hwr (headReg T.HUB_IOV 0 Reg.EVT_ROUTE) 0x1C0
    0 < eventCount T.CLK ∧ eventCount T.CLK ≤ 32 ∧ 0 < eventCount T.HUB_IOV ∧ eventCount T.HUB_IOV ≤ 32 ∧ (63 : Nat) < 64
      ∧ x.live = true ∧ bit (x.prd false (headReg T.CLK 0 Reg.EVT_EN)) 0 = true
      ∧ bit (x.prd true (headReg T.HUB_IOV 0 Reg.EVT_EN)) 0 = true
      ∧ ∀ r ∈ [(6, Ct.EVA_DELIVERED_HOST), (7, Ct.EVA_DELIVERED_FW), (8, Ct.EVA_DELIVERED_SAFE)],
        bit (x.prd false (headReg T.CLK 0 Reg.EVT_ROUTE)) r.1 = true ∧ (x.prd false (r.2.reg.inst 0)).toNat < 0xFFFFFFFF
          ∧ bit (x.prd true (headReg T.HUB_IOV 0 Reg.EVT_ROUTE)) r.1 = true ∧ (x.prd true (r.2.reg.inst 0)).toNat < 0xFFFFFFFF := by
  decide +kernel
theorem meets_OverflowClears :
    bit (1 : Word) 0 = true ∧ (rowAt (headReg T.TE 7 (0xF00 + 4 * 0))).isSome = true ∧ (63 : Nat) < 64
      ∧ Reg.TE_CHK_CFG ≠ headReg T.TE 7 Reg.CNT_OVF := by decide +kernel
/-- Places that no rule of their own covers: the statement's conditions on an offset of the die. -/
def plainPlace (off : Nat) : Bool :=
  off % 4 == 0 && decide (off % 0x40000 / 0x1000 < pagesOnDie (off / 0x40000)) && (rowAt off).isSome && off % 0x1000 != Reg.OWNER
    && !isSlot off && off != Reg.HBX_MB_DOOR && off != Reg.LOFT_CFG && !(decide (Reg.LOFT_SEAL ≤ off) && decide (off < Reg.LOFT_SEAL + 32))
    && off / 0x40000 != T.CBB

theorem meets_RefusedWritesCount :
    let x := view [(headReg T.CANG 0 Reg.LOCK, 1)] fun x => x.hwrN (Ct.IOV_OUT_OF_WINDOW.reg.inst 17) 0xFFFFFFFF
    plainPlace Reg.CANG_CFG = true ∧ x.pageOn Reg.CANG_CFG = true ∧ x.may (.pf .a) Reg.CANG_CFG = false
      ∧ x.hrdN (Ct.IOV_OUT_OF_WINDOW.reg.inst (17 * Ch.b.die)) = 0xFFFFFFFF := by decide +kernel
theorem meets_RefusedWritesCount_pair (c : Ch) : Init.pair 3 ≠ .pf c := nofun
theorem meets_TriggersEnterSafe (k : Fin 4) :
    let t : Trigger := { cls := 255, block := 0, inst := 0, ev := 0, stream := 0 }
    let x := view [(Reg.SAFE_STAT, k.val)] fun x => { x with me := { x.me with fired := [t] } }
    x.me.fired = t :: [] ∧ t.cls < 256 ∧ x.safeState = k.val := by revert k; decide +kernel
/-- A loft of which unit 1 waits for its wipe and block 1 is poisoned. -/
def loftSt : Side := view [] fun x => x.modMem fun m => { m with wipe := [(1, 2)], poison := [1] }

theorem meets_MemoriesReadBack_loft :
    loftSt.me.mem.loft.wf = true ∧ (∀ u ∈ unitsAt 0 64, wipePending loftSt.me.mem.wipe u = false)
      ∧ (∀ b ∈ partBlocks 0 64, blockLost loftSt.me.mem b = false)
      ∧ (∃ b ∈ partBlocks 127 1, 64 * b ≤ 127 ∧ 127 < 64 * b + 64 ∧ blockLost loftSt.me.mem b = true)
      ∧ (∃ u ∈ unitsAt 0x1FFFFF 2, wipePending loftSt.me.mem.wipe u = true) := by decide +kernel
theorem meets_MemoriesReadBack :
    Sram.zero.cells.wf = true ∧ (∀ j, Sram.zero.valid.contains (j / 64) = false → Sram.zero.cells.get j = 0)
      ∧ (State.reset.side .a).me.mem.loft.wf = true := ⟨rfl, fun _ _ => rfl, rfl⟩

/-- Every memory after reset is in its canonical form. -/
theorem reset_memories : ∀ d : Ch, (State.reset.chan d).mem.loft.wf = true ∧ (State.reset.chan d).mem.yard.cells.wf = true
    ∧ (State.reset.chan d).icons.cells.wf = true ∧ State.reset.hub.host.wf = true := by intro d; cases d <;> exact ⟨rfl, rfl, rfl, rfl⟩

/-! ## Single steps worked out from the spec -/

/-- What a step answers on a command. -/
def after (c : Instr) (s : State) : State :=
  match exec c s with
  | .next t => t
  | _ => s

/-- The table gives its rows no bits. -/
theorem test_decode_none : decodeTableWord 32 0 = none := rfl
/-- R94: RUN with START_MT while VT is UNSET starts the cadence by MT with GRID_VALID 0; its first frame is number 0. -/
theorem test_cadence_mt :
    let x := (after (.cadRun now .a fpPlan true) (built [] id)).side .a
    x.rd Reg.CAD_CTRL = 3 ∧ x.cadSrc ≠ 0 ∧ x.flag Reg.CAD_STAT 2 = false ∧ x.rd64 Reg.CAD_FRAME = 0 ∧ x.me.cad.begun = true := by decide +kernel
/-- R870: FP-HOST alone writes OWNER.INSTANCE. -/
theorem test_owner_instance :
    ((after (.registerWrite now .a (.pair 0) .die (Reg.TE_STAT / 0x1000 * 0x1000 + Reg.OWNER) 0x0300) (built [] id)).reg .a
      (headReg T.TE 0 Reg.OWNER)).toNat / 0x100 = 3
      ∧ ((after (.registerWrite now .a (.pair 1) .die (Reg.TE_STAT / 0x1000 * 0x1000 + Reg.OWNER) 0x0300) (built [] id)).reg .a
      (headReg T.TE 0 Reg.OWNER)).toNat / 0x100 = 0 := by decide +kernel
/-- R9: LOCK is set by a write of 1 and no write clears it. -/
theorem test_lock_stays :
    (after (.registerWrite now .a fpPlan .die (headReg T.CLK 0 Reg.LOCK) 0) (after (.lock now .a fpPlan false (T.CLK * 64)) (built [] id))).reg .a
      (headReg T.CLK 0 Reg.LOCK) = 1 := by decide +kernel
/-- R595: a write of CANG_CFG.MODE takes a controller from off to error-active, and back. -/
theorem test_can_mode :
    let s := after (.registerWrite now .a fpPlan .die (Reg.CANG_CFG.inst 15) 2) (built [] id)
    s.reg .a (Reg.CANG_STAT.inst 15) = 0 ∧ (after (.registerWrite now .a fpPlan .die (Reg.CANG_CFG.inst 15) 0) s).reg .a
      (Reg.CANG_STAT.inst 15) = 3 := by decide +kernel
/-- R595: a transmit error adds 8 to TEC: 127 becomes 135 and the controller is error-passive. -/
theorem test_can_passive :
    (after (.canProtocolError now .a 0 .tx) (built [(Reg.CANG_STAT, 127 * 4)] id)).reg .a Reg.CANG_STAT = word (135 * 4 + 1) := by decide +kernel
/-- R35: a thousand cycles are a microsecond of MT. -/
theorem test_mt : ((State.reset.elapse ⟨1000, 0⟩).chan .a).time.mt = 1000 ∧ ((State.reset.elapse ⟨1000, 0⟩).chan .b).time.mt = 0 := by
  decide +kernel
/-- R884: a saturated counter that is cleared while it counts restarts at 1. -/
theorem test_ovf_one :
    (after (.cntOvfClear now .a fpPlan false (T.CLK * 64) 1 1) (built [(Ct.CLK_FAULTS.reg, 0xFFFF)] id)).reg .a Ct.CLK_FAULTS.reg = 1 := by
  decide +kernel
/-- R867: a reserved place of the head keeps nothing. -/
theorem test_reserved : (after (.registerWrite now .a fpPlan .die 0x38 5) (built [] id)) = built [] id := by decide +kernel
/-- R729, R730: READY from INIT leads to NORMAL and releases FAULT_x_N. -/
theorem test_ready :
    ((after (.safeReady now .a fpSafe 1) (built [] id)).side .a).safeState = 1
      ∧ ((after (.safeReady now .a fpSafe 1) (built [] id)).side .a).me.safe.faultLow = false := by decide +kernel
/-- R731: ENTER with class 0x20 enters SAFE with class 0x0F. -/
theorem test_enter_class :
    ((after (.safeEnter now .a fpSafe 0x20) (built [] id)).side .a).field Reg.SAFE_STAT 10 3 = 0x0F := by decide +kernel
/-- R402: an SRAM byte of a line that was never written reads zero. -/
theorem test_sram : (Sram.zero.put 5 [7]).byte 5 = 7 ∧ (Sram.zero.put 5 [7]).byte 6 = 0 := by decide +kernel


end Sys2Proof.Tests
end

section
/-!
SUPPORT. A command of one channel's die acts on that channel's view alone (R14, R15): every such command is the time that it
carries and then one operation on the view.
-/

namespace Sys2Proof.Machine

/-- The outcome is the time of the command and then one operation on channel d's view, and nothing else. -/
def ActsOnView (n : Now) (d : Ch) (s : State) (o : Host.Outcome State Fault Refusal) : Prop :=
  ∃ f : Side → Side, o = .next (s.after n d f)

/-- What acts on one channel's view leaves the peer die alone, but for the running of its clocks. -/
theorem ActsOnView.peer_eq {n : Now} {d : Ch} {s t : State} {o : Host.Outcome State Fault Refusal} (h : ActsOnView n d s o)
    (ht : o = .next t) : t.chan d.peer = (s.elapse n).chan d.peer := by
  obtain ⟨f, hf⟩ := h
  cases hf.symm.trans ht
  exact State.onSide_peer (s.elapse n) d f

theorem elapse_actsOnView (n : Now) (d : Ch) (s : State) : ActsOnView n d s (.next (s.elapse n)) := by
  cases d <;> exact ⟨id, rfl⟩

theorem onLive_actsOnView (n : Now) (d : Ch) (f : Side → Side) (s : State) : ActsOnView n d s (onLive n d f s) := ⟨_, rfl⟩

theorem onAny_actsOnView (n : Now) (d : Ch) (f : Side → Side) (s : State) : ActsOnView n d s (onAny n d f s) := ⟨_, rfl⟩

/-! ## Pages -/

/-- A command on the head of a page of the die. -/
theorem onPage_die_actsOnView (n : Now) (d : Ch) (w : Init) (page : Nat) (r : Reg) (f : Nat → Nat → Side → Side) (s : State) :
    ActsOnView n d s (onPage n d w false page r f s) := by
  unfold onPage
  split
  · exact elapse_actsOnView n d s
  · exact onLive_actsOnView n d _ s

/-- A command on the head of a page, for which `dieOf` names a die only when the page is of the die. -/
theorem onPage_actsOnView {m n : Now} {c d : Ch} {hub : Bool} (h : (if hub then none else some (m, c)) = some (n, d)) (w : Init)
    (page : Nat) (r : Reg) (f : Nat → Nat → Side → Side) (s : State) : ActsOnView n d s (onPage m c w hub page r f s) := by
  cases hub with
  | true => cases h
  | false => cases h; exact onPage_die_actsOnView m c w page r f s

/-! ## Register writes -/

/-- The register's own command, where a write has one, acts on channel d's view. -/
def WriteActsOnView (n : Now) (d : Ch) (s : State) (o : Option (State → Host.Outcome State Fault Refusal)) : Prop :=
  ∀ f, o = some f → ActsOnView n d s (f s)

section
variable {n : Now} {d : Ch} {s : State} {o o' : Option (State → Host.Outcome State Fault Refusal)}

theorem WriteActsOnView.none : WriteActsOnView n d s none := fun _ h => nomatch h

theorem WriteActsOnView.some {f : State → Host.Outcome State Fault Refusal} (h : ActsOnView n d s (f s)) :
    WriteActsOnView n d s (some f) := fun _ e => Option.some.inj e ▸ h

theorem WriteActsOnView.map {α : Type} {a : Option α} {g : α → State → Host.Outcome State Fault Refusal}
    (h : ∀ k, ActsOnView n d s (g k s)) : WriteActsOnView n d s (a.map g) := by
  intro f e
  obtain ⟨k, -, rfl⟩ := Option.map_eq_some_iff.mp e
  exact h k

theorem WriteActsOnView.or (h : WriteActsOnView n d s o) (h' : WriteActsOnView n d s o') : WriteActsOnView n d s (o.or o') := by
  intro f e
  rcases Option.or_eq_some_iff.mp e with e | ⟨-, e⟩
  · exact h f e
  · exact h' f e

end

theorem headWrite_die_actsOnView (n : Now) (d : Ch) (w : Init) (page o : Nat) (v : Word) (s : State) :
    WriteActsOnView n d s (headWrite n d w false page o v) := by
  unfold headWrite
  repeat' split
  any_goals exact .none
  all_goals exact .some (onPage_die_actsOnView n d w page _ _ s)

theorem timeWrite_actsOnView (n : Now) (d : Ch) (w : Init) (t o : Nat) (v : Word) (s : State) :
    WriteActsOnView n d s (timeWrite n d w t o v) := by
  unfold timeWrite
  dsimp only
  repeat' split
  any_goals exact .none
  all_goals exact .some ⟨_, rfl⟩

theorem portWrite_actsOnView (n : Now) (d : Ch) (w : Init) (t i o : Nat) (v : Word) (s : State) :
    WriteActsOnView n d s (portWrite n d w t i o v) := by
  unfold portWrite
  repeat' split
  any_goals exact .none
  any_goals exact .map fun _ => ⟨_, rfl⟩
  all_goals exact .some ⟨_, rfl⟩

theorem safeWrite_actsOnView (n : Now) (d : Ch) (w : Init) (t o : Nat) (v : Word) (s : State) :
    WriteActsOnView n d s (safeWrite n d w t o v) := by
  unfold safeWrite
  repeat' split
  any_goals exact .none
  all_goals exact .some ⟨_, rfl⟩

/-- A write of a word of the die. -/
theorem writeDie_actsOnView (n : Now) (d : Ch) (w : Init) (off : Nat) (v : Word) (s : State) :
    ActsOnView n d s (writeDie n d w off v s) := by
  unfold writeDie
  dsimp only
  split
  · exact elapse_actsOnView n d s
  · split
    · next f hf => exact headWrite_die_actsOnView n d w _ _ v s f hf
    · split
      · next f hf =>
        exact ((timeWrite_actsOnView n d w _ _ v s).or
          ((portWrite_actsOnView n d w _ _ _ v s).or (safeWrite_actsOnView n d w _ _ v s))) f hf
      · exact onLive_actsOnView n d _ s

/-- A register write outside the hub's region, the only one for which `dieOf` names a die. -/
theorem execRegisterWrite_actsOnView {m n : Now} {c d : Ch} {sp : RegSpace}
    (h : (if sp = .hub then none else some (m, c)) = some (n, d)) (w : Init) (off : Nat) (v : Word) (s : State) :
    ActsOnView n d s (execRegisterWrite m c w sp off v s) := by
  unfold execRegisterWrite
  cases sp with
  | hub => cases h
  | die =>
    cases h
    split
    · exact elapse_actsOnView m c s
    · exact writeDie_actsOnView m c w off v s
  | rm =>
    cases h
    split
    · exact elapse_actsOnView m c s
    · exact onAny_actsOnView m c _ s

/-! ## All commands of a die -/

/-- A thermal poll of a die's sensors. -/
theorem execThermalPoll_actsOnView {m n : Now} {c d : Ch} {hub : Bool}
    (h : (if hub then none else some (m, c)) = some (n, d)) (temps : List Int) (s : State) :
    ActsOnView n d s (execThermalPoll m hub c temps s) := by
  unfold execThermalPoll
  cases hub with
  | true => cases h
  | false =>
    cases h
    split
    · exact elapse_actsOnView m c s
    · exact onAny_actsOnView m c _ s

/-- Every command that `dieOf` names a die for acts on that channel's view: a page, a register or a sensor of the die, or by
its definition `onLive`, `onAny` or `onTick` of the channel. -/
theorem exec_actsOnView {c : Instr} {n : Now} {d : Ch} (h : dieOf c = some (n, d)) (s : State) :
    ActsOnView n d s (exec c s) := by
  cases c with
  | iovCtrlReset | mailboxPop | hubReset | hubReturn | pcieLinkDown | pcieLinkUp | shedCfgWrite | heartbeatReceived
  | heartbeatPeriodMiss | mailboxSend | mailboxReceive => cases h
  | blkQuiesce | blkDisable | softReset | evtRawClear | evtEnWrite | evtSet | cntOvfClear | lock =>
    exact onPage_actsOnView h _ _ _ _ s
  | thermalPoll => exact execThermalPoll_actsOnView h _ s
  | registerWrite => exact execRegisterWrite_actsOnView h _ _ _ s
  | _ => cases h; exact ⟨_, rfl⟩

/-- Settles O52: the command acts on the view of the channel that `dieOf` names, which holds nothing of the peer die. -/
theorem channelsAreIsolated : Obligations.ChannelsAreIsolated := by
  unfold Obligations.ChannelsAreIsolated
  intro c n d s t hd ht
  exact (exec_actsOnView hd s).peer_eq ht

end Sys2Proof.Machine
end

section
/-!
SUPPORT. How the time bases run (R35): MT and the 96-bit readings of VT and WT after n cycles, and that cycles add up.
-/

namespace Sys2Proof.Machine

/-- A base as one number of 64 integer and 32 fractional bits of a nanosecond (R35). -/
def TBase.ticks (b : TBase) : Nat := b.ns * 2 ^ 32 + b.frac

/-- A base after n cycles, by its 96-bit reading. -/
theorem TBase.run_eq (b : TBase) (n : Nat) :
    b.run n = { b with ns := (b.ticks + n * b.inc) / 2 ^ 32 % 2 ^ 64, frac := (b.ticks + n * b.inc) % 2 ^ 32 } := rfl

@[simp] theorem TBase.y_run (b : TBase) (n : Nat) : (b.run n).y = b.y := by rw [TBase.run_eq]

/-- The increment stands while the correction stands. -/
@[simp] theorem TBase.inc_run (b : TBase) (n : Nat) : (b.run n).inc = b.inc := by
  rw [TBase.inc, TBase.inc, TBase.y_run]

/-- A base adds its increment each cycle, modulo its 96 bits. -/
theorem TBase.ticks_run (b : TBase) (n : Nat) : (b.run n).ticks = (b.ticks + n * b.inc) % 2 ^ 96 := by
  simp only [TBase.ticks, TBase.run]
  omega

/-- Cycles of a base add up. -/
theorem TBase.run_run (b : TBase) (m n : Nat) : (b.run m).run n = b.run (m + n) := by
  have h : (b.run m).ticks + n * b.inc = (b.ticks + m * b.inc) % 2 ^ 96 + n * b.inc := by rw [b.ticks_run]
  rw [TBase.run_eq (b.run m), TBase.inc_run, h, TBase.run_eq b (m + n), Nat.add_mul]
  have hns : ((b.ticks + m * b.inc) % 2 ^ 96 + n * b.inc) / 2 ^ 32 % 2 ^ 64
      = (b.ticks + (m * b.inc + n * b.inc)) / 2 ^ 32 % 2 ^ 64 := by omega
  have hfrac : ((b.ticks + m * b.inc) % 2 ^ 96 + n * b.inc) % 2 ^ 32 = (b.ticks + (m * b.inc + n * b.inc)) % 2 ^ 32 := by omega
  rw [hns, hfrac, TBase.run_eq b m]

/-- On a die whose AON domain runs, MT and the two slaved bases run and nothing else of the time state changes. -/
theorem Chan.elapse_time {c : Chan} (h : c.ticking = true) (n : Nat) :
    (c.elapse n).time = { c.time with mt := (c.time.mt + n) % 2 ^ 64, vt := c.time.vt.run n, wt := c.time.wt.run n } := by
  simp only [Chan.elapse, h, if_true]

/-- Time stands on every other die. -/
theorem Chan.elapse_of_not_ticking {c : Chan} (h : c.ticking = false) (n : Nat) : c.elapse n = c := by
  simp only [Chan.elapse, h, Bool.false_eq_true, if_false]

/-- Whether a die's AON domain runs does not change with time. -/
@[simp] theorem Chan.elapse_ticking (c : Chan) (n : Nat) : (c.elapse n).ticking = c.ticking := by
  simp only [Chan.ticking, Chan.elapse_rst]

/-- Cycles of a channel add up in its time state. -/
theorem Chan.elapse_elapse_time {c : Chan} (h : c.ticking = true) (m n : Nat) :
    ((c.elapse m).elapse n).time = (c.elapse (m + n)).time := by
  have hm : (c.elapse m).ticking = true := by rw [Chan.elapse_ticking, h]
  have hmt : ((c.time.mt + m) % 2 ^ 64 + n) % 2 ^ 64 = (c.time.mt + (m + n)) % 2 ^ 64 := by omega
  rw [Chan.elapse_time hm, Chan.elapse_time h, Chan.elapse_time h]
  simp only [TBase.run_run, hmt]

theorem State.at_me (s : State) (n : Now) (d : Ch) : (s.at_ n d).me = (s.chan d).elapse (n.on d) := s.chan_elapse n d

theorem Now.on_add (m n : Now) (d : Ch) : (⟨m.a + n.a, m.b + n.b⟩ : Now).on d = m.on d + n.on d := by cases d <;> rfl

/-- Settles O54: MT and the 96-bit reading of VT run cycle by cycle on a die whose AON domain runs, where cycles add up;
on every other die nothing moves. -/
theorem timeBasesAdvance : Obligations.TimeBasesAdvance := by
  unfold Obligations.TimeBasesAdvance
  intro s m n d
  refine ⟨fun h => ⟨?mt, ?vt, ?adds⟩, fun h => ?stands⟩
  case mt => rw [Side.mt, State.at_me, Chan.elapse_time h]
  case vt => rw [State.at_me, Chan.elapse_time h]; exact TBase.ticks_run _ _
  case adds =>
    rw [State.at_me, State.at_me, State.chan_elapse, Now.on_add]
    exact Chan.elapse_elapse_time h (m.on d) (n.on d)
  case stands => rw [State.at_me, Chan.elapse_of_not_ticking h]

end Sys2Proof.Machine
end

section
/-!
SUPPORT. What a register of the head of a page reads (R864, R865, R867), and the values of the head after reset.
-/

namespace Sys2Proof.Machine

/-! ## The place of a head register -/

section
variable {t i r : Nat}

theorem headReg_type (hi : i < 64) (hr : r < 0x1000) : headReg t i r / 0x40000 = t :=
  show (t * 0x40000 + 0x1000 * i + r) / 0x40000 = t by omega

theorem headReg_page (hi : i < 64) (hr : r < 0x1000) : headReg t i r % 0x40000 / 0x1000 = i :=
  show (t * 0x40000 + 0x1000 * i + r) % 0x40000 / 0x1000 = i by omega

theorem headReg_offset (hr : r < 0x1000) : headReg t i r % 0x1000 = r := mod_page t i r hr

/-- A register of another block is another register. -/
theorem headReg_ne {a : Nat} (hi : i < 64) (hr : r < 0x1000) (h : a / 0x40000 ≠ t) : headReg t i r ≠ a := by
  rintro rfl
  exact h (headReg_type hi hr)

/-- A block of the die has at most 21 pages. -/
theorem pagesOnDie_le : ∀ t < 0x1B, pagesOnDie t ≤ 21 := by decide

/-- Every page of a die lies in one of its 24 domains. -/
theorem pageDomain_lt : ∀ t < 0x1B, ∀ i < pagesOnDie t, pageDomain t i < 24 := by decide

/-! ## The rows of the head -/

/-- The registers of the head that a statement of the reset state names. -/
abbrev headRegs : List Nat := [Reg.BLK_ID, Reg.BLK_VER, Reg.BLK_CTRL, Reg.EVT_RAW]

/-- The head of a page of the map is described by the common rows (R867). -/
theorem rowAt_of_headRow {a : Reg} {q : Row} (ha : a / 0x40000 < T.RM)
    (h : (rowsHEAD.find? fun r' => r'.covers 0 (a % 0x1000)) = some q) : rowAt a = some q := by
  simp only [rowAt, if_pos ha, h]

theorem rowAt_head {q : Row} (ht : t < T.RM) (hi : i < 64) (hr : r < 0x1000)
    (h : (rowsHEAD.find? fun r' => r'.covers 0 r) = some q) : rowAt (headReg t i r) = some q :=
  rowAt_of_headRow ((headReg_type hi hr).symm ▸ ht) ((headReg_offset hr).symm ▸ h)

/-- None of them is write-only. -/
theorem accOf_head (ht : t < T.RM) (hi : i < 64) (hr : r ∈ headRegs) :
    accOf (headReg t i r) ≠ some .wo := by
  simp only [headRegs, List.mem_cons, List.not_mem_nil, or_false] at hr
  rcases hr with rfl | rfl | rfl | rfl <;>
  · rw [accOf, rowAt_head ht hi (by decide) rfl]
    decide

/-- BLK_ID names the page (R867). -/
theorem resetOf_blkId (die : Nat) (ht : t < T.RM) (hi : i < 64) :
    resetOf die (headReg t i Reg.BLK_ID) = word (0x10000 * t + 0x100 * i + die) := by
  have hoff : headReg t i Reg.BLK_ID % 0x1000 = 0 := headReg_offset (by decide)
  simp only [resetOf, hoff, headReg_type (r := Reg.BLK_ID) hi (by decide), headReg_page (r := Reg.BLK_ID) hi (by decide), ht, blkId,
    decide_true, Bool.and_self, if_true, word, Nat.mul_comm]

/-- The other registers of the head have the reset value of their row. -/
theorem resetOf_head {die : Nat} {q : Row} (hd : die ≠ 2) (ht : t < T.RM) (hi : i < 64) (r : Nat) (hr : 0 < r ∧ r < 0xF00)
    (h : (rowsHEAD.find? fun r' => r'.covers 0 r) = some q) : resetOf die (headReg t i r) = BitVec.ofNat 32 q.reset := by
  obtain ⟨hr0, hr⟩ := hr
  have hr' : r < 0x1000 := by omega
  have hrm : ∀ a : Nat, a / 0x40000 = T.RM → headReg t i r ≠ a := fun a ha => headReg_ne hi hr' (ha ▸ ht.ne')
  have hid : headReg t i r ≠ Reg.RM_ID.inst 1 := hrm _ (by decide)
  have hmask : headReg t i r ≠ Reg.RM_LOG_MASK.hi := hrm _ (by decide)
  have hmask1 : headReg t i r ≠ (Reg.RM_LOG_MASK.inst 1).hi := hrm _ (by decide)
  have hctr : ¬0xF00 ≤ r := by omega
  simp [resetOf, headReg_offset hr', hr0.ne', hd, hid, hmask, hmask1, hctr, rowAt_head ht hi hr' h]

/-- None of them shows what hardware computes at the read. -/
theorem Side.computed_head (x : Side) (t i : Nat) : ∀ r ∈ headRegs, x.computed t i r = none := by
  simp [Side.computed, headRegs, Reg.BLK_VER, Reg.BLK_CTRL, Reg.EVT_RAW]

/-- What a head register reads: nothing while the page's domain is off or the die does not run, else the register. -/
theorem Side.regRead_head (x : Side) (ht : t < 0x1B) (hi : i < pagesOnDie t) {r : Nat}
    (hr : r ∈ headRegs) :
    x.regRead (headReg t i r) = if x.live && x.domOn (pageDomain t i) then x.rd (headReg t i r) else 0 := by
  have hi' : i < 64 := by have := pagesOnDie_le t ht; omega
  have hr' : r < 0x1000 := by revert r; decide
  have hstat : r ≠ Reg.BLK_STAT ∧ r ≠ Reg.EVT_STAT ∧ r ≠ Reg.EVT_SET := by revert r; decide
  have hacc : accOf (headReg t i r) ≠ some .wo := accOf_head (Nat.lt_trans ht (by decide)) hi' hr
  simp only [Side.regRead, Side.pageOn, headReg_type hi' hr', headReg_page hi' hr', headReg_offset hr', x.computed_head t i r hr,
    hstat, hacc, Nat.not_le.mpr hi]
  cases x.live && x.domOn (pageDomain t i) <;> simp

end

/-! ## The values after reset -/

/-- A key that a table does not list reads the default. -/
theorem Tbl.get_of_not_key {α : Type} (d : α) {l : Tbl α} {k : Nat} (h : ∀ e ∈ l, e.1 ≠ k) : Tbl.get d l k = d := by
  induction l with
  | nil => rfl
  | cons e l ih =>
    rw [Tbl.get, if_neg (h e List.mem_cons_self), ih fun e he => h e (List.mem_cons_of_mem _ he)]

/-- What a cold reset leaves different from the reset table lies behind the registers of `headRegs` in its page. -/
theorem coldRegs_offset : ∀ e ∈ coldRegs Fuses.fresh true, 0x28 ≤ e.1 % 0x1000 := by decide +kernel

theorem reset_rd_head (d : Ch) (t i : Nat) {r : Nat} (hr : r < 0x28) :
    (State.reset.side d).rd (headReg t i r) = resetOf d.die (headReg t i r) := by
  have hregs : (State.reset.side d).me.regs = coldRegs Fuses.fresh true := by cases d <;> rfl
  have hne : ∀ e ∈ coldRegs Fuses.fresh true, e.1 ≠ headReg t i r := by
    intro e he heq
    have hoff := coldRegs_offset e he
    rw [heq, headReg_offset (by omega)] at hoff
    omega
  rw [Side.rd, hregs]
  exact Tbl.get_of_not_key _ hne

/-- The head of a page of a domain that is on: BLK_ID names the page, BLK_VER and BLK_CTRL stand at their reset values, and
no event is raised (R865, R867). -/
def headAtReset (d : Ch) (t i : Nat) : List (Reg × Word) :=
  [(Reg.BLK_ID, word (0x10000 * t + 0x100 * i + d.die)), (Reg.BLK_VER, 0x0B010001#32), (Reg.BLK_CTRL, 1#32), (Reg.EVT_RAW, 0#32)]

theorem resetOf_headAtReset {d : Ch} {t i : Nat} (ht : t < T.RM) (hi : i < 64) :
    ∀ e ∈ headAtReset d t i, resetOf d.die (headReg t i e.1) = e.2 := by
  have hd : d.die ≠ 2 := by cases d <;> decide
  simp only [headAtReset, List.forall_mem_cons, List.not_mem_nil, false_imp_iff, implies_true, and_true]
  exact ⟨resetOf_blkId d.die ht hi, resetOf_head hd ht hi Reg.BLK_VER (by decide) rfl,
    resetOf_head hd ht hi Reg.BLK_CTRL (by decide) rfl, resetOf_head hd ht hi Reg.EVT_RAW (by decide) rfl⟩

/-- After reset the domains 18 to 23 alone are on (R820). -/
theorem reset_domOn (d : Ch) : ∀ dom < 24, (State.reset.side d).domOn dom = decide (18 ≤ dom) := by
  cases d <;> decide +kernel

/-- What the head of a page reads after reset. -/
theorem reset_regRead_head (d : Ch) {t i : Nat} (ht : t < 0x1B) (hi : i < pagesOnDie t) :
    ∀ e ∈ headAtReset d t i,
      (State.reset.side d).regRead (headReg t i e.1) = if 18 ≤ pageDomain t i then e.2 else 0 := by
  intro e he
  have hi' : i < 64 := by have := pagesOnDie_le t ht; omega
  have hmem : e.1 ∈ headRegs := List.mem_map_of_mem he
  have hoff : e.1 < 0x28 := by revert hmem; generalize e.1 = r; revert r; decide
  have hlive : (State.reset.side d).live = true := by cases d <;> rfl
  rw [Side.regRead_head _ ht hi hmem, hlive, reset_domOn d _ (pageDomain_lt t ht i hi), reset_rd_head d t i hoff,
    resetOf_headAtReset (Nat.lt_trans ht (by decide)) hi' e he]
  simp only [Bool.true_and, decide_eq_true_eq]

/-- Settles O51: the fields by evaluation of the reset state, the heads of all pages by what the head of a page reads. -/
theorem resetState : Obligations.ResetState := by
  unfold Obligations.ResetState
  refine ⟨⟨rfl, rfl⟩, rfl, fun d => ?_⟩
  have hfields : (State.reset.side d).mt = 0 ∧ (State.reset.side d).vtState = 0 ∧ (State.reset.side d).safeState = 0 ∧
      (State.reset.side d).me.safe.faultLow = true ∧ (State.reset.side d).mode = 1 := by cases d <;> decide +kernel
  obtain ⟨hmt, hvt, hsafe, hfault, hmode⟩ := hfields
  exact ⟨hmt, hvt, hsafe, hfault, hmode, reset_domOn d, fun t ht i hi => reset_regRead_head d ht hi⟩

end Sys2Proof.Machine
end

section
/-!
SUPPORT. What the commands of a display pipe do to the view (R38, R103, R560 to R565), by the state of the pipe.
-/

namespace Sys2Proof.Machine

/-- Settles O8: the hypotheses decide each command's guards, by the state of the pipe; the flip is a register write that is
performed. -/
theorem displayPipesComplete : Obligations.DisplayPipesComplete := by
  unfold Obligations.DisplayPipesComplete
  intro s n d p hl
  refine ⟨fun hon hpage hdue => ?frame, fun m v starved hon hstart => ?line, fun hon hdp => ⟨?lost, ?connected⟩,
    fun hoff connected => ?off, fun w k v hmay => ?flip⟩
  case frame => exact onLive_ends hl (by simp only [hon, hpage, hdue, Bool.not_true, Bool.or_self, Bool.false_eq_true, if_false])
  case line => exact onLive_ends hl (by simp only [hon, hstart])
  case lost => exact onLive_ends hl (by simp only [hon, hdp, Bool.not_true, Bool.or_self, Bool.false_eq_true, if_false])
  case connected => exact onLive_ends hl (by simp only [Bool.true_or, if_true, id])
  case off =>
    refine onLive_ends hl (if_pos ?_)
    rcases hoff with hoff | hoff <;> simp only [hoff, Bool.not_false, Bool.or_true, Bool.true_or]
  case flip => exact onLive_ends hl (Side.access_of_may hmay _)

end Sys2Proof.Machine
end

section
/-!
SUPPORT. What the commands of a switch port do to the view (R48, R577 to R594): whom a received frame is for, and when a
frame starts and ends on the wire.
-/

namespace Sys2Proof.Machine

/-- A frame that carries no message of a domain in use has no base to relay it. -/
theorem ptp_paired_eq_none {o : Option PtpMsg} {g : PtpMsg → Option Bool} (h : o.bind g = none) :
    (o.bind fun m => (g m).map fun wt => (m, wt)) = none := by
  cases o with
  | none => rfl
  | some m => exact Option.map_eq_none_iff.mpr h

/-- A gPTP message of a domain in use goes to the base that the domain serves. -/
theorem ptp_paired_eq_some {o : Option PtpMsg} {g : PtpMsg → Option Bool} {m : PtpMsg} {wt : Bool} (ho : o = some m)
    (hg : g m = some wt) : (o.bind fun m => (g m).map fun wt => (m, wt)) = some (m, wt) := by
  simp only [ho, Option.bind_some, hg, Option.map_some]

/-- Settles O10: a frame is received by the first of its checks that fails, else relayed or switched; the frame that R588 and
R589 pick starts, and one whose wire time has passed ends. -/
theorem switchFramesComplete : Obligations.SwitchFramesComplete := by
  unfold Obligations.SwitchFramesComplete
  intro s n d p hl
  refine ⟨fun f ok par hup => ⟨fun hok => ?damaged, fun hok hbig => ?oversize, fun m wt hok hfits hm hbase => ?relayed,
    fun hok hfits hptp himg => ?unloaded, fun hok hfits hptp himg => ?switched⟩, fun i hup hready => ?starts,
    fun t rest htx hrun hdone => ?ended⟩
  case damaged => exact onLive_ends hl (by simp [hup, hok])
  case oversize => exact onLive_ends hl (by simp [hup, hok, hbig])
  case relayed => exact onLive_ends hl (by simp [hup, hok, Nat.not_lt.mpr hfits, ptp_paired_eq_some hm hbase])
  case unloaded => exact onLive_ends hl (by simp [hup, hok, Nat.not_lt.mpr hfits, ptp_paired_eq_none hptp, himg])
  case switched => exact onLive_ends hl (by simp [hup, hok, Nat.not_lt.mpr hfits, ptp_paired_eq_none hptp, himg])
  case starts => exact onLive_ends hl (by simp [hup, hready])
  case ended => exact onLive_ends hl (by simp [htx, hrun, Nat.not_lt.mpr hdone])

end Sys2Proof.Machine
end

section
/-!
SUPPORT. gPTP messages (R41 to R59, R911): whom a Sync or an Announce on the slave port is from, what a Sync is measured
against, and when a message of the channel's own is due.
-/

namespace Sys2Proof.Machine

variable {x : Side} {port domain gm : Nat} {wt : Bool}

/-! ## A Sync on the slave port -/

@[simp] theorem Side.armSync_rd (iv : Nat) (r : Reg) : (x.armSync wt iv).rd r = x.rd r := rfl
@[simp] theorem Side.armSync_base (iv : Nat) (w : Bool) : (x.armSync wt iv).base w = x.base w := by cases w <;> rfl
@[simp] theorem Side.armSync_isGm (iv : Nat) (w : Bool) : (x.armSync wt iv).isGm w = x.isGm w := rfl
@[simp] theorem Side.armSync_accGm (iv : Nat) (w : Bool) : (x.armSync wt iv).accGm w = x.accGm w := rfl

/-- The receipt timeout that a Sync starts is no term of its offset. -/
theorem Side.theta_armSync (iv : Nat) (origin : Int) : (x.armSync wt iv).theta port wt origin = x.theta port wt origin := by
  unfold Side.theta Side.ingStamp
  rw [Side.armSync_base]
  rfl

/-- A Sync of a domain in use on its slave port is evaluated. -/
theorem Side.sync_of_slave (hb : x.baseOfDomain domain = some wt) (hr : x.portRole port wt = 2) (origin : Int) (iv : Nat) :
    x.sync port domain gm origin iv = x.syncSample wt port gm origin iv := by
  simp [Side.sync, hb, hr]

/-- A Sync of another grandmaster than the accepted one is refused (R59). -/
theorem Side.syncSample_refused (hg : x.isGm wt = false) (h0 : x.accGm wt ≠ 0) (h1 : x.accGm wt ≠ gm) (origin : Int) (iv : Nat) :
    x.syncSample wt port gm origin iv = (x.armSync wt iv).gmChange wt := by
  simp [Side.syncSample, hg, h0, h1]

/-- A Sync of the accepted grandmaster, or of any while none is accepted, is a sample of its base (R51). -/
theorem Side.syncSample_taken (hg : x.isGm wt = false) (h : x.accGm wt = 0 ∨ x.accGm wt = gm) (origin : Int) (iv : Nat) :
    x.syncSample wt port gm origin iv =
      (if wt then x.armSync wt iv
        else (x.armSync wt iv).wr Reg.OFFSET_LAST (satI32 (x.theta port wt origin))).sample wt gm (x.theta port wt origin) iv := by
  have hacc : ¬(x.accGm wt ≠ 0 ∧ x.accGm wt ≠ gm) := by tauto
  simp [Side.syncSample, hg, Side.theta_armSync, hacc]

/-! ## A peer-delay exchange -/

/-- Noting when an exchange began changes nothing that its four stamps are measured by. -/
theorem Side.pdelayDone_modTime (x : Side) (port : Nat) (r : PdelayResp) (sent : Tbl Nat) :
    (x.modTime fun t => { t with pdelayAt := sent }).pdelayDone port r = x.modTime fun t =>
      let t1 := x.egrStampAgo port r.turn
      let t4 := x.ingStamp port false
      let ratio := x.neighbourRatio port r.t3 t4
      { t with
        pdelayAt := sent
        rateRatio := t.rateRatio.put port ratio
        linkDelay := t.linkDelay.put port (rndAway ((t4 - t1) * (10 ^ 12 + ratio) - (r.t3 - r.t2) * 10 ^ 12) (2 * 10 ^ 12))
        pdelayLast := t.pdelayLast.put port (r.t3, t4, if x.flag Reg.TIME_CTRL 1 then some (x.ingStamp port true) else none) } :=
  rfl

/-! ## The obligation -/

/-- Settles O28: by message and by whom it is from; what is due is sent, and an exchange is evaluated by its four stamps. -/
theorem gptpMessagesComplete : Obligations.GptpMessagesComplete := by
  unfold Obligations.GptpMessagesComplete
  intro s n d port wt hl hup
  have hgptp : (s.at_ n d).gptpPort port = true := hup
  refine ⟨fun domain gm hbase hrole hgm => ⟨fun h0 hother => ⟨fun origin corr iv => ?syncRefused, ?announceRefused⟩,
    fun hacc => ⟨fun origin corr iv => ?syncTaken, ?announceTaken⟩⟩, fun hover hgm hfollows => ?timeout, fun hover => ?early,
    fun hgm hmaster => ⟨fun hdue => ?syncSent, ?announceSent⟩, fun hdue => ⟨fun r => ?answered, ?unanswered⟩⟩
  case syncRefused =>
    exact onLive_ends hl (by
      simp only [hgptp, if_true]
      rw [Side.sync_of_slave hbase hrole, Side.syncSample_refused hgm h0 hother])
  case announceRefused => exact onLive_ends hl (by simp [hbase, hgptp, hrole, hgm, h0, hother])
  case syncTaken =>
    exact onLive_ends hl (by
      simp only [hgptp, if_true]
      rw [Side.sync_of_slave hbase hrole, Side.syncSample_taken hgm hacc]
      rfl)
  case announceTaken =>
    have hsame : ¬((s.at_ n d).accGm wt ≠ 0 ∧ (s.at_ n d).accGm wt ≠ gm) := by tauto
    exact onLive_ends hl (by simp [hbase, hgptp, hrole, hgm, hsame])
  case timeout =>
    have hguard : ((s.at_ n d).baseState wt == 1 || (s.at_ n d).baseState wt == 2 || (s.at_ n d).baseState wt == 4) = true := by
      simpa [or_assoc] using hfollows
    exact onLive_ends hl (by simp [hover, hgm, hguard])
  case early => exact onLive_ends hl (by simp [hover])
  case syncSent => exact onLive_ends hl (by simp [Side.syncDue, Side.masters, hgptp, hgm, hmaster, hdue])
  case announceSent => exact onLive_ends hl (by simp [Side.masters, hgptp, hgm, hmaster])
  case answered =>
    exact onLive_ends hl (by
      simp only [hgptp, hdue, Bool.not_true, Bool.or_self, Bool.false_eq_true, if_false]
      exact Side.pdelayDone_modTime _ port r _)
  case unanswered => exact onLive_ends hl (by simp [hgptp, hdue])

end Sys2Proof.Machine
end

section
/-!
SUPPORT. Holdover and the roles of the channel (R34, R42, R61, R67, R68, R912, R913).
-/

namespace Sys2Proof.Machine

/-- A port that becomes the slave of a domain starts the domain's receipt timeout, which no register shows (R911). -/
theorem Side.writeRole_rd (x : Side) (port : Nat) (v : Word) (a : Reg) :
    (x.writeRole port v).rd a = (x.store ((Reg.PORT_ROLE : Reg).el 0x10 port) v).rd a := by
  have harm : ∀ (c : Bool) (y : Side) (wt : Bool) (iv : Nat), (if c then y.armSync wt iv else y).rd a = y.rd a := by
    intro c y wt iv
    cases c <;> rfl
  exact (harm _ _ _ _).trans (harm _ _ _ _)

/-- A role write that makes the port no second slave of either domain passes the check of R42. -/
theorem secondSlave_eq_false {r r' : Nat} {o o' : Bool} (h : r = 2 → o = false) (h' : r' = 2 → o' = false) :
    ((r == 2 && o) || (r' == 2 && o')) = false := by
  simpa using ⟨h, h'⟩

/-- Settles O29: the hypotheses decide each command's guards; a write of a TIME register that is performed is its own effect. -/
theorem timeRolesComplete : Obligations.TimeRolesComplete := by
  unfold Obligations.TimeRolesComplete
  intro s n d w wt hl
  refine ⟨fun hnom => ⟨fun p hin => ?within, fun p hout => ?beyond, ?stopped⟩, fun hst hexp hlong => ?expired,
    fun hmay hgm => ?cleared, fun v hmay => ?accepted, fun v hmay hbit => ?snapped,
    fun port v hmay => ⟨fun hsecond => ?refused, fun hvt hwt => ⟨?written, fun a => ?shown⟩⟩⟩
  case within => exact onLive_ends hl (by simp only [hnom, hin, if_false, if_true])
  case beyond => exact onLive_ends hl (by simp only [hnom, Nat.not_le.mpr hout, if_false])
  case stopped => exact onLive_ends hl (if_neg hnom)
  case expired => exact onLive_ends hl (by simp only [hst, hexp, hlong, decide_true, Bool.not_false, Bool.and_self, if_true])
  case cleared => exact onLive_ends hl ((Side.access_of_may hmay _).trans (by simp only [hgm, if_true]))
  case accepted => exact onLive_ends hl (Side.access_of_may hmay _)
  case snapped => exact onLive_ends hl ((Side.access_of_may hmay _).trans (by simp only [hbit, if_true]))
  case refused =>
    have hguard : ((fld v 1 0 == 2 && (s.at_ n d).otherSlave port false) || (fld v 3 2 == 2 && (s.at_ n d).otherSlave port true)) = true := by
      simpa using hsecond
    exact onLive_ends hl ((Side.access_of_may hmay _).trans (by simp only [hguard, if_true]))
  case written =>
    have hguard := secondSlave_eq_false hvt hwt
    exact onLive_ends hl ((Side.access_of_may hmay _).trans (by simp only [hguard, Bool.false_eq_true, if_false]))
  case shown => exact Side.writeRole_rd _ _ _ _

end Sys2Proof.Machine
end

section
/-!
SUPPORT. Writes of DPY_CTRL (R103, R565, R915): what a write does by EN, the state of the pipe, its timing and its output.
-/

namespace Sys2Proof.Machine

section
variable {x : Side} {p : Nat} {v : Word}

/-- EN over a timing that is not valid (R915). -/
theorem Side.writeDpyCtrl_of_bad_timing (hen : bit v 0 = true) (ht : x.timingOk p (fld v 2 1) = false) :
    x.writeDpyCtrl p v = x.raise Ev.DPY_CFG_ERR p := by
  simp only [Side.writeDpyCtrl, hen, ht, Bool.not_false, Bool.and_self, if_true]

/-- EN on an output that another pipe drives (R557). -/
theorem Side.writeDpyCtrl_of_taken (hen : bit v 0 = true) (ht : x.timingOk p (fld v 2 1) = true)
    (ho : x.outputTaken p (fld v 2 1) = true) : x.writeDpyCtrl p v = x := by
  simp only [Side.writeDpyCtrl, hen, ht, ho, Bool.not_true, Bool.and_false, Bool.and_self, Bool.false_eq_true, if_false, if_true]

/-- EN set on a pipe that is off, over a valid timing and a free output. -/
theorem Side.writeDpyCtrl_of_enable (hen : bit v 0 = true) (ht : x.timingOk p (fld v 2 1) = true)
    (ho : x.outputTaken p (fld v 2 1) = false) (hoff : x.pipeOn p = false) :
    x.writeDpyCtrl p v = (x.store (Reg.DPY_CTRL.inst p) v).pipeEnabled p := by
  simp only [Side.writeDpyCtrl, hen, ht, ho, hoff, Bool.not_true, Bool.not_false, Bool.and_false, Bool.and_self,
    Bool.false_eq_true, if_false, if_true]

/-- EN cleared on a pipe that is on. -/
theorem Side.writeDpyCtrl_of_disable (hen : bit v 0 = false) (hon : x.pipeOn p = true) :
    x.writeDpyCtrl p v = (x.store (Reg.DPY_CTRL.inst p) v).pipeDisabled p := by
  simp only [Side.writeDpyCtrl, hen, hon, Bool.not_false, Bool.false_and, Bool.and_self, Bool.false_eq_true, if_false, if_true]

end

/-- Settles O7: each write is performed, and its case of EN, timing and output says what it does; a retrain is of a DisplayPort
pipe that is on. -/
theorem displayControlWrites : Obligations.DisplayControlWrites := by
  unfold Obligations.DisplayControlWrites
  intro s n d w p v hl hmay
  refine ⟨fun hen ht => ?badTiming, fun hen ht hoff ho => ?enabled, fun hen ht hoff ho => ?taken, fun hen hon => ?disabled,
    fun hon hdp => ⟨?restored, ?lost⟩⟩
  case badTiming => exact onLive_ends hl (by rw [Side.access_of_may hmay, Side.writeDpyCtrl_of_bad_timing hen ht])
  case enabled => exact onLive_ends hl (by rw [Side.access_of_may hmay, Side.writeDpyCtrl_of_enable hen ht ho hoff])
  case taken => exact onLive_ends hl (by rw [Side.access_of_may hmay, Side.writeDpyCtrl_of_taken hen ht ho])
  case disabled => exact onLive_ends hl (by rw [Side.access_of_may hmay, Side.writeDpyCtrl_of_disable hen hon])
  case restored =>
    exact onLive_ends hl ((Side.access_of_may hmay _).trans (by
      simp only [hon, hdp, Bool.not_true, Bool.or_self, Bool.false_eq_true, if_false, if_true]))
  case lost =>
    exact onLive_ends hl ((Side.access_of_may hmay _).trans (by
      simp only [hon, hdp, Bool.not_true, Bool.or_self, Bool.false_eq_true, if_false]))

end Sys2Proof.Machine
end

section
/-!
SUPPORT. The cadence (R80 to R105, R150): its runs once their instants are reached, and what a write of CAD_APPLY or CAD_CTRL
does.
-/

namespace Sys2Proof.Machine

/-! ## Runs -/

/-- Settles O30: a frame's start and a slot's start act on what the commits of the cycle left; each command's instant decides its
guards. -/
theorem cadenceRunsComplete : Obligations.CadenceRunsComplete := by
  unfold Obligations.CadenceRunsComplete
  intro s n d ht
  refine ⟨⟨fun hsrc => ?starts, fun v t hsrc hslot hend => ?ends, fun hsrc hslot hreached => ?slot⟩,
    fun i t high hwas => ⟨fun hh hwidth => ?trails, fun hh hsrc hslot hfires hat hlast => ?leads⟩, fun hsrc htick => ?ticks⟩
  case starts => exact onTick_runs ht (if_pos hsrc)
  case ends =>
    exact onTick_runs ht (by simp only [hsrc, Nat.not_lt.mpr hslot, hend, if_false])
  case slot =>
    exact onTick_runs ht (by
      simp only [hsrc, Nat.not_le.mpr hslot, hreached, decide_false, Bool.not_true, Bool.or_self, Bool.false_eq_true, if_false])
  case trails =>
    exact onTick_runs ht (by simp only [hwas, hh, hwidth, decide_true, Bool.and_self, Bool.false_eq_true, if_false, if_true])
  case leads =>
    exact onTick_runs ht (by
      simp only [hwas, hh, hsrc, hslot, hfires, Nat.not_lt.mpr hat, Nat.not_le.mpr hlast, decide_false, Bool.not_true,
        Bool.or_self, Bool.false_eq_true, if_false, if_true])
  case ticks => exact onTick_runs ht (by simp only [hsrc, htick, decide_true, Bool.and_self, if_true])

/-! ## The CAD page -/

/-- A word of one field from bit 1 up leaves RUN at 0. -/
theorem bit_zero_pack_one (k : Nat) : bit (pack [(1, k)]) 0 = false := by
  simp [bit, pack]

section
variable {x : Side} {v : Word}

/-- A legal configuration that nothing forbids waits for the next frame (R84). -/
theorem Side.cadApply_of_ok (hv : bit v 0 = true) (hcfg : cadCfgOk (x.rdN Reg.CAD_PERIOD) (x.rdN Reg.CAD_SLOTS) = true)
    (hb : x.applyBlocked = false) :
    x.cadApply v = (x.modCad fun c => { c with
      next := some (x.rd64 Reg.CAD_EPOCH, x.rdN Reg.CAD_PERIOD, x.rdN Reg.CAD_SLOTS) }).setFlag Reg.CAD_STAT 4 true := by
  simp only [Side.cadApply, hv, hcfg, hb, Bool.not_true, Bool.or_self, Bool.false_eq_true, if_false]

/-- One that is not legal, or that a launch forbids, is ignored with its event (R80, R84). -/
theorem Side.cadApply_of_refused (hv : bit v 0 = true)
    (h : cadCfgOk (x.rdN Reg.CAD_PERIOD) (x.rdN Reg.CAD_SLOTS) = false ∨ x.applyBlocked = true) :
    x.cadApply v = x.raise Ev.CAD_CFG_ERR := by
  have hguard : (!cadCfgOk (x.rdN Reg.CAD_PERIOD) (x.rdN Reg.CAD_SLOTS) || x.applyBlocked) = true := by simpa using h
  simp only [Side.cadApply, hv, hguard, Bool.not_true, Bool.false_eq_true, if_false, if_true]

/-- A write with RUN 1. -/
theorem Side.cadCtrl_of_run (hv : bit v 0 = true) : x.cadCtrl v = (x.store Reg.CAD_CTRL v).cadStart := if_pos hv

/-- A write with RUN 0 (R96). -/
theorem Side.cadCtrl_of_stop (hv : bit v 0 = false) :
    x.cadCtrl v = (x.store Reg.CAD_CTRL v).modCad fun c => { c with waiting := false } :=
  if_neg (ne_true_of_eq_false hv)

end

/-- Settles O31: every write is performed; the legality of the configuration and RUN decide what an apply and a control write do. -/
theorem cadenceControlWrites : Obligations.CadenceControlWrites := by
  unfold Obligations.CadenceControlWrites
  intro s n d w v hl
  refine ⟨fun hmay hv => ⟨fun hcfg hfree => ?applied, fun hbad => ?refused⟩, fun hmay => ⟨fun mt => ?run, ?stop⟩,
    fun r hmay => ?launch, fun i width hmay => ?timing⟩
  case applied => exact onLive_ends hl (by rw [Side.access_of_may hmay, Side.cadApply_of_ok hv hcfg hfree])
  case refused => exact onLive_ends hl (by rw [Side.access_of_may hmay, Side.cadApply_of_refused hv hbad])
  case run =>
    have hrun : bit (pack [(0, 1), (1, nat1 mt)]) 0 = true := by cases mt <;> decide
    exact onLive_ends hl (by rw [Side.access_of_may hmay, Side.cadCtrl_of_run hrun])
  case stop =>
    have hstop : bit (pack [(1, (s.at_ n d).field Reg.CAD_CTRL 1 1)]) 0 = false := bit_zero_pack_one _
    exact onLive_ends hl (by rw [Side.access_of_may hmay, Side.cadCtrl_of_stop hstop])
  case launch => exact onLive_ends hl (Side.access_of_may hmay _)
  case timing => exact onLive_ends hl (Side.access_of_may hmay _)

end Sys2Proof.Machine
end

section
/-!
SUPPORT. The life of a descriptor (R113, R217, R362 to R364, R374, R916): when it is decoded, what decode decides, when a round
of its work units is checked, and how it ends.
-/

namespace Sys2Proof.Machine

section
variable {x : Side} {e : Nat} {r : Run} {d : Desc}

/-! ## Start -/

/-- A descriptor of a served stall is issued by its sequencer, and fits what is left of its window (R331, R332, R345). -/
def Side.ServeAdmits (x : Side) (e : Nat) (r : Run) (d : Desc) : Prop :=
  x.bsqServes r.stall = true ∧ x.issueOpen = true ∧ ∃ l, x.serveLeft r.stall e = some l ∧ (d.wcet ≤ 24000 → fit d.wcet ≤ l)

/-- The head descriptor of an IDLE engine is decoded once its wait is met, within its list's budget or its serve window. -/
theorem Side.startDesc_of_due (hrun : (x.eng e).run = some r) (hstart : r.started = false) (href : r.refused = none)
    (hidle : x.teState e = 0) (hwait : x.waitMet r (x.desc r) = true) (hbudget : x.budgetOver r = false)
    (hserve : r.served = true → x.ServeAdmits e r (x.desc r)) : x.startDesc e = x.decode e r (x.desc r) := by
  cases hs : r.served with
  | false => simp [Side.startDesc, hrun, hstart, href, hidle, hwait, hbudget, hs]
  | true =>
    obtain ⟨hseq, hopen, l, hleft, hfit⟩ := hserve hs
    have hfits : ¬((x.desc r).wcet ≤ 24000 ∧ l < fit (x.desc r).wcet) := fun h => Nat.not_lt.mpr (hfit h.1) h.2
    simp [Side.startDesc, hrun, hstart, href, hidle, hwait, hbudget, hs, hseq, hopen, hleft, hfits]

/-- A descriptor that passes the checks of R362 starts. -/
theorem Side.decode_of_passed {y : Side} {par : Bool}
    (hread : (x.passBridle e ⟨true, x.planBase r.stall + r.at_, 64, none⟩).readHdrs e r d = (y, par))
    (h : (y.ctx e r d).check = none) : x.decode e r d = y.beginDesc e r d par := by
  simp only [Side.decode, hread, h]

/-- One that fails a check is refused with the check's cause and operand. -/
theorem Side.decode_of_failed {y : Side} {par : Bool} {cause operand : Nat}
    (hread : (x.passBridle e ⟨true, x.planBase r.stall + r.at_, 64, none⟩).readHdrs e r d = (y, par))
    (h : (y.ctx e r d).check = some (cause, operand)) :
    x.decode e r d = y.refuseDesc e cause operand (y.ctx e r d).outSound := by
  simp only [Side.decode, hread, h]

/-! ## Rounds -/

/-- A round of a MATMUL or CONV whose cycles have passed is checked and written. -/
theorem Side.quadRound_of_over (hunits : r.units (x.qop e r d).units ≠ [])
    (hover : x.roundOver r (d.unitCycles (x.qop e r d).a) = true) (ups : List Upset) :
    x.quadRound e r d ups = x.runRound e r d ups := by
  simp [Side.quadRound, hunits, hover]

/-- One of an attention descriptor also needs the pages of its units. -/
theorem Side.attnRound_of_over (hunits : r.units (x.attnDims e r d).1 ≠ []) (hover : x.roundOver r (x.attnDims e r d).2 = true)
    (hpages : x.pagesReady e r d (r.units (x.attnDims e r d).1) = true) (ups : List Upset) :
    x.attnRound e r d ups = x.runAttn e r d ups := by
  simp [Side.attnRound, hunits, hover, hpages]

/-- An attention operation is none of the quads' own. -/
theorem not_quad_of_attn {op : Nat} (h : op = 6 ∨ op = 7) : ¬(op = 1 ∨ op = 2) := by omega

/-! ## End -/

/-- A refused descriptor reports its fault 40 cycles after the decode (R364). -/
theorem Side.commitDesc_of_refused {cause operand : Nat} {mark : Bool} (hrun : (x.eng e).run = some r)
    (href : r.refused = some (cause, operand, mark)) (hcycles : 200 ≤ 3 * (x.mt - r.issueMt)) :
    x.commitDesc e = x.descFault e r (x.desc r) cause operand mark := by
  simp only [Side.commitDesc, hrun, href, hcycles, if_true]

/-- One that has run its course commits, but for an average pooling whose RQ_PARAM is wrong (R113, R365). -/
theorem Side.commitDesc_of_done (hrun : (x.eng e).run = some r) (hstart : r.started = true) (href : r.refused = none)
    (hact : x.teState e = 1) (hdone : x.descDone e r (x.desc r) = true) :
    x.commitDesc e = if x.avgBad e r (x.desc r) then x.descFault e r (x.desc r) 0x13 5 true
      else (x.descEffect e r (x.desc r) (!x.moreCopies e r (x.desc r))).finishDesc e r (x.desc r) (x.inherited e r (x.desc r)) := by
  simp [Side.commitDesc, hrun, hstart, href, hact, hdone]

end

/-- Settles O17: by command. A descriptor that is due is decoded, and its checks decide between start and refusal; a round that
is over is run by its operation; a descriptor that has run its course, or was refused, ends. -/
theorem descriptorsComplete : Obligations.DescriptorsComplete := by
  unfold Obligations.DescriptorsComplete
  intro s n d e r hl hrun
  refine ⟨fun hstart href hidle hbudget hwait hserve => ?decoded, fun cause operand mark href hcycles => ?reported,
    fun ups hstart hact => ⟨fun hop hunits hover => ?quads, fun hop hunits hover hpages => ?attention⟩,
    fun hstart href hact hdone havg => ?committed, fun hstart href hact hdone havg => ?averageFault⟩
  case decoded =>
    refine onLive_ends hl ((Side.startDesc_of_due hrun hstart href hidle hwait hbudget hserve).trans ?_)
    rcases hread : ((s.at_ n d).passBridle e ⟨true, (s.at_ n d).planBase r.stall + r.at_, 64, none⟩).readHdrs e r
      ((s.at_ n d).desc r) with ⟨y, par⟩
    cases hcheck : (y.ctx e r ((s.at_ n d).desc r)).check with
    | none => simp only [Side.decode_of_passed hread hcheck, hcheck]
    | some fault => simp only [Side.decode_of_failed hread hcheck, hcheck, Side.refuseDesc]
  case reported => exact onLive_ends hl (Side.commitDesc_of_refused hrun href hcycles)
  case quads =>
    exact onLive_ends hl (by
      simp only [hrun, hstart, hact, hop, Side.quadRound_of_over hunits hover, Bool.not_true, bne_self_eq_false, Bool.or_self,
        Bool.false_eq_true, if_false, Bool.or_eq_true, decide_eq_true_eq, if_true])
  case attention =>
    exact onLive_ends hl (by
      simp only [hrun, hstart, hact, hop, not_quad_of_attn hop, Side.attnRound_of_over hunits hover hpages, Bool.not_true,
        bne_self_eq_false, Bool.or_self, Bool.false_eq_true, if_false, Bool.or_eq_true, decide_eq_true_eq, if_true])
  case committed =>
    exact onLive_ends hl ((Side.commitDesc_of_done hrun hstart href hact hdone).trans (if_neg (ne_true_of_eq_false havg)))
  case averageFault => exact onLive_ends hl ((Side.commitDesc_of_done hrun hstart href hact hdone).trans (if_pos havg))

end Sys2Proof.Machine
end

section
/-!
SUPPORT. Overruns, stops and drains of an engine, and the end of a served window (R115, R125, R319, R324, R333).
-/

namespace Sys2Proof.Machine

/-- Settles O18: by command. The commits of the cycle come before a budget's end is looked at (log 149); each other command's
hypotheses decide its guards. -/
theorem engineStopsComplete : Obligations.EngineStopsComplete := by
  unfold Obligations.EngineStopsComplete
  intro s n d e hl
  refine ⟨fun r hrun hstart hact hfirst hlate => ?overrun, fun r hrun => ⟨fun hover => ?listStops, fun hover => ?listRuns⟩,
    fun hstop => ?drained, fun r hrun hserved hleft => ⟨fun hstart hact => ?windowStops, fun hstart => ?windowEnds⟩⟩
  case overrun =>
    exact onLive_ends hl (by
      simp only [hrun, hstart, hact, hfirst, hlate, beq_self_eq_true, Bool.not_false, decide_true, Bool.and_self, if_true])
  case listStops =>
    exact onLive_ends hl (by simp only [hrun, Option.any_some, hover, if_true])
  case listRuns =>
    exact onLive_ends hl (by simp only [hrun, Option.any_some, hover, Bool.false_eq_true, if_false])
  case drained => exact onLive_ends hl (if_pos hstop)
  case windowStops =>
    exact onLive_ends hl (by
      simp only [hrun, hserved, hleft, hstart, hact, Bool.not_true, Option.isSome_none, Bool.or_self, Bool.false_eq_true, if_false,
        beq_self_eq_true, Bool.and_self, if_true])
  case windowEnds =>
    exact onLive_ends hl (by
      simp only [hrun, hserved, hleft, hstart, Bool.not_true, Option.isSome_none, Bool.or_self, Bool.false_and, Bool.false_eq_true,
        if_false])

end Sys2Proof.Machine
end

section
/-!
SUPPORT. What events and counts leave of the SRAMs: they write the loft alone (R876, R883), so no byte of the yard changes.
-/

namespace Sys2Proof.Machine

@[simp] theorem Side.loftPut_yard (x : Side) (a : Nat) (l : List Byte) : (x.loftPut a l).me.mem.yard = x.me.mem.yard := by
  simp only [Side.loftPut, Side.modMem_me_mem]
  split
  · exact (MemSt.store_rest _ _ _ _).1
  · rfl

@[simp] theorem Side.record_yard (x : Side) (typ stall : Nat) (body : List Word) :
    (x.record typ stall body).me.mem.yard = x.me.mem.yard := by
  unfold Side.record
  split <;> rfl

@[simp] theorem Side.putIndex_yard (x : Side) (f k v : Nat) : (x.putIndex f k v).me.mem.yard = x.me.mem.yard := by
  unfold Side.putIndex
  split
  · exact Side.loftPut_yard _ _ _
  · rfl

@[simp] theorem Side.msix_yard (x : Side) (f v : Nat) : (x.msix f v).me.mem.yard = x.me.mem.yard := by
  unfold Side.msix
  dsimp only
  repeat' split
  all_goals rfl

@[simp] theorem Side.bump_yard (x : Side) (c : Ct) (i : Nat) : (x.bump c i).me.mem.yard = x.me.mem.yard := by
  unfold Side.bump
  split <;> rfl

/-- A step that keeps the yard keeps it where it is not made, too. -/
theorem Side.ite_yard {x y : Side} (b : Bool) (h : y.me.mem.yard = x.me.mem.yard) :
    (if b then y else x).me.mem.yard = x.me.mem.yard := by
  cases b with
  | false => rfl
  | true => exact h

/-- What a lost count does keeps the yard. -/
abbrev YardKept (sat : Side → Side) : Prop := ∀ x : Side, (sat x).me.mem.yard = x.me.mem.yard

/-- So does a counting function. -/
abbrev CountKeepsYard (cnt : Side → Ct → Side) : Prop := ∀ (x : Side) (c : Ct), (cnt x c).me.mem.yard = x.me.mem.yard

section
variable {sat : Side → Side} {cnt : Side → Ct → Side} (hs : YardKept sat) (hc : CountKeepsYard cnt)
include hs

theorem Side.eventRecordWith_yard (x : Side) (f die : Nat) (e : Ev) (i status : Nat) :
    (x.eventRecordWith sat f die e i status).me.mem.yard = x.me.mem.yard := by
  unfold Side.eventRecordWith
  split
  · rfl
  · split
    · rfl
    · split
      · split
        · exact hs x
        · rw [Side.hwrN, Side.hwr_me]
      · rw [Side.putIndex_yard, Side.modFn_me_mem, Side.loftPutW, Side.loftPut_yard]

include hc

theorem Side.deliverWith_yard (x : Side) (route owner : Word) (die : Nat) (e : Ev) (i status fn : Nat) :
    (x.deliverWith sat cnt route owner die e i status fn).me.mem.yard = x.me.mem.yard := by
  unfold Side.deliverWith
  refine (Side.ite_yard _ ?safe).trans ((Side.ite_yard _ ?firmware).trans (Side.ite_yard _ ?host))
  case safe => rw [Side.record_yard, Side.emit_me_mem, hc]
  case firmware => rw [Side.emit_me_mem, hc]
  case host => rw [Side.msix_yard, Side.eventRecordWith_yard hs, hc]

theorem Side.raiseBy_yard (x : Side) (e : Ev) (i status : Nat) :
    (x.raiseBy sat cnt e i status).me.mem.yard = x.me.mem.yard := by
  unfold Side.raiseBy
  refine (Side.ite_yard _ ?pin).trans ((Side.ite_yard _ ?delivered).trans rfl)
  case pin => rw [Side.fireEv, Side.fire_me_mem, hc]
  case delivered => rw [Side.deliverWith_yard hs hc]

end

section
variable {cnt : Side → Ct → Side} (hc : CountKeepsYard cnt)
include hc

theorem Side.eqLost_yard : YardKept (Side.eqLost cnt) :=
  fun _ => Side.raiseBy_yard (fun _ => rfl) hc _ _ _ _

theorem Side.raiseWith_yard (x : Side) (e : Ev) (i status : Nat) : (x.raiseWith cnt e i status).me.mem.yard = x.me.mem.yard :=
  Side.raiseBy_yard (Side.eqLost_yard hc) hc x e i status

end

theorem Side.countEva_yard : CountKeepsYard Side.countEva := fun x c =>
  (Side.ite_yard _ (Side.raiseWith_yard (fun y c => y.bump_yard c 0) _ _ _ _)).trans (x.bump_yard c 0)

@[simp] theorem Side.raise_yard (x : Side) (e : Ev) (i : Nat) : (x.raise e i).me.mem.yard = x.me.mem.yard :=
  Side.raiseWith_yard Side.countEva_yard x e i 0

@[simp] theorem Side.count_yard (x : Side) (c : Ct) (i : Nat) : (x.count c i).me.mem.yard = x.me.mem.yard :=
  (Side.ite_yard _ (Side.raise_yard _ _ _)).trans (x.bump_yard c i)

@[simp] theorem Side.countBy_yard (x : Side) (c : Ct) (i n : Nat) : (x.countBy c i n).me.mem.yard = x.me.mem.yard := by
  unfold Side.countBy
  dsimp only
  split
  · rfl
  · split
    · rfl
    · exact Side.count_yard _ _ _

/-- Counting at once is quiet as counting is. -/
theorem Side.countBy_quiet (x : Side) (c : Ct) (i n : Nat) (h : c.n < 32) : x.Quiet (x.countBy c i n) := by
  unfold Side.countBy
  dsimp only
  split
  · exact .refl x
  · split
    · exact .of_wr x _ (counted_ct c i h)
    · exact (Side.Quiet.of_wr x _ (counted_ct c i h)).trans (Side.count_quiet _ c i h)

end Sys2Proof.Machine
end

section
/-!
SUPPORT. Accesses of the SRAMs (R111, R295, R399 to R406, R453, R456): of a tile buffer, through a bridle, and of two requests
of one fabric cycle for a bank.
-/

namespace Sys2Proof.Machine

section
variable {x : Side}

/-! ## Tile buffers -/

/-- An upset changes no register. -/
@[simp] theorem Side.upset_rd (x : Side) (k : RamSel) (flips : List Nat) (a : Reg) : (x.upset k flips).rd a = x.rd a := by
  cases k <;> rfl

@[simp] theorem Side.upset_flag (x : Side) (k : RamSel) (flips : List Nat) (a : Reg) (i : Nat) :
    (x.upset k flips).flag a i = x.flag a i := congrArg (bit · i) (x.upset_rd k flips a)

@[simp] theorem Side.upset_field (x : Side) (k : RamSel) (flips : List Nat) (a : Reg) (hi lo : Nat) :
    (x.upset k flips).field a hi lo = x.field a hi lo := congrArg (fld · hi lo) (x.upset_rd k flips a)

/-- Another master, or an engine that no stall holds, reaches no tile buffer (R111). -/
theorem Side.tileAccess_of_shut {e : Fin 8} {q : YardReq} (h : q.m.val ≠ e.val ∨ x.flag (Reg.TE_STAT.inst e) 7 = false) :
    x.tileAccess e q = x.upset (.tile e) q.flips := by
  have hguard : (q.m.val != e.val || !(x.upset (.tile e) q.flips).flag (Reg.TE_STAT.inst e) 7) = true := by simpa using h
  exact if_pos hguard

/-- A write of the engine of a stall reaches its own buffer. -/
theorem Side.tileAccess_of_write {e : Fin 8} {m : Fin 9} (hm : m.val = e.val) (h : x.flag (Reg.TE_STAT.inst e) 7 = true)
    (a len : Nat) (l : List Byte) (flips : List Nat) :
    x.tileAccess e ⟨m, a, len, some l, flips⟩ = (x.upset (.tile e) flips).physPut 0 e a (l.take len) := by
  simp [Side.tileAccess, hm, h]

/-- Its read meets what parity finds there, for the stall (R430). -/
theorem Side.tileAccess_of_read {e : Fin 8} {m : Fin 9} (hm : m.val = e.val) (h : x.flag (Reg.TE_STAT.inst e) 7 = true)
    (a len : Nat) (flips : List Nat) :
    x.tileAccess e ⟨m, a, len, none, flips⟩ =
      ((x.upset (.tile e) flips).meet (x.field (Reg.TE_STAT.inst e) 6 4) e a len).1 := by
  simp [Side.tileAccess, hm, h]

/-! ## Bridles -/

@[simp] theorem Side.modBridle_bridle (x : Side) (b : Nat) (f : BridleSt → BridleSt) : (x.modBridle b f).bridle b = f (x.bridle b) :=
  Tbl.get_put_same _ _ _ _

@[simp] theorem Side.showPort_bridle (x : Side) (b k : Nat) : (x.showPort b).bridle k = x.bridle k := rfl

/-- Accruing counts cycles and moves the credits; no other register changes. -/
theorem Side.accrue_rd (x : Side) (b : Nat) {a : Reg} (ha : ¬Counted a) : (x.accrue b).rd a = x.rd a :=
  (x.countBy_quiet Ct.BRDL_HELD_CYCLES b _ (by decide)).rd a ha

@[simp] theorem Side.accrue_yard (x : Side) (b : Nat) : (x.accrue b).me.mem.yard = x.me.mem.yard :=
  x.countBy_yard Ct.BRDL_HELD_CYCLES b _

/-- What a bridle holds stands while its credits accrue. -/
@[simp] theorem Side.accrue_held (x : Side) (b : Nat) : ((x.accrue b).bridle b).held = (x.bridle b).held := by
  have hme := (x.countBy_quiet Ct.BRDL_HELD_CYCLES b (x.heldSince b) (by decide)).me
  have hbridle : (x.countBy Ct.BRDL_HELD_CYCLES b (x.heldSince b)).bridle b = x.bridle b := by rw [Side.bridle, hme]; rfl
  simp only [Side.accrue, Side.modBridle_bridle, hbridle]

/-- The RATE registers are no counters. -/
theorem not_counted_yardRate (b : Nat) : ¬Counted (Reg.BRDL_YARD_RATE.inst b) := by
  have h : (Reg.BRDL_YARD_RATE.inst b : Nat) % 0x1000 = 0x4C := show (0x30004C + 0x1000 * b) % 0x1000 = 0x4C by omega
  rw [Counted, h]
  decide

@[simp] theorem Side.accrue_brYardRate (x : Side) (b : Nat) : (x.accrue b).brYardRate b = x.brYardRate b :=
  congrArg (fld · 18 0) (x.accrue_rd b (not_counted_yardRate b))

/-- A yard request at a bridle whose yard RATE is 0 is held behind the others (R453). -/
theorem Side.through_of_yardRate_zero {b : Nat} {r : MemReq} (hyard : r.loft = false) (h : x.brYardRate b = 0) (f : Side → Side) :
    x.through b r f = ((x.accrue b).modBridle b fun s => { s with held := s.held ++ [r] }).showPort b := by
  have hrate : (if r.loft then (x.accrue b).brRate b else (x.accrue b).brYardRate b) = 0 := by simp [hyard, h]
  simp [Side.through, Side.affords_of_rate_zero _ b r hrate]

/-! ## Banks -/

@[simp] theorem Sram.upset_nil (r : Sram) : r.upset [] = r := rfl

@[simp] theorem stillSeen_nil (seen bad : NatSet) (k : Nat) : stillSeen seen bad k [] = seen := by
  simp [stillSeen]

/-- No upset, no change. -/
@[simp] theorem Side.upset_yard_nil (x : Side) : x.upset .yard [] = x := by
  simp [Side.upset, Side.modMem]

/-- A bank's access by an engine passes the engine's own bridle. -/
theorem Side.bankAccess_of_engine {m : Fin 8} {q : YardReq} (hm : q.m.val = m.val) (hf : q.flips = []) :
    x.bankAccess q = x.through m ⟨false, q.addr, q.len, q.write⟩ fun y =>
      (y.modMem fun s => { s with bankLast := Tbl.put s.bankLast (q.addr / bankBytes) q.m.val }).yardServe m
        ⟨false, q.addr, q.len, q.write⟩ := by
  have hne : ¬m.val = 8 := by omega
  simp only [Side.bankAccess, hm, hne, hf, if_false, Side.upset_yard_nil]

/-- At a bridle whose RATE is 0 it reaches no bank, and waits. -/
theorem Side.bankAccess_held {m : Fin 8} {q : YardReq} (hm : q.m.val = m.val) (hf : q.flips = []) (h : x.brYardRate m = 0) :
    (x.bankAccess q).me.mem.yard = x.me.mem.yard ∧
      ((x.bankAccess q).bridle m).held = (x.bridle m).held ++ [⟨false, q.addr, q.len, q.write⟩] := by
  rw [Side.bankAccess_of_engine hm hf, Side.through_of_yardRate_zero rfl h]
  constructor
  · exact x.accrue_yard m
  · simp only [Side.showPort_bridle, Side.modBridle_bridle, Side.accrue_held]

/-- Nobody reaches a bank that no stall holds (R400). -/
theorem Side.yardServe_of_no_owner {b : Nat} {r : MemReq} (h : x.bankOwner (r.addr / bankBytes) = none) : x.yardServe b r = x := by
  simp only [Side.yardServe, h]

/-! ## Round robin (R456) -/

/-- How many masters come before master m after the one that a bank served last. -/
def roundsTo (last m : Nat) : Nat := (m + 17 - last % 9) % 9

/-- The turn of master m is the one of that number. -/
theorem eq_turn_iff {last m k : Nat} (hm : m < 9) (hk : k < 9) : m = (last + 1 + k) % 9 ↔ k = roundsTo last m := by
  unfold roundsTo
  omega

theorem roundsTo_lt (last m : Nat) : roundsTo last m < 9 := Nat.mod_lt _ (by decide)

/-- Two masters have different turns. -/
theorem roundsTo_inj {last m m' : Nat} (hm : m < 9) (hm' : m' < 9) (h : roundsTo last m = roundsTo last m') : m = m' :=
  ((eq_turn_iff hm (roundsTo_lt last m)).mpr rfl).trans (h ▸ ((eq_turn_iff hm' (roundsTo_lt last m')).mpr rfl).symm)

/-- A search along 0, 1, 2, … ends at the least index that gives a result. -/
theorem findSome?_range_of_least {α : Type} {f : Nat → Option α} {n k : Nat} {b : α} (hk : k < n) (hb : f k = some b)
    (hlt : ∀ j < k, f j = none) : (List.range n).findSome? f = some b := by
  induction n with
  | zero => omega
  | succ n ih =>
    rw [List.range_succ, List.findSome?_append]
    by_cases hkn : k < n
    · rw [ih hkn, Option.some_or]
    · obtain rfl : k = n := by omega
      have hnone : (List.range k).findSome? f = none := List.findSome?_eq_none_iff.mpr fun j hj => hlt j (List.mem_range.mp hj)
      simp [hnone, hb]

/-- Of two requests the one whose master's turn comes first is next. -/
theorem Side.bankNext_pair (bank : Nat) {q r : YardReq} (hne : r.m.val ≠ q.m.val) :
    x.bankNext bank [q, r] =
      some (if roundsTo (Tbl.get 8 x.me.mem.bankLast bank) q.m < roundsTo (Tbl.get 8 x.me.mem.bankLast bank) r.m then q else r) := by
  unfold Side.bankNext
  dsimp only
  generalize Tbl.get 8 x.me.mem.bankLast bank = last
  have hturn : ∀ p : YardReq, ∀ k < 9, (p.m.val == (last + 1 + k) % 9) = decide (k = roundsTo last p.m) := fun p k hk => by
    rw [Bool.eq_iff_iff, beq_iff_eq, decide_eq_true_iff, eq_turn_iff p.m.isLt hk]
  have hdiff : roundsTo last q.m ≠ roundsTo last r.m := fun h => hne (roundsTo_inj q.m.isLt r.m.isLt h).symm
  have hq := roundsTo_lt last q.m
  have hr := roundsTo_lt last r.m
  split
  · refine findSome?_range_of_least hq ?_ fun j hj => ?_
    · simp [hturn q _ hq]
    · have hjq : j ≠ roundsTo last q.m := by omega
      have hjr : j ≠ roundsTo last r.m := by omega
      simp [hturn _ j (by omega), hjq, hjr]
  · refine findSome?_range_of_least hr ?_ fun j hj => ?_
    · simp [hturn _ _ hr, hdiff.symm]
    · have hjq : j ≠ roundsTo last q.m := by omega
      have hjr : j ≠ roundsTo last r.m := by omega
      simp [hturn _ j (by omega), hjq, hjr]

/-- A bank with one other request in the cycle serves it first where its turn comes first. -/
theorem Side.bankServe_pair {q r : YardReq} (hne : r.m.val ≠ q.m.val) :
    x.bankServe [r] q 1 =
      if roundsTo (Tbl.get 8 x.me.mem.bankLast (q.addr / bankBytes)) q.m
          < roundsTo (Tbl.get 8 x.me.mem.bankLast (q.addr / bankBytes)) r.m then x.bankAccess q
      else ((x.bankAccess r).modMem fun s => { s with yardEarly := s.yardEarly ++ [r] }).bankAccess q := by
  have hrq : (r == q) = false := beq_false_of_ne fun h => hne (congrArg (fun p : YardReq => p.m.val) h)
  simp only [Side.bankServe, Side.bankNext_pair _ hne]
  split
  · simp
  · simp [hrq]

/-- Nothing is served early in a cycle whose earlier accesses served none. -/
theorem Side.clearEarly_of_nil (h : x.me.mem.yardEarly = []) : (x.modMem fun s => { s with yardEarly := [] }) = x := by
  have hmem : { x.me.mem with yardEarly := [] } = x.me.mem := h ▸ rfl
  simp only [Side.modMem, hmem]

/-- Then an access takes its turn among those of its cycle. -/
theorem Side.bankTurn_of_none_early (now : Bool) (l : List YardReq) (q : YardReq) (h : x.me.mem.yardEarly = []) :
    x.bankTurn now l q = x.bankServe l q l.length := by
  have hearly : (if now then x.me.mem.yardEarly else []) = [] := by simp [h]
  have hall : (l.filter fun _ => true) = l := List.filter_true l
  simp only [Side.bankTurn, hearly, List.contains_nil, Bool.false_eq_true, if_false, Bool.not_false, hall, Side.clearEarly_of_nil h]

/-- An access that was served in its turn before is done. -/
theorem Side.bankTurn_of_early {l : List YardReq} {q : YardReq} (h : x.me.mem.yardEarly.contains q = true) :
    x.bankTurn true l q = x.modMem fun s => { s with yardEarly := s.yardEarly.erase q } := by
  simp only [Side.bankTurn, if_true, h]
  rfl

end

/-- Settles O41: by command; a yard access by whether its cycle (log 129) holds another request for its bank, or it was served in
its turn before. -/
theorem sramsComplete : Obligations.SramsComplete := by
  unfold Obligations.SramsComplete
  intro s n d hl
  refine ⟨fun m e a len flips => ⟨fun hshut wr => ?shut, fun hm hheld => ⟨fun l => ?tileWrite, ?tileRead⟩⟩,
    fun m a len wr flips => ⟨fun hearly hcycle => ?alone, fun hnow hearly => ?served, fun hearly r hcycle hne => ?pair⟩,
    fun m q hm => ⟨fun hrate hflips => ?held, fun r howner => ?unowned⟩, fun line ok hline => ?refetched, fun hzero => ?zeroed,
    fun line flips hen hbank hzero => ?scrubbed⟩
  case shut => exact onLive_ends hl (Side.tileAccess_of_shut hshut)
  case tileWrite => exact onLive_ends hl (Side.tileAccess_of_write hm hheld a len l flips)
  case tileRead => exact onLive_ends hl (Side.tileAccess_of_read hm hheld a len flips)
  case alone =>
    exact onLive_ends hl (by
      simp only [hcycle, Side.bankTurn_of_none_early _ _ _ hearly, List.length_nil, Side.bankServe])
  case served =>
    exact onLive_ends hl (by
      simp only [hnow, beq_self_eq_true, Side.bankTurn_of_early hearly])
  case pair =>
    exact onLive_ends hl (by
      simp only [hcycle, Side.bankTurn_of_none_early _ _ _ hearly, List.length_singleton]
      exact Side.bankServe_pair hne)
  case held => exact Side.bankAccess_held hm hflips hrate
  case unowned => exact Side.yardServe_of_no_owner howner
  case refetched => exact onLive_ends hl (by simp only [hline, Bool.not_true, Bool.false_eq_true, if_false])
  case zeroed => exact onLive_ends hl (if_neg fun h => hzero (List.isEmpty_iff.mp h))
  case scrubbed =>
    exact onLive_ends hl (by
      simp only [hen, hzero, Nat.not_le.mpr hbank, decide_false, Bool.not_true, Bool.or_self, Bool.false_eq_true, if_false])

end Sys2Proof.Machine
end

section
/-!
SUPPORT. Host accesses: apertures, MSI-X vectors and the shed area (R218, R447, R642 to R645, R650, R652, R664).
-/

namespace Sys2Proof.Machine

/-- With no plan admitted no ladder state is kept: the driver's bytes reach the loft as those of any master (R218). -/
theorem Side.driverPut_of_no_plan {x : Side} (h : ∀ st < 8, x.psq st = 0) (a : Nat) (l : List Byte) :
    x.driverPut a l = x.loftWrite a l := by
  have hnone : ((List.range 8).filter fun st => x.psq st != 0) = [] :=
    List.filter_eq_nil_iff.mpr fun st hst => by simp [h st (List.mem_range.mp hst)]
  simp only [Side.driverPut, hnone, List.flatMap_nil, List.filter_nil, List.foldl_nil]

/-- The vectors of a function, by its number on the channel: its physical function is number 0 (R650). -/
theorem vectors_fin (fn : Fin 17) : vectors fn = if fn = 0 then 64 else 60 := by
  simp only [vectors, Fin.val_eq_zero_iff]

/-- Settles O35: the guards of an access are met or one of them fails, by the hypotheses; what is let through is made as
`hostWrite` and `hostRead` say. A RATE of 0 at bridle 18 lets the driver's write through by log 152, a choice of the model. -/
theorem hostAccessesComplete : Obligations.HostAccessesComplete := by
  unfold Obligations.HostAccessesComplete
  intro s n d fn off
  refine ⟨fun hreach => ⟨fun bytes => ⟨fun ok => ?poisoned, ?badEcrc, fun hl hin hopen => ⟨?written, fun hplan => ?noPlan⟩,
      fun hbad => ?writeError⟩, fun len => ⟨fun hbad => ?readError, fun hl hin => ?read⟩⟩,
    fun hup => ⟨fun v => ⟨fun hv => ?unmasked, fun hv => ?noVector⟩, ?busMaster⟩,
    fun w size hi v hmay => ⟨fun hfree => ?stored, fun hheld => ?held⟩⟩
  case poisoned =>
    exact onAny_ends (by simp only [hreach, Bool.not_true, Bool.false_eq_true, if_false, if_true])
  case badEcrc =>
    exact onAny_ends (by simp only [hreach, Bool.not_true, Bool.not_false, Bool.false_eq_true, if_false, if_true])
  case written =>
    exact onAny_ends (by
      simp only [hreach, hl, hopen, Nat.not_lt.mpr hin, decide_false, Bool.not_true, Bool.or_self, Bool.false_eq_true, if_false,
        Side.hostWrite])
  case noPlan => exact Side.driverPut_of_no_plan hplan _ _
  case writeError =>
    have hguard : (!(s.at_ n d).live || decide ((s.at_ n d).winSize fn < off + bytes.length)
        || (s.at_ n d).sealed ((s.at_ n d).winBase fn + off) bytes.length) = true := by
      simpa [or_assoc] using hbad
    exact onAny_ends (by simp only [hreach, hguard, Bool.not_true, Bool.false_eq_true, if_false, if_true])
  case readError =>
    have hguard : (!(s.at_ n d).live || decide ((s.at_ n d).winSize fn < off + len)) = true := by simpa using hbad
    exact onAny_ends (by simp only [hreach, hguard, Bool.not_true, Bool.false_eq_true, if_false, if_true])
  case read =>
    exact onAny_ends (by
      simp only [hreach, hl, Nat.not_lt.mpr hin, decide_false, Bool.not_true, Bool.or_self, Bool.false_eq_true, if_false,
        Side.hostRead])
  case unmasked =>
    exact onAny_ends (by
      simp only [State.at_hub, hup, vectors_fin, Option.any_some, Nat.not_le.mpr hv, decide_false, Bool.or_self,
        Bool.false_eq_true, if_false])
  case noVector =>
    exact onAny_ends (by
      simp only [vectors_fin, Option.any_some, hv, decide_true, Bool.or_true, if_true, id])
  case busMaster =>
    exact onAny_ends (by simp only [State.at_hub, hup, Option.any_none, Bool.or_self, Bool.false_eq_true, if_false])
  case stored => exact onHubReg_ends hmay (if_neg (Bool.eq_false_iff.mp hfree))
  case held => exact onHubReg_ends hmay (if_pos hheld)

end Sys2Proof.Machine
end

section
/-!
SUPPORT. Steps of a served stall: how one is formed, and how one whose program has run ends (R141, R155, R268, R299, R341, R348,
R430, log 72).
-/

namespace Sys2Proof.Machine

/-- Settles O19: by command. A step that has run ends by the first that holds of: a window check failed, it met a parity error or a
failed check and has not been repeated, a parity error, a failed check or a result that is not finite (log 72). -/
theorem stepsComplete : Obligations.StepsComplete := by
  unfold Obligations.StepsComplete
  intro s n d st hl hserve
  refine ⟨fun hrun hnone hmoves heng => ?formed, fun outs t e hstep heng hran => ?ends⟩
  case formed =>
    have hengine := Option.isNone_eq_false_iff.mpr heng
    exact onLive_ends hl (by
      simp only [hserve, hrun, hnone, hmoves, hengine, Bool.not_true, bne_self_eq_false, Option.isSome_none, Bool.or_self,
        Bool.false_eq_true, if_false, List.isEmpty_nil])
  case ends =>
    have hguard : (!(s.at_ n d).serving st || !(s.at_ n d).stepRan st t) = false := by simp [hserve, hran]
    refine ⟨fun hwin => ?window, fun hwin hmet hfirst => ?repeated, fun hwin hpar hagain => ?parity,
      fun hwin hpar hchk hagain => ?check, fun hwin hpar hchk hinf => ?notFinite, fun hwin hpar hchk hfin => ?committed⟩
    case window => exact onLive_ends hl (by simp only [hstep, hguard, hwin, Bool.false_eq_true, if_false, if_true])
    case repeated =>
      have hfault : (t.par || t.chk) = true := Bool.or_eq_true_iff.mpr hmet
      exact onLive_ends hl (by
        simp only [hstep, hguard, hwin, hfault, hfirst, heng, Bool.not_false, Option.isSome_some, Bool.and_self, Bool.false_eq_true,
          if_false, if_true, Option.getD_some])
    case parity =>
      exact onLive_ends hl (by
        simp only [hstep, hguard, hwin, hpar, hagain, Bool.not_true, Bool.and_false, Bool.false_and, Bool.false_eq_true, if_false,
          if_true])
    case check =>
      exact onLive_ends hl (by
        simp only [hstep, hguard, hwin, hpar, hchk, hagain, Bool.not_true, Bool.and_false, Bool.false_and, Bool.true_or,
          Bool.false_eq_true, if_false, if_true])
    case notFinite =>
      exact onLive_ends hl (by
        simp only [hstep, hguard, hwin, hpar, hchk, hinf, Bool.or_self, Bool.or_true, Bool.false_and, Bool.false_eq_true, if_false,
          if_true])
    case committed =>
      exact onLive_ends hl (by
        simp only [hstep, hguard, hwin, hpar, hchk, hfin, Bool.or_self, Bool.false_and, Bool.false_eq_true, if_false])

end Sys2Proof.Machine
end

section
/-!
SUPPORT. Context page moves: walks, spills, fills and swaps (R238, R239, R269 to R280).
-/

namespace Sys2Proof.Machine

/-- Settles O20: by command. A walk's descriptor, unit and ring, a stall's next move and the direction of its swap decide what is
made. -/
theorem pageMovesComplete : Obligations.PageMovesComplete := by
  unfold Obligations.PageMovesComplete
  intro s n d st u hl
  refine ⟨fun e r w hrun hstart hact hop hunit hready hroom hpage => ?walked, fun m t hmoves hunit => ?moved, fun w hswap =>
    ⟨fun hout hflight hlink => ?swappedOut, fun m t hleft hin hflight hlink hunit => ?arrived,
      fun hleft hin hflight => ?swappedIn⟩⟩
  case walked =>
    have hattn : (((s.at_ n d).desc r).op == 6 || ((s.at_ n d).desc r).op == 7) = true := by simpa using hop
    exact onLive_ends hl (by
      simp only [hrun, hstart, hact, hattn, hunit, hready, hroom, hpage, Bool.not_true, bne_self_eq_false, Bool.or_self,
        Bool.false_eq_true, if_false])
  case moved => exact onLive_ends hl (by simp only [hmoves, hunit, bne_self_eq_false, Bool.false_eq_true, if_false])
  case swappedOut =>
    exact onLive_ends hl (by
      simp only [hswap, hout, hflight, hlink, Bool.not_true, Option.isSome_none, Bool.or_self, Bool.false_eq_true, if_false])
  case arrived =>
    have hunderway : (w.flight == some 0) = false := beq_false_of_ne hflight
    exact onLive_ends hl (by
      simp only [hswap, hleft, hin, hunderway, hlink, hunit, Bool.not_true, bne_self_eq_false, Bool.or_self, Bool.false_eq_true,
        if_false])
  case swappedIn =>
    exact onLive_ends hl (by
      simp only [hswap, hleft, hin, hflight, List.isEmpty_nil, Bool.not_true, Option.isSome_none, Bool.or_self,
        Bool.false_eq_true, if_false])

end Sys2Proof.Machine
end

section
/-!
SUPPORT. CHAN_CFG, SEQ_SUBMIT and SEQ_ABORT (R282, R350, R351, R388, R389, R450).
-/

namespace Sys2Proof.Machine

/-- Settles O22: each command is taken, and the check of R450, the first cause of R388 and R389 or the sequence's state decides how
it ends. -/
theorem sequenceCommandsComplete : Obligations.SequenceCommandsComplete := by
  unfold Obligations.SequenceCommandsComplete
  intro s n d r c hl
  refine ⟨fun l hplans => ⟨fun hok => ?taken, fun hbad => ?bandwidth⟩, fun hholds hnew hseq => ?submitted,
    fun hholds hseq => ⟨fun hactive => ?cut, fun hfree => ?tooLate⟩⟩
  case taken => exact onLive_ends hl ((Side.planCmd_of_plans hplans _).trans (if_pos hok))
  case bandwidth => exact onLive_ends hl ((Side.planCmd_of_plans hplans _).trans (if_neg (ne_true_of_eq_false hbad)))
  case submitted =>
    refine onLive_ends hl ((Side.withCmd_of_holds hholds _).trans ?_)
    by_cases hcause : (s.at_ n d).seqCause c.seqReq = 0
    · simp [hnew, hseq, hcause]
    · simp [hnew, hseq, hcause]
  case cut =>
    exact onLive_ends hl ((Side.withCmd_of_holds hholds _).trans (by
      simp only [hseq, hactive, Bool.not_true, Bool.false_eq_true, if_false]))
  case tooLate =>
    exact onLive_ends hl ((Side.withCmd_of_holds hholds _).trans (by
      simp only [hseq, hfree, Bool.not_true, Bool.false_eq_true, if_false, if_true]))

end Sys2Proof.Machine
end

section
/-!
SUPPORT. ADMIT, the filling of its mirrors, REMOVE and the end of a removed stall (R303 to R309, R405).
-/

namespace Sys2Proof.Machine

/-- Settles O21: FP-PLAN carries out ADMIT and REMOVE, and the result of ADMIT's checks, its mirrors or the state of the stall
decides what each does. A REMOVE of an EMPTY stall completes WINDOW_FAULT with TARGET by log 77, a deduction of the model. -/
theorem admissionsComplete : Obligations.AdmissionsComplete := by
  unfold Obligations.AdmissionsComplete
  intro s n d r c st hl
  refine ⟨fun q hplans hfree hdomains => ?admitted, fun q f ring id hfills hcmd hpair => ?filled,
    fun hplans hheld hstays => ?drained, fun hplans hempty => ?noTarget, fun hdrains hover hremover => ?emptied⟩
  case admitted =>
    refine onLive_ends hl ((Side.planCmd_of_plans hplans _).trans ?_)
    simp only [hfree, hdomains, Bool.not_true, Bool.false_eq_true, if_false]
    by_cases hmirrors : (s.at_ n d).admitResult q = 0 ∧ q.mirrors ≠ []
    · obtain ⟨hresult, hne⟩ := hmirrors
      simp [hresult, hne]
    · have hdone : ((s.at_ n d).admitResult q != 0 || q.mirrors.isEmpty) = true := by
        simpa [imp_iff_not_or] using hmirrors
      rw [if_pos hdone, if_neg hmirrors]
  case filled => exact onLive_ends hl (by simp only [hpair, hfills, hcmd, Bool.not_true, Bool.false_eq_true, if_false])
  case drained => exact onLive_ends hl ((Side.planCmd_of_plans hplans _).trans ((if_neg hheld).trans (if_neg hstays)))
  case noTarget => exact onLive_ends hl ((Side.planCmd_of_plans hplans _).trans (if_pos hempty))
  case emptied =>
    have hcommits : (((s.at_ n d).stl st).remover.isSome && !(s.at_ n d).pairUp 1) = false := by
      rcases hremover with hnone | hpair
      · simp only [hnone, Option.isSome_none, Bool.false_and]
      · simp only [hpair, Bool.not_true, Bool.and_false]
    exact onLive_ends hl (by
      simp only [hdrains, hover, hcommits, bne_self_eq_false, Bool.not_true, Bool.or_self, Bool.false_eq_true, if_false])

end Sys2Proof.Machine
end

section
/-!
SUPPORT. The loft: upsets of its cells, the wipe engine's turn and the band that the packages request (R413, R419, R449).
-/

namespace Sys2Proof.Machine

/-! ## Upsets -/

/-- An upset of a cell changes no register. -/
@[simp] theorem Side.flipDram_rd (x : Side) (c : DramCell) (a : Reg) : (x.flipDram c).rd a = x.rd a := by
  unfold Side.flipDram
  split
  · rfl
  · split <;> rfl

@[simp] theorem Side.foldl_flipDram_rd (l : List DramCell) (x : Side) (a : Reg) :
    (l.foldl Side.flipDram x).rd a = x.rd a := by
  induction l generalizing x with
  | nil => rfl
  | cons c l ih => rw [List.foldl_cons, ih, Side.flipDram_rd]

/-! ## The wipe engine's turn -/

/-- The wipe engine may have the loft when no bridle has a request outstanding. -/
theorem Side.loftFree_iff (x : Side) : x.loftFree = true ↔ ∀ k < 20, (x.bridle k).out = [] := by
  simp [Side.loftFree, ports]

/-! ## The refresh band -/

/-- The band is the one that a package requests and that no package exceeds. -/
theorem Mr4.band_eq {f : Mr4} {b : Fin 5} (h0 : f.p0 ≤ b) (h1 : f.p1 ≤ b) (h2 : f.p2 ≤ b) (h3 : f.p3 ≤ b)
    (hb : b ∈ [f.p0, f.p1, f.p2, f.p3]) : Mr4.band f = b := by
  refine le_antisymm (max_le (max_le h0 h1) (max_le h2 h3)) ?_
  have hwarmest : b = f.p0 ∨ b = f.p1 ∨ b = f.p2 ∨ b = f.p3 := by simpa using hb
  simpa only [Mr4.band, le_max_iff, or_assoc] using hwarmest.imp Eq.le (Or.imp Eq.le (Or.imp Eq.le Eq.le))

/-- Settles O42: by command, on the guards that the hypotheses decide. Units are wiped only while no bridled master has a request
outstanding by log 170, a deduction of the model. -/
theorem loftComplete : Obligations.LoftComplete := by
  unfold Obligations.LoftComplete
  intro s n d b hl
  refine ⟨fun req => ?issued, fun e r t rest hout hbusy => ?completed, fun block => ⟨?retried, ?retryFailed⟩,
    fun block t hwb => ?writtenBack, fun hnone => ?wiped, fun k hk hwaits => ?wipeHeld, fun u k t hzero hrate => ?zeroed,
    fun block e hen hinline => ?scrubbed, fun f band hband h0 h1 h2 h3 hmem => ?polled, fun k => ?tracked, ?derated,
    fun w v hmay hbit => ?cleared⟩
  case issued => exact onLive_ends hl rfl
  case completed => exact onLive_ends hl (by simp only [hout, hbusy, if_true])
  case retried => exact onLive_ends hl (by simp only [if_true])
  case retryFailed => exact onLive_ends hl (by simp only [Bool.false_eq_true, if_false])
  case writtenBack =>
    refine onLive_ends hl ?_
    by_cases hright : wrongWords (s.at_ n d).me.mem.cells block = []
    · simp only [hwb, hright, Side.modMem, List.isEmpty_nil, if_true]
    · simp only [hwb, hright, Side.modMem, List.isEmpty_iff, if_false]
  case wiped => exact onLive_ends hl (if_pos ((Side.loftFree_iff _).mpr hnone))
  case wipeHeld => exact onLive_ends hl (if_neg fun hfree => hwaits ((Side.loftFree_iff _).mp hfree k hk))
  case zeroed => exact onLive_ends hl (by simp only [hzero, hrate, if_false])
  case scrubbed =>
    have hguard : (!(e.flips.foldl Side.flipDram (s.at_ n d)).flag Reg.LOFT_CTRL 0
        || !(e.flips.foldl Side.flipDram (s.at_ n d)).inline) = false := by
      simp only [Side.inline, Side.flag] at hen hinline ⊢
      simp only [Side.foldl_flipDram_rd, hen, hinline, Bool.not_true, Bool.or_self]
    exact onLive_ends hl (by simp only [hguard, Bool.false_eq_true, if_false])
  case polled => exact onLive_ends hl (by simp only [Mr4.band_eq h0 h1 h2 h3 hmem, hband, if_false])
  case tracked => exact onLive_ends hl rfl
  case derated => exact onLive_ends hl rfl
  case cleared => exact onLive_ends hl ((Side.access_of_may hmay _).trans (by simp only [hbit, if_true]))

end Sys2Proof.Machine
end

section
/-!
SUPPORT. The memories byte by byte: what an SRAM and the loft read after a write (R401, R402, R427, R436).
-/

namespace Sys2Proof.Machine

/-! ## Sets -/

/-- A set with several members added. -/
theorem NatSet.contains_foldl_add (s ks : NatSet) (j : Nat) :
    (ks.foldl NatSet.add s).contains j = (s.contains j || ks.contains j) := by
  induction ks generalizing s with
  | nil => simp
  | cons k ks ih => rw [List.foldl_cons, ih, NatSet.contains_add, List.contains_cons, Bool.or_assoc]

/-- A set without a range. -/
theorem NatSet.contains_delRange (s : NatSet) (a n k : Nat) :
    (s.delRange a n).contains k = (s.contains k && !(decide (a ≤ k) && decide (k < a + n))) := by
  rw [Bool.eq_iff_iff]
  simp [NatSet.delRange, List.mem_filter]

/-! ## SRAMs -/

/-- The line of a byte is among the lines of a range that holds the byte. -/
theorem div_mem_linesOf {a n k : Nat} (ha : a ≤ k) (hk : k < a + n) : k / 64 ∈ linesOf a n := by
  rw [linesOf, if_neg (by omega), List.mem_map]
  exact ⟨k / 64 - a / 64, List.mem_range.mpr (by omega), by omega⟩

@[simp] theorem Sram.put_cells (r : Sram) (a : Nat) (l : List Byte) : (r.put a l).cells = r.cells.write a l := by
  cases l <;> rfl

@[simp] theorem Sram.put_valid (r : Sram) (a : Nat) (l : List Byte) (j : Nat) :
    (r.put a l).valid.contains j = (r.valid.contains j || (linesOf a l.length).contains j) := by
  cases l with
  | nil => simp [Sram.put, linesOf]
  | cons v t => exact NatSet.contains_foldl_add _ _ _

/-- A write sets the parity of exactly its own bytes (R401). -/
theorem Sram.put_bad (r : Sram) (a : Nat) (l : List Byte) (k : Nat) :
    (r.put a l).bad.contains k = (r.bad.contains k && !(decide (a ≤ k) && decide (k < a + l.length))) := by
  cases l with
  | nil =>
    have hnone : (decide (a ≤ k) && decide (k < a + 0)) = false := by simp
    rw [List.length_nil, hnone, Bool.not_false, Bool.and_true]
    rfl
  | cons v t => exact NatSet.contains_delRange _ _ _ _

section
variable {r : Sram} (hwf : r.cells.wf = true) (hempty : ∀ j, r.valid.contains (j / 64) = false → r.cells.get j = 0)
include hwf hempty

/-- A byte reads as written, or as before: in a line without valid bit that is zero before and after (R402). -/
theorem Sram.byte_put (a k : Nat) (l : List Byte) :
    (r.put a l).byte k = if a ≤ k ∧ k < a + l.length then l.getD (k - a) 0 else r.byte k := by
  simp only [Sram.byte, Sram.put_valid, Sram.put_cells, Mem.get_write _ hwf]
  by_cases hk : a ≤ k ∧ k < a + l.length
  · have hline := List.contains_iff_mem.mpr (div_mem_linesOf hk.1 hk.2)
    simp only [hline, Bool.or_true, if_true, if_pos hk]
  · cases hvalid : r.valid.contains (k / 64) with
    | true => simp only [Bool.true_or, if_true]
    | false => simp only [if_neg hk, hempty k hvalid, ite_self]

/-- After a write the lines without valid bit still hold nothing. -/
theorem Sram.get_put_of_not_valid (a : Nat) (l : List Byte) (j : Nat) (h : (r.put a l).valid.contains (j / 64) = false) :
    (r.put a l).cells.get j = 0 := by
  rw [Sram.put_valid, Bool.or_eq_false_iff] at h
  obtain ⟨hvalid, hline⟩ := h
  have hout : ¬(a ≤ j ∧ j < a + l.length) := fun hj => by
    simp [div_mem_linesOf hj.1 hj.2] at hline
  rw [Sram.put_cells, Mem.get_write _ hwf, if_neg hout, hempty j hvalid]

end

/-! ## The loft -/

@[simp] theorem Mem.length_read (m : Mem) (a n : Nat) : (m.read a n).length = n := by
  induction n generalizing a with
  | zero => rfl
  | succ n ih => simp [Mem.read, ih]

theorem Mem.getElem_read (m : Mem) (a n i : Nat) (h : i < (m.read a n).length) : (m.read a n)[i] = m.get (a + i) := by
  induction n generalizing a i with
  | zero => simp at h
  | succ n ih =>
    cases i with
    | zero => rfl
    | succ i => simp only [Mem.read, List.getElem_cons_succ, ih, Nat.add_assoc, Nat.add_comm 1]

/-- A range reads back what was written to it. -/
theorem Mem.read_write_same (m : Mem) (hm : m.wf = true) (a : Nat) (l : List Byte) : (m.write a l).read a l.length = l := by
  refine List.ext_getElem (Mem.length_read _ _ _) fun i _ hi => ?_
  rw [Mem.getElem_read, Mem.get_write _ hm, if_pos (by omega), Nat.add_sub_cancel_left, List.getD_eq_getElem _ _ hi]

/-- A read of one byte. -/
theorem Side.loftGet_one (x : Side) (k : Nat) : x.loftGet k 1 = [x.me.mem.loft.get k] := rfl

/-- A block covered in part is the first of the range, or the last, which then ends within it. -/
theorem eq_of_mem_partBlocks {a n b : Nat} (h : b ∈ partBlocks a n) :
    b = a / 64 ∨ b = (a + n - 1) / 64 ∧ (a + n) % 64 ≠ 0 := by
  simp only [partBlocks] at h
  split at h
  · simp at h
  · rw [List.mem_append] at h
    refine h.imp (fun hfirst => ?_) fun hlast => ?_
    · split at hfirst <;> simp_all
    · split at hlast <;> simp_all

/-- Every byte that reaches the loft is one of the write, in a block that is covered whole or can be corrected (R436). -/
theorem MemSt.stored_reach {m : MemSt} {a k : Nat} {l : List Byte} (hfrom : (m.stored a l).1 ≤ k)
    (hto : k < (m.stored a l).1 + (m.stored a l).2.length) :
    a ≤ k ∧ k < a + l.length ∧ (k / 64 ∈ partBlocks a l.length → blockLost m (k / 64) = false) := by
  simp only [MemSt.stored, List.length_drop, List.length_take] at hfrom hto
  refine ⟨by omega, by omega, fun hpart => Bool.eq_false_iff.mpr fun hlost => ?_⟩
  have hbad : ((partBlocks a l.length).filter (blockLost m)).contains (k / 64) = true :=
    List.contains_iff_mem.mpr (List.mem_filter.mpr ⟨hpart, hlost⟩)
  obtain hfirst | ⟨hlast, hend⟩ := eq_of_mem_partBlocks hpart
  · rw [← hfirst, hbad, if_pos rfl] at hfrom hto
    omega
  · rw [← hlast, hbad, Bool.true_and] at hto
    simp only [decide_eq_true_eq] at hto
    split_ifs at hfrom hto <;> omega

/-- A store writes the bytes that reach the loft. -/
theorem MemSt.store_loft_eq (m : MemSt) (now a : Nat) (l : List Byte) :
    (m.store now a l).loft = m.loft.write (m.stored a l).1 (m.stored a l).2 := by
  simp only [MemSt.store]
  split
  · rename_i hnone
    rw [List.isEmpty_iff.mp hnone, Mem.write]
  · rfl

section
variable {x : Side} {a k : Nat} {l : List Byte}

/-- A loft write leaves a byte alone that is not of the write, or whose block is covered in part and cannot be corrected. -/
theorem Side.loftGet_loftPut_kept (hwf : x.me.mem.loft.wf = true)
    (h : a ≤ k → k < a + l.length → k / 64 ∈ partBlocks a l.length ∧ blockLost x.me.mem (k / 64) = true) :
    (x.loftPut a l).loftGet k 1 = x.loftGet k 1 := by
  rw [Side.loftGet_one, Side.loftGet_one]
  obtain ⟨-, hmade⟩ | ⟨-, hloft, -⟩ := x.loftPut_cases a l
  · rw [hmade, Side.modMem_me_mem, MemSt.store_loft_eq, Mem.get_write _ hwf, if_neg]
    rintro ⟨hfrom, hto⟩
    obtain ⟨ha, hk, hsound⟩ := MemSt.stored_reach hfrom hto
    obtain ⟨hpart, hlost⟩ := h ha hk
    exact Bool.false_ne_true ((hsound hpart).symm.trans hlost)
  · rw [hloft]

/-- The loft reads back a write that is made, of blocks that are covered whole or can be corrected. -/
theorem Side.loftGet_loftPut_same (hwf : x.me.mem.loft.wf = true)
    (hwiped : ∀ u ∈ unitsAt a l.length, wipePending x.me.mem.wipe u = false)
    (hsound : ∀ b ∈ partBlocks a l.length, blockLost x.me.mem b = false) : (x.loftPut a l).loftGet a l.length = l := by
  obtain ⟨-, hmade⟩ | ⟨⟨u, hu, hpend⟩, -⟩ := x.loftPut_cases a l
  · rw [hmade, Side.loftGet, Side.modMem_me_mem, MemSt.store_loft _ _ _ _ hsound]
    exact Mem.read_write_same _ hwf a l
  · exact absurd ((hwiped u hu).symm.trans hpend) Bool.false_ne_true

/-- A write to a pending unit waits and changes no byte; one of its pending units is the next to be wiped (R427). -/
theorem Side.loftPut_of_pending (h : ∃ u ∈ unitsAt a l.length, wipePending x.me.mem.wipe u = true) :
    (x.loftPut a l).me.mem.loft = x.me.mem.loft ∧ (x.loftPut a l).me.mem.waiting = x.me.mem.waiting ++ [(a, l)] ∧
      ∃ u ∈ unitsAt a l.length, ∃ t, (x.loftPut a l).me.mem.wipe = (u, 1) :: t := by
  obtain ⟨v, hv, hpend⟩ := h
  cases hunits : (unitsAt a l.length).filter (wipePending x.me.mem.wipe) with
  | nil => exact absurd hpend (List.filter_eq_nil_iff.mp hunits v hv)
  | cons u us =>
    have hu : u ∈ unitsAt a l.length := List.mem_of_mem_filter (hunits ▸ List.mem_cons_self)
    simp only [Side.loftPut, Side.modMem_me_mem, hunits, List.isEmpty_cons, Bool.false_eq_true, if_false, List.map_cons,
      List.cons_append]
    exact ⟨trivial, trivial, u, hu, _, rfl⟩

end

/-- Settles O60: the SRAM byte by byte; the loft by whether the write is made or waits, and then by which bytes of it reach the
loft. -/
theorem memoriesReadBack : Obligations.MemoriesReadBack := by
  unfold Obligations.MemoriesReadBack
  refine ⟨fun r a k l hwf hempty => ⟨Sram.byte_put hwf hempty a k l, r.put_bad a l k, Sram.get_put_of_not_valid hwf hempty a l⟩,
    fun x a k l hwf => ⟨Side.loftGet_loftPut_same hwf, ?lostBlockKept, Side.loftPut_of_pending, fun hout => ?othersKept,
      x.loftPut_wf a l hwf⟩⟩
  case lostBlockKept =>
    rintro ⟨b, hpart, hfrom, hto, hlost⟩
    obtain rfl : k / 64 = b := by omega
    exact Side.loftGet_loftPut_kept hwf fun _ _ => ⟨hpart, hlost⟩
  case othersKept => exact Side.loftGet_loftPut_kept hwf fun ha hk => by omega

end Sys2Proof.Machine
end

section
/-!
SUPPORT. What the commands of a camera port do to the view (R488 to R493, R529): by the virtual channel of the packet, the
camera registered for it, and the errors of a line.
-/

namespace Sys2Proof.Machine

section
variable {x : Side} {vc : Fin 16}

/-- A frame packet of virtual channels 0 to 3 is for the camera of its channel (R488). -/
theorem Side.csiPacket_of_supported (hon : x.snsOn = true) (hvc : vc.val < 4) (unsupported taken : Side) :
    (if !x.snsOn then x else if vc.val ≥ 4 then unsupported else taken) = taken := by
  simp only [hon, Nat.not_le.mpr hvc, Bool.not_true, Bool.false_eq_true, if_false]

/-- One of a channel above 3 is unsupported (R488). -/
theorem Side.csiPacket_of_unsupported (hon : x.snsOn = true) (hvc : 4 ≤ vc.val) (unsupported taken : Side) :
    (if !x.snsOn then x else if vc.val ≥ 4 then unsupported else taken) = unsupported := by
  simp only [hon, hvc, Bool.not_true, Bool.false_eq_true, if_false, if_true]

end

/-- Settles O1: a packet of a virtual channel above 3 is unsupported, any other goes to its camera, if one is registered; a frame
times out one period after its start; a link change shows only where the flag differs. -/
theorem cameraFramesComplete : Obligations.CameraFramesComplete := by
  unfold Obligations.CameraFramesComplete
  refine ⟨fun s n d port vc num c hl hon => ⟨fun hvc hcam => ?startUnregistered, fun hvc hcam => ?startCamera,
      fun hvc hcam => ?endCamera, fun hvc hcam => ?endUnregistered, fun hvc => ⟨?startUnsupported, ?endUnsupported⟩⟩,
    fun s n d port hl hon => ⟨fun vc c q hcam hintake hlong => ?timeout, fun up hflag => ?link⟩⟩
  case startUnregistered => exact onLive_ends hl ((Side.csiPacket_of_supported hon hvc _ _).trans (by simp only [hcam]))
  case startCamera => exact onLive_ends hl ((Side.csiPacket_of_supported hon hvc _ _).trans (by simp only [hcam]))
  case endCamera => exact onLive_ends hl ((Side.csiPacket_of_supported hon hvc _ _).trans (by simp only [hcam]))
  case endUnregistered => exact onLive_ends hl ((Side.csiPacket_of_supported hon hvc _ _).trans (by simp only [hcam]))
  case startUnsupported => exact onLive_ends hl (Side.csiPacket_of_unsupported hon hvc _ _)
  case endUnsupported => exact onLive_ends hl (Side.csiPacket_of_unsupported hon hvc _ _)
  case timeout =>
    exact onLive_ends hl (by simp only [hon, hcam, hintake, hlong, Bool.not_true, Bool.false_eq_true, if_false, if_true])
  case link =>
    have hchanges : ((s.at_ n d).flag (Reg.SNS_STAT.inst port) 0 == up) = false := by rw [hflag]; cases up <;> rfl
    exact onLive_ends hl (by simp only [hon, hchanges, Bool.not_true, Bool.or_self, Bool.false_eq_true, if_false])

/-- Settles O2: a header error stops a line before its kind is looked at, an unsupported kind before its payload is; any other
line is taken with what its errors do. -/
theorem cameraLinesComplete : Obligations.CameraLinesComplete := by
  unfold Obligations.CameraLinesComplete
  intro s n d port vc dtype payload err hl hon hstart hend
  refine ⟨fun hheader hvc hplanes => ?taken, fun hheader => ?headerError, fun hheader hkind => ?unsupported⟩
  case taken =>
    have hsupported : (decide (vc.val ≥ 4) || (planesOf dtype 2).isEmpty) = false := by
      simpa [List.isEmpty_iff] using And.intro hvc hplanes
    exact onLive_ends hl (by
      simp only [hon, hstart, hend, hheader, hsupported, Bool.not_true, decide_false, Bool.or_self, Bool.false_eq_true, if_false])
  case headerError =>
    exact onLive_ends hl (by
      simp only [hon, hstart, hend, hheader, Bool.not_true, decide_false, Bool.or_self, Bool.false_eq_true, if_false, if_true])
  case unsupported =>
    have hguard : (decide (vc.val ≥ 4) || (planesOf dtype 2).isEmpty) = true := by simpa [List.isEmpty_iff] using hkind
    exact onLive_ends hl (by
      simp only [hon, hstart, hend, hheader, hguard, Bool.not_true, decide_false, Bool.or_self, Bool.false_eq_true, if_false,
        if_true])

end Sys2Proof.Machine
end

section
/-!
SUPPORT. Samples of the stamp units and of Ethernet ingress (R494 to R498): an edge outside and inside a burst, the counter of a
burst, and the oldest frame that the switch holds.
-/

namespace Sys2Proof.Machine

/-- A burst without a counter of its own has none to check (R495). -/
theorem Side.burstCount_of_none (x : Side) (page u cnt : Nat) : x.burstCount page u 0xFF cnt = x := if_pos rfl

/-- Settles O3: no replay runs, or fusion listens; then BUSY of the unit decides what an edge does, the place of the counter what
a burst does, and the frame check what a frame does. -/
theorem samplesComplete : Obligations.SamplesComplete := by
  unfold Obligations.SamplesComplete
  intro s n d hl hon
  refine ⟨fun u hreplay hidle => ?stamped, fun u hreplay hbusy => ?overflow,
    fun u burst c hbusy hlisten himu hcounter => ?counted, fun u burst c hbusy hlisten himu hcounter => ?uncounted,
    fun h f st w t c hin hlisten heth => ⟨?sound, ?damaged⟩⟩
  case stamped =>
    exact onLive_ends hl (by
      simp only [hon, hreplay, hidle, Option.isSome_none, Bool.not_true, Bool.or_self, Bool.false_eq_true, if_false])
  case overflow =>
    exact onLive_ends hl (by
      simp only [hon, hreplay, hbusy, Option.isSome_none, Bool.not_true, Bool.or_self, Bool.false_eq_true, if_false, if_true])
  case counted =>
    exact onLive_ends hl (by
      simp only [hon, hbusy, hlisten, himu, hcounter, Bool.not_true, Bool.or_self, Bool.false_eq_true, if_false])
  case uncounted =>
    exact onLive_ends hl (by
      simp only [hon, hbusy, hlisten, himu, hcounter, Side.burstCount_of_none, Bool.not_true, Bool.or_self, Bool.false_eq_true,
        if_false, if_true])
  case sound =>
    exact onLive_ends hl (by simp only [hin, hon, hlisten, heth, Bool.not_true, Bool.or_self, Bool.false_eq_true, if_false])
  case damaged =>
    exact onLive_ends hl (by
      simp only [hin, hon, hlisten, heth, Bool.not_true, Bool.not_false, Bool.or_self, Bool.false_eq_true, if_false, if_true])

end Sys2Proof.Machine
end

section
/-!
SUPPORT. The stages of fusion by their budgets (R515 to R527), and what a write of FUS_SWAP or FUS_CTRL does (R478, R480, R486,
R509, R742).
-/

namespace Sys2Proof.Machine

section
variable {x : Side} {v : Word}

/-- A write of FUS_CTRL that leaves EN as it is. -/
theorem Side.writeFusCtrl_of_same (h : x.fusOn = (bit v 0 && !x.flag Reg.SAFE_UNIT_FENCE 4)) :
    x.writeFusCtrl v = x.wr Reg.FUS_CTRL (word (nat1 (bit v 0 && !x.flag Reg.SAFE_UNIT_FENCE 4))) :=
  if_pos (beq_iff_eq.mpr h)

/-- One that changes EN starts fusion afresh (R486, R509). -/
theorem Side.writeFusCtrl_of_change (h : x.fusOn ≠ (bit v 0 && !x.flag Reg.SAFE_UNIT_FENCE 4)) :
    x.writeFusCtrl v = (x.wr Reg.FUS_CTRL (word (nat1 (bit v 0 && !x.flag Reg.SAFE_UNIT_FENCE 4)))).fusFresh :=
  if_neg fun e => h (beq_iff_eq.mp e)

end

/-- Settles O4: each stage by whether its budget has ended, a swap by the outcome of its check, and a write of FUS_CTRL by whether
it changes EN. -/
theorem fusionStagesComplete : Obligations.FusionStagesComplete := by
  unfold Obligations.FusionStagesComplete
  refine ⟨fun s n d g hl => ⟨fun hstage hover => ?projCommits, fun hstage hover => ?projStops, fun hstage hover => ?trkCommits,
      fun hstage hover => ?trkStops⟩,
    fun s n d w v hl => ⟨fun hmay hv => ?swap, fun hmay hsame => ?kept, fun hmay hchange => ?changed⟩⟩
  case projCommits => exact onLive_ends hl (by simp only [hstage, hover, Bool.false_eq_true, if_false])
  case projStops => exact onLive_ends hl (by simp only [hstage, hover, Bool.not_true, Bool.false_eq_true, if_false])
  case trkCommits => exact onLive_ends hl (by simp only [hstage, hover, Bool.false_eq_true, if_false])
  case trkStops => exact onLive_ends hl (by simp only [hstage, hover, Bool.not_true, Bool.false_eq_true, if_false])
  case swap =>
    refine onLive_ends hl ((Side.access_of_may hmay _).trans ?_)
    by_cases hcheck : (s.at_ n d).swapCheck = 0
    · simp only [hv, hcheck, beq_self_eq_true, Bool.not_true, Bool.false_eq_true, if_false, if_true]
    · simp only [hv, hcheck, beq_eq_false_iff_ne.mpr hcheck, Bool.not_true, Bool.false_eq_true, if_false]
  case kept => exact onLive_ends hl (by rw [Side.access_of_may hmay, Side.writeFusCtrl_of_same hsame])
  case changed => exact onLive_ends hl (by rw [Side.access_of_may hmay, Side.writeFusCtrl_of_change hchange])

end Sys2Proof.Machine
end

section
/-!
SUPPORT. What the commands of the raster cluster do to the view (R531, R535 to R547, R551 to R555): by the state of a context,
the core and its workgroup, and the job that a reference names.
-/

namespace Sys2Proof.Machine

/-- A raster job is for a context other than 0, a compositor job for context 0 (R531, R552). -/
theorem jobKind_bne_eq_false {comp : Option CompJob} {ctx : Nat} (h : comp.isSome = true ↔ ctx = 0) :
    (comp.isSome != (ctx == 0)) = false := by
  rw [bne_eq_false_iff_eq, Bool.eq_iff_iff, h, beq_iff_eq]

/-- Settles O5: a job that Rhordo takes by the state of its context (a DISABLED one refuses it by log 98); a workgroup by the room
in the reorder buffers; a kill by whether the workgroup ends in the same cycle (log 149). -/
theorem workgroupsComplete : Obligations.WorkgroupsComplete := by
  unfold Obligations.WorkgroupsComplete
  refine ⟨fun s n d r j c hl htakes hnew => ⟨fun henabled hkind => ?queued, fun hdisabled => ?refused⟩,
    fun s n d core hl => ⟨fun c j hfree hctx hjob => ?dispatched, fun q acc w hwork => ⟨fun hfits => ?ended, fun hfull => ?waits⟩,
      fun q hwork hclaimed hlong => ⟨fun hruns => ?killed, fun hends => ?stands⟩⟩⟩
  case queued =>
    exact onLive_ends hl ((Side.hostCmd_of_takes htakes _).trans (by
      simp only [hnew, jobKind_bne_eq_false hkind, henabled, decide_false, Bool.or_self, Bool.false_eq_true, if_false]))
  case refused =>
    exact onLive_ends hl ((Side.hostCmd_of_takes htakes _).trans (by
      simp only [hnew, hdisabled, decide_true, Bool.true_or, Bool.false_eq_true, if_false, if_true]))
  case dispatched =>
    exact onLive_ends hl (by simp only [hfree, hctx, hjob, Bool.not_true, Bool.false_eq_true, if_false])
  case ended => exact onLive_ends hl (by simp only [hwork, hfits, if_true])
  case waits => exact onLive_ends hl (by simp only [hwork, hfull, Bool.false_eq_true, if_false, id])
  case killed =>
    exact onLive_ends hl (by
      simp only [hwork, hclaimed, hruns, Nat.not_lt.mpr hlong, decide_false, Bool.not_true, Bool.or_self, Bool.false_eq_true,
        if_false])
  case stands => exact onLive_ends hl (by simp only [hwork, hends, Bool.or_true, if_true, id])

/-- Settles O6: the job that the reference names is the compositor's or a raster job; a compositor job by whether it is ready,
late or started, a raster job by whether its workgroups have ended. -/
theorem gfxJobsComplete : Obligations.GfxJobsComplete := by
  unfold Obligations.GfxJobsComplete
  intro s n d r j hl hjob
  refine ⟨fun k hcomp => ⟨fun hready => ?starts, fun hidle hlate => ?dropped, fun hstarted acc gone => ?composed⟩,
    fun hraster hover acc gone => ?rastered⟩
  case starts => exact onLive_ends hl (by simp only [hjob, hcomp, hready, if_true])
  case dropped =>
    exact onLive_ends hl (by
      simp only [hjob, hcomp, hidle, Int.not_lt.mpr hlate, decide_false, Bool.or_self, Bool.false_eq_true, if_false])
  case composed => exact onLive_ends hl (by simp only [hjob, hcomp, hstarted, Bool.not_true, Bool.false_eq_true, if_false])
  case rastered => exact onLive_ends hl (by simp only [hjob, hraster, hover, if_true, Side.commitRaster, GJob.hint])

end Sys2Proof.Machine
end

section
/-!
SUPPORT. Telltales (R566 to R574): the pixels of a region, a write of its registers, its check, and what a stalled pipe and an
atlas load do to the view.
-/

namespace Sys2Proof.Machine

/-! ## Pixels -/

/-- A transparent pixel shows what is below it. -/
@[simp] theorem blendOver_transparent (above below : Byte) : blendOver 0 above below = below := if_pos rfl

/-- An opaque one hides it. -/
@[simp] theorem blendOver_opaque (above below : Byte) : blendOver 255 above below = above := by
  rw [blendOver, if_neg (by decide), if_pos rfl]

/-- A component of a region's background: blue, green, red for k = 0, 1, 2. -/
def TtSt.ground (t : TtSt) (k : Nat) : Byte := BitVec.ofNat 8 (fld t.bg (8 * k + 7) (8 * k))

/-- Byte k of pixel (i, j) of a region's icon: blue, green, red, alpha (R568; the order is log 101, a choice of the model). -/
def Side.iconByte (x : Side) (t : TtSt) (i j k : Nat) : Byte :=
  x.me.icons.byte ((x.iconOf t).1 + 4 * ((x.iconOf t).2.1 * j + i) + k)

/-- A pixel of a region component by component: inside an icon that is shown, the icon's over the background's (R567). -/
theorem Side.ttPixel_eq (x : Side) (t : TtSt) (i j : Nat) :
    x.ttPixel t i j =
      if t.shown ∧ i < (x.iconOf t).2.1 ∧ j < (x.iconOf t).2.2 then
        [2, 1, 0].map fun k => blendOver (x.iconByte t i j 3) (x.iconByte t i j k) (t.ground k)
      else [2, 1, 0].map t.ground := by
  simp only [Side.ttPixel, Bool.and_eq_true, decide_eq_true_eq, and_assoc]
  rfl

section
variable (x : Side) (p r : Nat)

/-! ## Regions -/

/-- A region write that leaves the regions legal is taken (R566, R569). -/
theorem Side.writeTt_of_legal {q : TtReg} {v : Word}
    (h : ((x.store (ttReg p r q) v).modDpy p fun s => { s with wrote := s.wrote.put r x.mt }).ttBad p = false) :
    x.writeTt p r q v = (x.store (ttReg p r q) v).modDpy p fun s => { s with wrote := s.wrote.put r x.mt } :=
  if_neg (Bool.eq_false_iff.mp h)

/-- One that would make them illegal is ignored with its event (R566). -/
theorem Side.writeTt_of_illegal {q : TtReg} {v : Word}
    (h : ((x.store (ttReg p r q) v).modDpy p fun s => { s with wrote := s.wrote.put r x.mt }).ttBad p = true) :
    x.writeTt p r q v = x.raise Ev.DPY_CFG_ERR (4 + p) := if_pos h

/-! ## Checks -/

/-- The view after a check has met the errors of the icon SRAM and left its code (R570, R573). -/
def Side.ttCoded (crc : Word) : Side :=
  (x.ttParity p (x.ttRegion p r)).wr ((Reg.TT_CRC_LAST.inst (4 + p)).el 0x20 r) crc

variable (wrong : List (Nat × Byte))

/-- A check whose code is the expected one clears the region's differences in a row (R571). -/
theorem Side.ttCheck_of_expected (h : crc32c (x.ttOutput (x.ttRegion p r) wrong) = (x.ttRegion p r).expected) :
    x.ttCheck p r wrong = (x.ttCoded p r (crc32c (x.ttOutput (x.ttRegion p r) wrong))).modDpy p fun s =>
      { s with regions := s.regions.put r { x.ttRegion p r with bad := 0 } } := if_pos h

/-- Any other counts one more (R571). -/
theorem Side.ttCheck_of_different (h : crc32c (x.ttOutput (x.ttRegion p r) wrong) ≠ (x.ttRegion p r).expected) :
    x.ttCheck p r wrong =
      (x.ttCoded p r (crc32c (x.ttOutput (x.ttRegion p r) wrong))).ttWrong p r (x.ttRegion p r) := if_neg h

end

/-- Settles O9: a region write by whether the regions stay legal, a check by whether its code is the expected one; a pixel by
`Side.ttPixel_eq`; the guards of a stall and of an atlas load are met. The byte order of an icon's pixel is log 101, a choice of the
model. -/
theorem telltalesComplete : Obligations.TelltalesComplete := by
  unfold Obligations.TelltalesComplete
  intro s n d p r hl
  refine ⟨fun w q v hmay => ⟨fun hlegal => ?written, fun hillegal => ?ignored⟩,
    fun hlive wrong flips => ⟨fun hcrc => ?cleared, fun hcrc => ?counted⟩,
    fun t i j => (s.at_ n d).ttPixel_eq t i j, fun above below => ⟨blendOver_transparent above below, blendOver_opaque above below⟩,
    fun m hen hflag hfrom hdots hlong => ?stalled, fun hen hunloaded hsealed hpage => ?loaded⟩
  case written => exact onLive_ends hl (by rw [Side.access_of_may hmay, Side.writeTt_of_legal _ _ _ hlegal])
  case ignored => exact onLive_ends hl (by rw [Side.access_of_may hmay, Side.writeTt_of_illegal _ _ _ hillegal])
  case cleared => exact onLive_ends hl ((if_pos hlive).trans (Side.ttCheck_of_expected _ _ _ wrong hcrc))
  case counted => exact onLive_ends hl ((if_pos hlive).trans (Side.ttCheck_of_different _ _ _ wrong hcrc))
  case stalled =>
    exact onLive_ends hl (by
      simp only [hen, hflag, hfrom, Bool.not_false, Bool.and_self, ne_eq, hdots, not_false_eq_true, hlong, and_self, if_true])
  case loaded =>
    exact onLive_ends hl (by
      simp only [hen, hunloaded, hsealed, hpage, Bool.not_true, Bool.or_self, Bool.false_eq_true, if_false])

end Sys2Proof.Machine
end

section
/-!
SUPPORT. The switch's timers, its links and its network image (R578 to R587, R606).
-/

namespace Sys2Proof.Machine

/-- Settles O11: the entry of a gate list, the function or the link that a command names meets its guards; an image request is a
register write that is performed, and a load that is done has an image to check. -/
theorem switchTimersComplete : Obligations.SwitchTimersComplete := by
  unfold Obligations.SwitchTimersComplete
  refine ⟨fun s n d hl => ⟨fun p m i t hgates hpos hmore hdue => ?gate, fun g m i t hgates hpos hmore hdue => ?streamGate,
    fun h r hr hnone hdue => ?recovery, fun mac vid => ?ageing, fun p up ver hpage hmode hchange => ?link⟩,
    fun s n d hl => ⟨fun w v hmay hbit => ?requested, fun a re hload => ?loaded⟩⟩
  case gate =>
    exact onLive_ends hl (by simp only [hgates, hpos, hmore, hdue, decide_true, Bool.and_self, if_true])
  case streamGate =>
    exact onLive_ends hl (by simp only [hgates, hpos, hmore, hdue, decide_true, Bool.and_self, if_true])
  case recovery =>
    exact onLive_ends hl (by simp only [hr, hnone, hdue, Bool.not_false, decide_true, Bool.and_self, if_true])
  case ageing => exact onLive_ends hl rfl
  case link =>
    have hused : (up && (s.at_ n d).portMode p == 0) = false := by
      cases up with
      | false => rfl
      | true => simpa using hmode rfl
    have hother : ((!up) == up) = false := by cases up <;> rfl
    exact onLive_ends hl (by
      simp only [hpage, hused, hchange, hother, Bool.not_true, Bool.or_self, Bool.false_eq_true, if_false])
  case requested => exact onLive_ends hl ((Side.access_of_may hmay _).trans (by simp only [hbit, if_true, Side.requestImage]))
  case loaded => exact onLive_ends hl (by simp only [hload])

end Sys2Proof.Machine
end

section
/-!
SUPPORT. CAN controllers on the bus (R595 to R597, R601, R603): the frames of one cycle in the order of their controllers, and
what a frame that arrives does.
-/

namespace Sys2Proof.Machine

/-! ## The order of a cycle (R603) -/

/-- The frames of a cycle that come before controller c's: those of lower controllers, in the order of the controllers. -/
def canBefore (c : Nat) (l : List CanArrival) : List CanArrival :=
  (List.range 16).flatMap fun k => (l.filter fun q => decide (q.c.val < c)).filter fun q => q.c.val == k

/-- A cycle without a lower controller has none. -/
theorem canBefore_of_least {c : Nat} {l : List CanArrival} (h : ∀ q ∈ l, c ≤ q.c.val) : canBefore c l = [] := by
  have hlower : (l.filter fun q => decide (q.c.val < c)) = [] :=
    List.filter_eq_nil_iff.mpr fun q hq => by simpa using h q hq
  simp only [canBefore, hlower, List.filter_nil, List.flatMap_eq_nil_iff, implies_true]

section
variable {x : Side} {q : CanArrival} {l : List CanArrival}

/-- In a cycle whose earlier frames brought none forward, the frames of lower controllers are routed, then this one. -/
theorem Side.canTurn_of_none_early (now : Bool) (h : x.me.net.canEarly = []) :
    x.canTurn now l q =
      ((canBefore q.c l).foldl Side.canArrive (x.modNet fun k => { k with canEarly := canBefore q.c l })).canArrive q := by
  have hearly : (if now then x.me.net.canEarly else []) = [] := by rw [h, ite_self]
  simp only [Side.canTurn, hearly, List.contains_nil, Bool.false_eq_true, if_false, Bool.not_false, List.filter_true,
    List.nil_append, canBefore]

/-- A frame of the lowest controller of its cycle is routed at once. -/
theorem Side.canTurn_of_least (now : Bool) (h : x.me.net.canEarly = []) (hl : ∀ r ∈ l, q.c.val ≤ r.c.val) :
    x.canTurn now l q = x.canArrive q := by
  have hkeep : (x.modNet fun k => { k with canEarly := [] }) = x := by
    have hnet : { x.me.net with canEarly := [] } = x.me.net := h ▸ rfl
    simp only [Side.modNet, hnet]
  rw [Side.canTurn_of_none_early now h, canBefore_of_least hl, List.foldl_nil, hkeep]

/-- A frame that was brought forward is not routed again. -/
theorem Side.canTurn_of_early (h : x.me.net.canEarly.contains q = true) :
    x.canTurn true l q = x.modNet fun k => { k with canEarly := k.canEarly.erase q } := if_pos h

/-! ## A frame that arrives -/

/-- A frame of a format that the controller takes counts REC down, and is routed (R596, R601). -/
theorem Side.canArrive_of_takes (hon : x.canOn q.c = true) (ht : x.canTakes q.c q.f = true) :
    x.canArrive q =
      (((x.setCan q.c (canErrState (x.tec q.c) (recAfter (x.recErr q.c))) (x.tec q.c) (recAfter (x.recErr q.c))).count
        Ct.CANG_RX_FRAMES q.c).imgParity q.par).route none q.c q.f x.stamp := by
  simp only [Side.canArrive, hon, ht, Bool.not_true, Bool.or_self, Bool.false_eq_true, if_false]

end

/-- Settles O12: a frame in by its turn in its cycle (which queued frames are of one cycle is log 129, a choice of the model); the
frame of least identifier goes out; an error by whether TEC stays within 255. -/
theorem canFramesComplete : Obligations.CanFramesComplete := by
  unfold Obligations.CanFramesComplete
  intro s n d c hl hon
  refine ⟨fun f par hearly hleast htakes => ?received, fun f par => ⟨fun hearly => ?inOrder, fun hnow hearly => ?routedBefore⟩,
    fun f rest hqueue => ?sent, fun e hstays => ?counted, fun e hover => ?passed⟩
  case received =>
    exact onLive_ends hl ((Side.canTurn_of_least _ hearly hleast).trans (Side.canArrive_of_takes hon htakes))
  case inOrder => exact onLive_ends hl (Side.canTurn_of_none_early _ hearly)
  case routedBefore =>
    exact onLive_ends hl (by simp only [hnow, beq_self_eq_true, Side.canTurn_of_early hearly])
  case sent => exact onLive_ends hl (by simp only [hon, hqueue, Bool.not_true, Bool.false_eq_true, if_false])
  case counted =>
    exact onLive_ends hl (by
      simp only [hon, Nat.not_lt.mpr hstays, Nat.min_eq_right hstays, Bool.not_true, Bool.false_eq_true, if_false])
  case passed =>
    exact onLive_ends hl (by
      simp only [hon, hover, Nat.min_eq_left hover.le, Bool.not_true, Bool.false_eq_true, if_false, if_true])

end Sys2Proof.Machine
end

section
/-!
SUPPORT. Bus-off, its recovery, and a talker whose wait is over (R595, R598, R606).
-/

namespace Sys2Proof.Machine

/-- Settles O13: the state of the controller, or the messages that the talker holds, meet each command's guards; a recovery request
is a register write that is performed. -/
theorem canRecoveryCompletes : Obligations.CanRecoveryCompletes := by
  unfold Obligations.CanRecoveryCompletes
  intro s n d c hl
  refine ⟨fun hon hover => ?busOff, fun w v hmay hbit hoff => ?requested, fun hoff hrec => ?recovered,
    fun t a hwait hdue => ?expired⟩
  case busOff =>
    exact onLive_ends hl (by simp only [hon, hover, Bool.not_true, Bool.or_self, Bool.false_eq_true, if_false])
  case requested =>
    exact onLive_ends hl ((Side.access_of_may hmay _).trans (by
      simp only [hbit, hoff, beq_self_eq_true, Bool.and_self, if_true]))
  case recovered =>
    exact onLive_ends hl (by simp only [hoff, hrec, beq_self_eq_true, Bool.and_self, if_true])
  case expired => exact onLive_ends hl (by simp only [hwait, hdue, if_true])

end Sys2Proof.Machine
end

section
/-!
SUPPORT. What every command answers: a next state with the same queue, on which no trigger waits when none waited before (R731).
-/

namespace Sys2Proof.Machine

/-! ## States that a command leads to -/

/-- t has the queue of s, and no trigger waits on it when none waits on s. -/
structure State.Leads (s t : State) : Prop where
  pending : t.pending = s.pending
  settled : s.NoTriggerWaits → t.NoTriggerWaits

namespace State.Leads
variable {s t u : State}

theorem refl (s : State) : s.Leads s := ⟨rfl, id⟩

theorem trans (h : s.Leads t) (k : t.Leads u) : s.Leads u := ⟨k.pending.trans h.pending, fun e => k.settled (h.settled e)⟩

theorem elapse (s : State) (n : Now) : s.Leads (s.elapse n) := ⟨rfl, noTrigger_elapse n⟩

/-- Then an operation on a channel's view that leaves no trigger where none was. -/
theorem onSide {d : Ch} {f : Side → Side} (h : s.Leads t) (hf : ∀ x : Side, x.me.fired = [] → (f x).me.fired = []) :
    s.Leads (t.onSide d f) :=
  h.trans ⟨t.onSide_pending d f, fun e => noTrigger_onSide e (hf _ (State.side_fired e d))⟩

/-- Then one that enters what it fires. -/
theorem onSide_settle {d : Ch} {f : Side → Side} (h : s.Leads t) : s.Leads (t.onSide d fun x => (f x).settle) :=
  h.onSide fun x _ => Side.settle_fired (f x)

/-- Then one that leaves what the channel holds. -/
theorem onSide_hub {d : Ch} {f : Side → Side} (h : s.Leads t) (hf : ∀ x : Side, (f x).me = x.me) : s.Leads (t.onSide d f) :=
  h.onSide fun x hx => (congrArg Chan.fired (hf x)).trans hx

/-- Then a change of the hub alone. -/
theorem hub (h : s.Leads t) (k : Hub) : s.Leads { t with hub := k } := h.trans ⟨rfl, id⟩

theorem lane {d : Ch} {f : PeerLane → PeerLane} (h : s.Leads t) : s.Leads (t.lane d f) := h.hub _

theorem raiseBoth {e : Ev} (h : s.Leads t) : s.Leads (t.raiseBoth e) := h.trans ⟨t.raiseBoth_pending e, noTrigger_raiseBoth e⟩

theorem hubCount {c : Ct} {i : Nat} (h : s.Leads t) : s.Leads (t.hubCount c i) :=
  h.trans ⟨t.hubCount_pending c i, noTrigger_hubCount c i⟩

theorem hubDenied {d : Ch} {w : Init} (h : s.Leads t) : s.Leads (t.hubDenied d w) :=
  h.trans ⟨t.hubDenied_pending d w, noTrigger_hubDenied d w⟩

theorem onServed {n i : Nat} {f : Side → Side} (h : s.Leads t) : s.Leads (t.onServed n i f) :=
  h.trans ⟨t.onServed_pending n i f, noTrigger_onServed n i f⟩

/-- Either of two. -/
theorem ite {c : Prop} [Decidable c] (h : s.Leads t) (k : s.Leads u) : s.Leads (if c then t else u) := by
  split
  · exact h
  · exact k

/-! ## The hub, its link and the peer paths -/

theorem sendVecs {l : List (Ch × Nat)} (h : s.Leads t) :
    s.Leads (l.foldl (fun (s : State) e => s.onSide e.1 fun x => x.sendVec e.2) t) := by
  have hmsix : ∀ (x : Side) (f v : Nat), (x.msix f v).me = x.me := by
    intro x f v
    unfold Side.msix
    dsimp only
    repeat' split
    all_goals rfl
  induction l generalizing t with
  | nil => exact h
  | cons e l ih => exact ih (h.onSide_hub fun x => hmsix _ _ _)

theorem hubCut (h : s.Leads t) : s.Leads t.hubCut := by
  unfold State.hubCut
  exact .onSide_hub (.hub (.onSide_settle (.onSide_settle h)) _) fun _ => rfl

theorem hubUp (h : s.Leads t) : s.Leads t.hubUp :=
  .onSide_settle (.onSide_settle (.onSide_hub (.hub h _) fun _ => rfl))

theorem loseLink (h : s.Leads t) : s.Leads t.loseLink :=
  .onSide_settle (.onSide_settle (.raiseBoth (.hubCount (.onSide_hub (.hub h _) fun _ => rfl))))

theorem gainLink {r w : Nat} (h : s.Leads t) : s.Leads (t.gainLink r w) :=
  have hup : s.Leads ({ t with hub := { t.hub with linkLost := false } }.onSide .a fun x =>
      x.hwr Reg.PCI_LINK_STAT (pack [(0, r), (4, w), (8, 1), (9, nat1 (decide (r < 5) || decide (w < 8)))])) :=
    .onSide_hub (.hub h _) fun _ => rfl
  .onSide_settle (.onSide_settle (.sendVecs (.onSide_hub (.raiseBoth (.ite (.hubCount hup) hup)) fun _ => rfl)))

theorem pollHub {temps : List Int} (h : s.Leads t) : s.Leads (t.pollHub temps) :=
  have hread {k : Hub} {f : Side → Side} (hf : ∀ x, (f x).me = x.me) : s.Leads ({ t with hub := k }.onSide .a f) :=
    .onSide_hub (.hub h _) hf
  have hraised {k : Hub} {f g : Side → Side} (hf : ∀ x, (f x).me = x.me) (hg : ∀ x, (g x).me = x.me) {c : Ct} {e : Ev} :
      s.Leads (((({ t with hub := k }.onSide .a f).onSide .a g).hubCount c 0).raiseBoth e) :=
    .raiseBoth (.hubCount (.onSide_hub (hread hf) hg))
  .ite (.hub (.ite (hraised (fun _ => rfl) fun _ => rfl) (.hubCut (hraised (fun _ => rfl) fun _ => rfl))) _) (hread fun _ => rfl)

theorem beatIn {d : Ch} {b : Heartbeat} (h : s.Leads t) : s.Leads (t.beatIn d b) :=
  have hseen : s.Leads (t.onSide d fun x =>
      let x := (x.receiveBeat b).settle
      if b.state = 0 && !x.me.safe.solo then x.setSees true else x) := .onSide h fun x _ => by
    dsimp only
    split
    · exact Side.settle_fired (x.receiveBeat b)
    · exact Side.settle_fired (x.receiveBeat b)
  .ite (.raiseBoth (.onSide hseen fun _ hx => hx)) hseen

theorem beatMissed {d : Ch} (h : s.Leads t) : s.Leads (t.beatMissed d) :=
  have hcounted : s.Leads ((t.onSide d fun x => x.modSafe fun s => { s with hbMiss := s.hbMiss + 1, hbRun := 0 }).hubCount
      ⟨T.HUB_PEER, d.die, 0xFFFFFFFF⟩ 0) := .hubCount (.onSide h fun _ hx => hx)
  .ite (.raiseBoth (.hubCount (.onSide hcounted fun _ hx => hx))) hcounted

theorem showHead {d : Ch} (h : s.Leads t) : s.Leads (t.onSide d Side.showHead) := by
  have hfold {f : Side → Nat → Side} (hf : ∀ x k, (f x k).me = x.me) (l : List Nat) (x : Side) : (l.foldl f x).me = x.me := by
    induction l generalizing x with
    | nil => rfl
    | cons k l ih => exact (ih _).trans (hf x k)
  refine h.onSide_hub fun x => ?_
  unfold Side.showHead
  exact hfold (fun x k => x.hwr_me _ _) _ x

end State.Leads

/-! ## Ways to run a command -/

/-- The outcome is a next state that s leads to. -/
def State.Answers (s : State) (o : Host.Outcome State Fault Refusal) : Prop := ∃ t, o = .next t ∧ s.Leads t

theorem State.Leads.answers {s t : State} (h : s.Leads t) : s.Answers (.next t) := ⟨t, rfl, h⟩

section
variable (n : Now) (d : Ch) (w : Init) (s : State)

theorem elapse_answers : s.Answers (.next (s.elapse n)) := (State.Leads.elapse s n).answers

theorem onLive_answers (f : Side → Side) : s.Answers (onLive n d f s) := by
  refine State.Leads.answers ((State.Leads.elapse s n).onSide fun x hx => ?_)
  split
  · exact Side.settle_fired _
  · exact hx

theorem onAny_answers (f : Side → Side) : s.Answers (onAny n d f s) := (State.Leads.elapse s n).onSide_settle.answers

theorem onTick_answers (f : Side → Side) : s.Answers (onTick n d f s) := by
  refine State.Leads.answers ((State.Leads.elapse s n).onSide fun x hx => ?_)
  split
  · exact Side.settle_fired _
  · split
    · exact hx
    · exact hx

theorem onHubReg_answers (a : Reg) (f : Side → Side) : s.Answers (onHubReg n d w a f s) := by
  unfold onHubReg
  dsimp only
  split
  · exact elapse_answers n s
  · split
    · exact (State.Leads.elapse s n).hubDenied.answers
    · exact (State.Leads.elapse s n).onSide_settle.answers

theorem onPage_answers (hub : Bool) (page : Nat) (r : Reg) (f : Nat → Nat → Side → Side) :
    s.Answers (onPage n d w hub page r f s) := by
  unfold onPage
  split
  · exact elapse_answers n s
  · dsimp only
    split
    · split
      · exact elapse_answers n s
      · split
        · exact (State.Leads.elapse s n).hubDenied.answers
        · exact (State.Leads.elapse s n).onServed.answers
    · exact onLive_answers n d s _

/-! ## The peer paths -/

theorem execHeartbeatReceived_answers : s.Answers (execHeartbeatReceived n d s) := by
  unfold execHeartbeatReceived
  dsimp only
  split
  · exact elapse_answers n s
  · split
    · exact (State.Leads.elapse s n).lane.beatIn.answers
    · exact (State.Leads.elapse s n).lane.answers

theorem execHeartbeatPeriodMiss_answers : s.Answers (execHeartbeatPeriodMiss n d s) := by
  unfold execHeartbeatPeriodMiss
  dsimp only
  split
  · exact elapse_answers n s
  · split
    · exact State.Leads.answers (.onSide (.elapse s n) fun _ hx => hx)
    · exact State.Leads.answers (.beatMissed (.onSide (.elapse s n) fun _ hx => hx))

theorem execMailboxSend_answers (v : Word) : s.Answers (execMailboxSend n d w v s) := by
  unfold execMailboxSend
  dsimp only
  split
  · exact elapse_answers n s
  · split
    · exact (State.Leads.elapse s n).hubDenied.answers
    · split
      · exact (State.Leads.elapse s n).hubCount.answers
      · exact (State.Leads.elapse s n).lane.answers

theorem execMailboxReceive_answers : s.Answers (execMailboxReceive n d s) := by
  unfold execMailboxReceive
  dsimp only
  split
  · exact elapse_answers n s
  · split
    · exact (State.Leads.elapse s n).lane.answers
    · split
      · exact (State.Leads.elapse s n).lane.hubCount.raiseBoth.answers
      · exact (State.Leads.elapse s n).lane.lane.showHead.hubCount.answers

theorem mailboxBuffer_answers (a : Reg) (v : Word) : s.Answers (mailboxBuffer n d w a v s) := by
  unfold mailboxBuffer
  dsimp only
  split
  · exact elapse_answers n s
  · split
    · exact (State.Leads.elapse s n).hubDenied.answers
    · exact State.Leads.answers (.onSide_hub (.elapse s n) fun _ => rfl)

/-! ## The hub -/

theorem execPcieLinkDown_answers : s.Answers (execPcieLinkDown n s) := by
  unfold execPcieLinkDown
  dsimp only
  split
  · exact elapse_answers n s
  · exact (State.Leads.elapse s n).loseLink.answers

theorem execPcieLinkUp_answers (rate : Fin 6) (width : Fin 9) : s.Answers (execPcieLinkUp n rate width s) := by
  unfold execPcieLinkUp
  dsimp only
  split
  · exact elapse_answers n s
  · exact (State.Leads.elapse s n).gainLink.answers

theorem execHubReset_answers (t : HubTrigger) : s.Answers (execHubReset n t s) := by
  unfold execHubReset
  dsimp only
  split
  · exact elapse_answers n s
  · split
    · exact ((State.Leads.elapse s n).hubCut.hub _).answers
    · exact (State.Leads.elapse s n).hubCut.answers

theorem execHubReturn_answers : s.Answers (execHubReturn n s) := by
  unfold execHubReturn
  dsimp only
  split
  · exact elapse_answers n s
  · exact (State.Leads.elapse s n).hubUp.answers

theorem execThermalPoll_answers (hub : Bool) (temps : List Int) : s.Answers (execThermalPoll n hub d temps s) := by
  unfold execThermalPoll
  split
  · exact elapse_answers n s
  · split
    · exact (State.Leads.elapse s n).pollHub.answers
    · exact onAny_answers n d s _

/-! ## Register writes -/

/-- A head register's own command acts on its page. -/
theorem headWrite_answers {hub : Bool} {page o : Nat} {v : Word} {f : State → Host.Outcome State Fault Refusal}
    (h : headWrite n d w hub page o v = some f) : s.Answers (f s) := by
  unfold headWrite at h
  split_ifs at h
  all_goals
    cases h
    exact onPage_answers n d w s hub page _ _

/-- A command of its own that a register of the die has is a command on a die that runs. -/
theorem blockWrite_onLive {t i o : Nat} {v : Word} {f : State → Host.Outcome State Fault Refusal}
    (h : (timeWrite n d w t o v).or ((portWrite n d w t i o v).or (safeWrite n d w t o v)) = some f) :
    ∃ g, f s = onLive n d g s := by
  simp only [Option.or_eq_some_iff] at h
  rcases h with h | ⟨-, h | ⟨-, h⟩⟩
  · unfold timeWrite at h
    dsimp only at h
    split_ifs at h
    all_goals
      cases h
      exact ⟨_, rfl⟩
  · unfold portWrite at h
    split_ifs at h
    any_goals
      obtain ⟨k, -, rfl⟩ := Option.map_eq_some_iff.mp h
      exact ⟨_, rfl⟩
    all_goals
      cases h
      exact ⟨_, rfl⟩
  · unfold safeWrite at h
    split_ifs at h
    all_goals
      cases h
      exact ⟨_, rfl⟩

theorem writeDie_answers (off : Nat) (v : Word) : s.Answers (writeDie n d w off v s) := by
  unfold writeDie
  dsimp only
  split
  · exact elapse_answers n s
  · split
    · next f hf => exact headWrite_answers n d w s hf
    · split
      · next f hf =>
        obtain ⟨g, hg⟩ := blockWrite_onLive n d w s hf
        exact hg ▸ onLive_answers n d s g
      · exact onLive_answers n d s _

theorem peerWrite_answers {t o : Nat} {v : Word} {f : State → Host.Outcome State Fault Refusal}
    (h : peerWrite n d w t o v = some f) : s.Answers (f s) := by
  unfold peerWrite at h
  split_ifs at h
  · cases h; exact execMailboxSend_answers n d w s v
  · cases h; exact onHubReg_answers n d w s _ _
  · cases h; exact mailboxBuffer_answers n d w s _ v

theorem State.Leads.writeHubPwr {s t : State} {d : Ch} {a : Reg} {v : Word} (h : s.Leads t) : s.Leads (t.writeHubPwr d a v) :=
  .ite (.hubCount h) (.ite (.onSide_hub h fun _ => rfl) (.ite (.raiseBoth h) (.ite (.onSide_hub h fun _ => rfl) h)))

theorem State.Leads.writeHubOwner {s t : State} {d : Ch} {w : Init} {a : Reg} {v : Word} (h : s.Leads t) :
    s.Leads (t.writeHubOwner d w a v) :=
  .ite (.onSide_hub h fun _ => rfl) (.hubDenied (.onSide_hub h fun _ => rfl))

theorem writeHub_answers (off : Nat) (v : Word) : s.Answers (writeHub n d w off v s) := by
  have h := State.Leads.elapse s n
  unfold writeHub
  dsimp only
  split
  · exact elapse_answers n s
  · split
    · next f hf =>
      rcases Option.or_eq_some_iff.mp hf with hf | ⟨-, hf⟩
      · exact headWrite_answers n d w s hf
      · exact peerWrite_answers n d w s hf
    · split_ifs
      · exact h.answers
      · exact h.writeHubOwner.answers
      · exact State.Leads.answers (.onSide_hub h fun _ => rfl)
      · exact h.hubDenied.answers
      · exact h.writeHubPwr.answers
      · exact State.Leads.answers (.onSide_settle h)

theorem execRegisterWrite_answers (sp : RegSpace) (off : Nat) (v : Word) : s.Answers (execRegisterWrite n d w sp off v s) := by
  unfold execRegisterWrite
  split
  · exact elapse_answers n s
  · cases sp with
    | die => exact writeDie_answers n d w s off v
    | hub => exact writeHub_answers n d w s off v
    | rm => exact onAny_answers n d s _

end

/-! ## All commands -/

/-- Every command answers a next state with the same queue, on which no trigger waits when none waited before. -/
theorem exec_answers (c : Instr) (s : State) : s.Answers (exec c s) := by
  cases c with
  | heartbeatReceived n d => exact execHeartbeatReceived_answers n d s
  | heartbeatPeriodMiss n d => exact execHeartbeatPeriodMiss_answers n d s
  | mailboxSend n d w v => exact execMailboxSend_answers n d w s v
  | mailboxReceive n d => exact execMailboxReceive_answers n d s
  | pcieLinkDown n => exact execPcieLinkDown_answers n s
  | pcieLinkUp n rate width => exact execPcieLinkUp_answers n s rate width
  | hubReset n t => exact execHubReset_answers n s t
  | hubReturn n => exact execHubReturn_answers n s
  | thermalPoll n hub d temps => exact execThermalPoll_answers n d s hub temps
  | registerWrite n d w sp off v => exact execRegisterWrite_answers n d w s sp off v
  | blkQuiesce n d w hub page | blkDisable n d w hub page | softReset n d w hub page | evtRawClear n d w hub page
  | evtEnWrite n d w hub page | evtSet n d w hub page | cntOvfClear n d w hub page | lock n d w hub page =>
    exact onPage_answers n d w s hub page _ _
  | iovCtrlReset n d w | shedCfgWrite n d w | mailboxPop n d w => exact onHubReg_answers n d w s _ _
  | powerUp n d | resetPin n d | brownOut n d | coldResetRelease n d | faultResetRelease n d | doorbellWrite n d | flr n d
  | instanceResetDrained n d | instanceResetDrainTimeout n d | apertureWrite n d | apertureRead n d | msixUnmask n d
  | refClockLost n d | refClockReturn n d | lowWordRead n d =>
    exact onAny_answers n d s _
  | frameStart n d | slotStart n d | fsyncPulse n d | stoppedFrameTick n d =>
    exact onTick_answers n d s _
  | _ => exact onLive_answers _ _ s _

/-! ## Steps -/

/-- Settles O47: by the definition of a step, on a queue with a front command and on an empty one. -/
theorem stepRunsTheFront : Obligations.StepRunsTheFront := by
  unfold Obligations.StepRunsTheFront
  exact fun s c q => ⟨rfl, rfl⟩

/-- Settles O48: what every command answers. -/
theorem everyCommandCompletes : Obligations.EveryCommandCompletes := by
  unfold Obligations.EveryCommandCompletes
  intro c s
  obtain ⟨t, ht, hleads⟩ := exec_answers c s
  exact ⟨t, ht, hleads.pending⟩

/-- Settles O49, by induction on the commands in front: each step runs the first and leaves the rest of the queue. -/
theorem queueRunsInOrder : Obligations.QueueRunsInOrder := by
  unfold Obligations.QueueRunsInOrder
  intro l m s
  induction l generalizing s with
  | nil => exact ⟨s.withPending m, rfl, rfl⟩
  | cons c l ih =>
    obtain ⟨t, ht, hleads⟩ := exec_answers c (s.withPending (l ++ m))
    obtain ⟨u, hu, hqueue⟩ := ih t
    have hkeep : t.withPending (l ++ m) = t := by rw [← show t.pending = l ++ m from hleads.pending]; rfl
    have hstep : step (s.withPending (c :: l ++ m)) = .next t := ht
    refine ⟨u, ?_, hqueue⟩
    rw [hkeep] at hu
    simpa only [List.length_cons, Host.Core.run, Sys2Proof.core, hstep] using hu

/-- Settles O50: an idle step changes nothing, any other is the front command's answer. -/
theorem stepsEnterEveryTrigger : Obligations.StepsEnterEveryTrigger := by
  unfold Obligations.StepsEnterEveryTrigger
  intro s t hs hstep
  unfold step at hstep
  split at hstep
  · cases hstep; exact hs
  · next c q _ =>
    obtain ⟨u, hu, hleads⟩ := exec_answers c (s.withPending q)
    cases hu.symm.trans hstep
    exact hleads.settled hs

end Sys2Proof.Machine
end

section
/-!
SUPPORT. The companion bus (R609 to R631): the near requests of one cycle in the order of their initiators, and what the bridge does
with one whose turn it is.
-/

namespace Sys2Proof.Machine

/-! ## The order of a cycle (R628) -/

section
variable {x : Side} {q : NearReq} {l : List NearReq}

theorem Side.setEarly_of_nil (h : x.me.cbb.early = []) : x.setEarly [] = x := by
  have hcbb : { x.me.cbb with early := [] } = x.me.cbb := h ▸ rfl
  simp only [Side.setEarly, hcbb]

/-- In a cycle none of whose requests was taken before its turn, those of lower initiators are taken, then this one. -/
theorem Side.nearTurn_of_none_early (now : Bool) (h : x.me.cbb.early = []) :
    x.nearTurn now l q =
      ((byInit (l.filter fun r => decide (r.init.val < q.init.val))).foldl Side.takeNear
        (x.setEarly (l.filter fun r => decide (r.init.val < q.init.val)))).takeNear q := by
  have hearly : (if now then x.me.cbb.early else []) = [] := by rw [h, ite_self]
  simp only [Side.nearTurn, hearly, List.contains_nil, Bool.false_eq_true, if_false, Bool.not_false, List.filter_true,
    List.nil_append]

/-- A request of the lowest initiator of its cycle is taken at once. -/
theorem Side.nearTurn_of_least (now : Bool) (h : x.me.cbb.early = []) (hl : ∀ r ∈ l, q.init.val ≤ r.init.val) :
    x.nearTurn now l q = x.takeNear q := by
  have hlower : (l.filter fun r => decide (r.init.val < q.init.val)) = [] :=
    List.filter_eq_nil_iff.mpr fun r hr => by simpa using hl r hr
  have hnone : byInit [] = [] := rfl
  rw [Side.nearTurn_of_none_early now h, hlower, hnone, List.foldl_nil, Side.setEarly_of_nil h]

/-- A request that was taken before its turn is not taken again. -/
theorem Side.nearTurn_of_early (h : x.me.cbb.early.contains q = true) :
    x.nearTurn true l q = x.setEarly (x.me.cbb.early.erase q) := if_pos h

end

/-! ## A request whose turn it is -/

section
variable {x : Side} {i off len w k : Nat} {bytes : List Byte}

/-- A write through a window that permits it, by its window and the posted queue (R614, R620). -/
theorem Side.nearWrite_of_window (hon : x.cbbOn = true) (hwin : x.winAt off bytes.length = some w)
    (hpermits : x.winRefuses w i off bytes.length true = false) (hfree : x.semBlocks (x.cbbWin Reg.CBB_WIN_FAR w 29 28) i = false) :
    x.nearWrite i off bytes =
      if x.cbbWin Reg.CBB_WIN_CFG w 5 5 = 1 then
        x.modCbb fun b => { b with queue := b.queue ++ [x.cbbReq .open_ w i off bytes.length bytes] }
      else if x.me.cbb.posted < 16 then
        (x.modCbb fun b => { b with queue := b.queue ++ [x.cbbReq .posted w i off bytes.length bytes] }).emit (.nearDone i [])
      else (x.count Ct.CBB_WQ_FULL).modCbb fun b => { b with held := b.held ++ [x.cbbReq .posted w i off bytes.length bytes] } := by
  simp only [Side.nearWrite, hon, hwin, hpermits, hfree, if_true, Bool.false_eq_true, if_false]

/-- A read or an atomic that takes no semaphore, while a read buffer is free (R621). -/
theorem Side.allocate_of_free {r : CbbReq} (hsem : r.sem = false) (hk : x.me.cbb.freeBuf = some k) :
    x.allocate r = (x.modCbb fun b => { b with
      queue := b.queue ++ [{ r with buf := some k }]
      bufs := b.bufs.put k { init := r.init, off := r.off, len := r.len, fill := none } }).cbbRetry r.init := by
  simp only [Side.allocate, hk, hsem, Bool.false_and, Bool.false_eq_true, if_false]

/-- A read through a window that permits it (R621). -/
theorem Side.nearRead_of_window (hon : x.cbbOn = true) (hwin : x.winAt off len = some w)
    (hpermits : x.winRefuses w i off len false = false) (hfree : x.semBlocks (x.cbbWin Reg.CBB_WIN_FAR w 29 28) i = false) :
    x.nearRead i off len = x.allocate (x.cbbReq .read w i off len []) := by
  simp only [Side.nearRead, hon, hwin, hpermits, hfree, if_true, Bool.false_eq_true, if_false]

theorem Side.nearRead_of_off (hoff : x.cbbOn = false) : x.nearRead i off len = x.noWindow i := by
  simp only [Side.nearRead, hoff, Bool.false_eq_true, if_false]

/-- An aligned atomic through a window of LOCK mode 1 or 2 that permits it (R624, R625). -/
theorem Side.nearAtomic_of_window {i : Fin 6} {op : AtomicOp} {mode : Nat} (hon : x.cbbOn = true) (hwin : x.winAt off 4 = some w)
    (hpermits : x.winRefuses w i off 4 true = false) (halign : off % 4 = 0)
    (hfree : x.semBlocks (x.cbbWin Reg.CBB_WIN_FAR w 29 28) i = false) (hmode : x.cbbWin Reg.CBB_WIN_CFG w 4 3 = mode)
    (hlocks : mode = 1 ∨ mode = 2) {cblock sem : Bool} (hcblock : (mode == 1) = cblock)
    (hsem : (mode == 2 && x.me.cbb.holder (x.cbbReq (.atomic op) w i off 4 []).cs != some i.val) = sem) :
    x.nearAtomic i off op = x.allocate { x.cbbReq (.atomic op) w i off 4 [] with cblock := cblock, sem := sem } := by
  have hserved : (decide (mode = 0) || decide (mode = 3)) = false := by rcases hlocks with rfl | rfl <;> rfl
  simp only [Side.nearAtomic, hon, hwin, hpermits, halign, hfree, hmode, hserved, hcblock, hsem, bne_self_eq_false, Bool.or_self,
    if_true, Bool.false_eq_true, if_false]

/-- A reissue of a request whose buffer is filled (R622). -/
theorem Side.nearReissue_of_filled {b : CbbBuf} {data : List Byte} {err : Bool} {t : Nat}
    (hbuf : x.me.cbb.bufs.find? (fun e => e.2.init == i && e.2.off == off && e.2.len == len) = some (k, b))
    (hfill : b.fill = some (data, err, t)) :
    x.nearReissue i off len =
      if err then ((x.modCbb fun c => { c with bufs := c.bufs.drop k }).emit (.nearDone i (List.replicate len 0))).emit
        (.nearError i)
      else (x.modCbb fun c => { c with bufs := c.bufs.drop k }).emit (.nearDone i data) := by
  obtain ⟨rest, hmine⟩ : ∃ rest, (x.me.cbb.bufs.filter fun e => e.2.init == i && e.2.off == off && e.2.len == len) =
      (k, b) :: rest := List.head?_eq_some_iff.mp (List.head?_filter.trans hbuf)
  simp only [Side.nearReissue, hmine, List.findSome?_cons, hfill, Option.map_some]

end

/-- Settles O14: a request whose turn comes first in its cycle is taken at once (which queued requests are of one cycle is log 129, a
choice of the model), by its window, the posted queue and the read buffers; one that the bridge does not take while it is off or
quiesced is refused (log 111, a choice of the model). -/
theorem nearRequestsComplete : Obligations.NearRequestsComplete := by
  unfold Obligations.NearRequestsComplete
  intro s n d i off len w hl
  refine ⟨fun hearly hleast => ?first, fun bytes op e he => ?turns⟩
  case first =>
    have htaken (op : NearOp) (g : Side → Side) (h : (s.at_ n d).takeNear ⟨i, off, op⟩ = g (s.at_ n d)) :
        onLive n d (fun x => x.nearTurn (n.on d == 0) (sameCycle d s.pending) ⟨i, off, op⟩) s = .next (s.ends n d g) :=
      onLive_ends hl ((Side.nearTurn_of_least _ hearly hleast).trans h)
    refine ⟨fun bytes hon hwin hpermits hfree => ⟨fun hopen => ?openWrite, fun hposts hroom => ?posted, fun hposts hfull => ?held⟩,
      fun k hon hwin hpermits hfree hk => ?read,
      fun op k hon hwin hpermits halign hfree hk => ⟨fun hmode => ?lockedBus, fun hmode => ?bySemaphore⟩,
      fun k b data err t hbuf hfill => ?reissue, fun hoff => ?refused⟩
    case openWrite =>
      exact htaken (.write bytes) _ ((Side.nearWrite_of_window hon hwin hpermits hfree).trans (if_pos hopen))
    case posted =>
      have hnot : ¬(s.at_ n d).cbbWin Reg.CBB_WIN_CFG w 5 5 = 1 := by omega
      exact htaken (.write bytes) _ ((Side.nearWrite_of_window hon hwin hpermits hfree).trans
        ((if_neg hnot).trans (if_pos hroom)))
    case held =>
      have hnot : ¬(s.at_ n d).cbbWin Reg.CBB_WIN_CFG w 5 5 = 1 := by omega
      exact htaken (.write bytes) _ ((Side.nearWrite_of_window hon hwin hpermits hfree).trans
        ((if_neg hnot).trans (if_neg (Nat.not_lt.mpr hfull))))
    case read =>
      exact htaken (.read len) _ ((Side.nearRead_of_window hon hwin hpermits hfree).trans (Side.allocate_of_free rfl hk))
    case lockedBus =>
      exact htaken (.atomic op) _ ((Side.nearAtomic_of_window hon hwin hpermits halign hfree hmode (.inl rfl) rfl rfl).trans
        (Side.allocate_of_free rfl hk))
    case bySemaphore =>
      exact htaken (.atomic op) _ (Side.nearAtomic_of_window hon hwin hpermits halign hfree hmode (.inr rfl) rfl (Bool.true_and _))
    case reissue => exact htaken (.reissue len) _ (Side.nearReissue_of_filled hbuf hfill)
    case refused => exact htaken (.read len) _ (Side.nearRead_of_off hoff)
  case turns =>
    have hexec : exec e.1 s = onLive n d (fun x => x.nearTurn (n.on d == 0) (sameCycle d s.pending) ⟨i, off, e.2⟩) s := by
      simp only [List.mem_cons, List.not_mem_nil, or_false] at he
      rcases he with rfl | rfl | rfl | rfl <;> rfl
    refine ⟨fun hearly => ?inOrder, fun hnow hearly => ?takenBefore⟩
    case inOrder => exact hexec.trans (onLive_ends hl (Side.nearTurn_of_none_early _ hearly))
    case takenBefore =>
      exact hexec.trans (onLive_ends hl (by simp only [hnow, beq_self_eq_true, Side.nearTurn_of_early hearly]))

end Sys2Proof.Machine
end

section
/-!
SUPPORT. Far cycles, the bridge's semaphores and its windows (R609 to R611, R615, R623, R626, R627).
-/

namespace Sys2Proof.Machine

/-- Settles O15: the head request and the cycle that runs decide; a filled buffer expires when no request of its cycle claims it
(which requests are of one cycle is log 129, the cycle's limit log 112, choices of the model). -/
theorem farCyclesComplete : Obligations.FarCyclesComplete := by
  unfold Obligations.FarCyclesComplete
  intro s n d r q hl
  refine ⟨fun hqueue hnone hidle hpage => ?starts, fun t waits data err hqueue hcycle hlength hlong => ?ends,
    fun t hqueue hcycle hlong => ?timeout, fun k data err t hfill hlong hunclaimed => ?expired⟩
  case starts =>
    exact onLive_ends hl (by simp only [hqueue, hnone, hidle, hpage, Bool.not_true, Bool.or_self, Bool.false_eq_true, if_false])
  case ends => exact onLive_ends hl (by simp only [hqueue, hcycle, hlength, hlong, decide_true, Bool.and_self, if_true])
  case timeout => exact onLive_ends hl (by simp only [hqueue, hcycle, hlong, if_true])
  case expired =>
    exact onLive_ends hl (by simp only [hfill, hlong, hunclaimed, decide_true, Bool.not_false, Bool.and_self, if_true])

/-- Settles O16: a semaphore by its holder, a forced one by whether that holder releases it in the same cycle (which commands are of
one cycle is log 129, a choice of the model); a window write by whether it leaves the windows legal. -/
theorem semaphoresAndWindows : Obligations.SemaphoresAndWindows := by
  unfold Obligations.SemaphoresAndWindows
  intro s n d c hl
  refine ⟨fun i hpage hfree => ?granted, fun i h hpage hheld => ?read, fun i v hpage hv hheld => ?released,
    fun h t htaken hlong => ⟨fun hkept => ?forced, fun hreleased => ?stands⟩,
    fun w win r v hmay => ⟨fun hlegal => ?written, fun hillegal => ?ignored⟩⟩
  case granted =>
    exact onLive_ends hl (by simp only [Side.semTake, hpage, hfree, Bool.not_true, Bool.false_eq_true, if_false])
  case read =>
    exact onLive_ends hl (by simp only [Side.semTake, hpage, hheld, Bool.not_true, Bool.false_eq_true, if_false])
  case released => exact onLive_ends hl (by simp only [hpage, hv, hheld, beq_self_eq_true, Bool.and_self, if_true])
  case forced => exact onLive_ends hl (by simp only [htaken, hlong, hkept, decide_true, Bool.not_false, Bool.and_self, if_true])
  case stands =>
    exact onLive_ends hl (by
      simp only [htaken, hlong, hreleased, decide_true, Bool.not_true, Bool.and_false, Bool.false_eq_true, if_false, id])
  case written =>
    exact onLive_ends hl ((Side.access_of_may hmay _).trans (by simp only [hlegal, Bool.false_eq_true, if_false]))
  case ignored => exact onLive_ends hl ((Side.access_of_may hmay _).trans (by simp only [hillegal, if_true]))

end Sys2Proof.Machine
end

section
/-!
SUPPORT. The boot ROM, cold and fault resets, and the hub with its link (R635 to R637, R691 to R694, R738, R792, R825 to R839).
-/

namespace Sys2Proof.Machine

/-- Settles O24: MODE and the state of the loft meet the guards; the outcome of a step decides (an image of illegal length leaves
cause NO_FLASH by log 42, a choice of the model). -/
theorem bootStepsComplete : Obligations.BootStepsComplete := by
  unfold Obligations.BootStepsComplete
  intro s n d hl
  refine ⟨fun hrom huntrained => ⟨?trained, ?trainingFails⟩,
    fun hrom htrained => ⟨fun k hlow hhigh => ?readLegal, fun k hillegal => ?readIllegal, ?readNothing⟩,
    fun hmode img => ⟨?accepted, fun res hres => ?refused⟩, fun hmode hverified bad manifest => ?selfTest⟩
  case trained =>
    exact onLive_ends hl (by
      simp only [hrom, Nat.not_le.mpr huntrained, Bool.not_true, decide_false, Bool.or_self, Bool.false_eq_true, if_false, if_true])
  case trainingFails =>
    exact onLive_ends hl (by
      simp only [hrom, Nat.not_le.mpr huntrained, Bool.not_true, decide_false, Bool.or_self, Bool.false_eq_true, if_false])
  case readLegal =>
    exact onLive_ends hl (by
      simp only [hrom, htrained, hlow, hhigh, bne_self_eq_false, Bool.not_true, decide_true, Bool.and_self, Bool.or_self,
        Bool.false_eq_true, if_false, if_true])
  case readIllegal =>
    have hlength : (decide (4096 ≤ k) && decide (k ≤ 67108864)) = false := by
      rw [Bool.and_eq_false_iff, decide_eq_false_iff_not, decide_eq_false_iff_not]
      omega
    exact onLive_ends hl (by
      simp only [hrom, htrained, hlength, bne_self_eq_false, Bool.not_true, Bool.or_self, Bool.false_eq_true, if_false])
  case readNothing =>
    exact onLive_ends hl (by
      simp only [hrom, htrained, bne_self_eq_false, Bool.not_true, Bool.or_self, Bool.false_eq_true, if_false])
  case accepted =>
    exact onLive_ends hl (by simp only [hmode, bne_self_eq_false, Fin.val_zero, Bool.false_eq_true, if_false, if_true])
  case refused =>
    exact onLive_ends hl (by
      simp only [hmode, bne_self_eq_false, Fin.val_ne_zero_iff.mpr hres, Bool.false_eq_true, if_false])
  case selfTest =>
    exact onLive_ends hl (by simp only [hmode, hverified, bne_self_eq_false, Bool.or_self, Bool.false_eq_true, if_false])

/-- Settles O23: the phase of the die meets the guards of a cold reset, the state of SAFE and of the restart those of a fault
reset. -/
theorem resetsComplete : Obligations.ResetsComplete := by
  unfold Obligations.ResetsComplete
  refine ⟨fun s n d => ⟨?powerUp, fun hphase => ⟨?resetPin, ?aonBrownOut⟩, fun hticking => ?railBrownOut, fun hphase => ?coldRelease,
      fun hl harmed => ?wiped⟩,
    fun s n d => ⟨fun hl hsafe hdue hnone hlate hcalm => ?requested, fun code t hl hreq hlate => ?resets,
      fun hphase hcalm => ?release, fun e ok hl hwarm hflag hverifying => ?reverified⟩⟩
  case powerUp => exact onAny_ends rfl
  case resetPin => exact onAny_ends (by simp only [beq_eq_false_iff_ne.mpr hphase, Bool.false_eq_true, if_false])
  case aonBrownOut => exact onAny_ends (by simp only [beq_eq_false_iff_ne.mpr hphase, Bool.false_eq_true, if_false, if_true])
  case railBrownOut => exact onAny_ends (by simp only [hticking, Bool.false_eq_true, if_false, if_true])
  case coldRelease => exact onAny_ends (by simp only [hphase, bne_self_eq_false, Bool.false_eq_true, if_false])
  case wiped =>
    have hpending : (s.at_ n d).me.hbx.lcArmed.isNone = false := by rw [← Option.not_isSome, harmed]; rfl
    exact onLive_ends hl (by simp only [hpending, Bool.false_eq_true, if_false])
  case requested =>
    exact onLive_ends hl (by
      simp only [hsafe, hdue, hnone, hlate, hcalm, bne_self_eq_false, Bool.not_true, Option.isSome_none, Bool.or_self,
        Bool.false_eq_true, if_false])
  case resets => exact onLive_ends hl (by simp only [hreq, Nat.not_lt.mpr hlate, if_false])
  case release =>
    exact onAny_ends (by simp only [hphase, hcalm, bne_self_eq_false, Bool.not_true, Bool.or_self, Bool.false_eq_true, if_false])
  case reverified =>
    exact onLive_ends hl (by simp only [hwarm, hflag, hverifying, Bool.not_true, Bool.or_self, Bool.false_eq_true, if_false])

/-- Settles O25: whether the hub is up, its link and what the training gives meet the guards. -/
theorem hubAndLinkComplete : Obligations.HubAndLinkComplete := by
  unfold Obligations.HubAndLinkComplete
  intro s n
  refine ⟨fun hup => ⟨fun t ht => ?reset, ?thermalReset, fun hlink => ?linkDown, fun rate width => ?linkUp⟩,
    fun hdown hcool => ?hubReturns⟩
  case reset =>
    have hreset : exec (.hubReset n t) s = if s.hub.down then .next (s.elapse n) else .next (s.elapse n).hubCut := by
      cases t with
      | thermal => exact absurd rfl ht
      | _ => rfl
    rw [hreset, hup]; rfl
  case thermalReset => exact if_neg (Bool.eq_false_iff.mp hup)
  case linkDown =>
    have hguard : ((s.elapse n).hub.down || !((s.elapse n).side .a).hflag Reg.PCI_LINK_STAT 8) = false := by
      rw [State.hub_elapse, hup]
      exact congrArg not hlink
    exact if_neg (Bool.eq_false_iff.mp hguard)
  case linkUp =>
    intro cfg hok
    have hguard : ((s.elapse n).hub.down || !linkOk (linkRate cfg rate) (linkWidth cfg width)) = false := by
      rw [State.hub_elapse, hup, hok]; rfl
    exact if_neg (Bool.eq_false_iff.mp hguard)
  case hubReturns =>
    have hguard : (!(s.elapse n).hub.down || ((s.elapse n).hub.hot && decide ((s.elapse n).hub.cool < 1000))) = false := by
      rw [State.hub_elapse, hdown, Bool.not_true, Bool.false_or, Bool.and_eq_false_iff, decide_eq_false_iff_not, Nat.not_lt,
        ← Bool.not_eq_true]
      exact not_or_of_imp hcool
    exact if_neg (Bool.eq_false_iff.mp hguard)

end Sys2Proof.Machine
end

section
/-!
SUPPORT. The commands that FP-HOST completes or hands on, the rings and the register commands (R649, R653, R687 to R722, R852, R870).
-/

namespace Sys2Proof.Machine

/-- Settles O32: Rhordo takes the command; then the function it names, its ring configuration or its mapping decides. -/
theorem hostCommandsComplete : Obligations.HostCommandsComplete := by
  unfold Obligations.HostCommandsComplete
  intro s n d r c hl
  have htaken {op : Nat} {f : Cmd → Side → Side} {g : Side → Side} (h : (s.at_ n d).Takes r op c)
      (hg : f c (s.at_ n d) = g (s.at_ n d)) : onLive n d (fun x => x.hostCmd r op f) s = .next (s.ends n d g) :=
    onLive_ends hl ((Side.hostCmd_of_takes h f).trans hg)
  refine ⟨fun h => htaken h rfl, fun h => htaken h rfl,
    fun h => ⟨fun hbad => ?cfgNoFunction, fun hnot hle => ⟨fun hrcb => ?cfgNoBlock, fun b hrcb => ?cfgTaken⟩⟩,
    fun h => ⟨fun hbad => ?resetNoFunction, fun hle => ?reset⟩,
    fun h => ⟨fun hbad => ?mapNoFunction, fun hnot hle => ⟨fun hmap => ?mapRefused, fun hmap => ?mapped⟩⟩⟩
  case cfgNoFunction => exact htaken h (by simp only [Bool.or_eq_true, decide_eq_true_eq, hbad, if_true])
  case cfgNoBlock =>
    exact htaken h (by
      simp only [hnot, Nat.not_lt.mpr hle, hrcb, decide_false, Bool.or_self, Bool.false_eq_true, if_false])
  case cfgTaken =>
    exact htaken h (by
      simp only [hnot, Nat.not_lt.mpr hle, hrcb, decide_false, Bool.or_self, Bool.false_eq_true, if_false])
  case resetNoFunction => exact htaken h (if_pos hbad)
  case reset => exact htaken h (if_neg (Nat.not_lt.mpr hle))
  case mapNoFunction => exact htaken h (by simp only [Bool.or_eq_true, decide_eq_true_eq, hbad, if_true])
  case mapRefused =>
    exact htaken h (by
      simp only [hnot, Nat.not_lt.mpr hle, hmap, decide_false, Bool.or_self, Bool.false_eq_true, Bool.not_false, if_false, if_true])
  case mapped =>
    exact htaken h (by
      simp only [hnot, Nat.not_lt.mpr hle, hmap, decide_false, Bool.or_self, Bool.false_eq_true, Bool.not_true, if_false])

/-- Settles O33: Rhordo takes the command. An ABORT by where its target stands (its words are log 89, what commits in the same cycle
log 149, choices of the model); a REPLAY by the life-cycle state, its count and its stall. -/
theorem handedCommandsComplete : Obligations.HandedCommandsComplete := by
  unfold Obligations.HandedCommandsComplete
  intro s n d r c hl
  have htaken {op : Nat} {f : Cmd → Side → Side} {g : Side → Side} (h : (s.at_ n d).Takes r op c)
      (hg : f c (s.at_ n d) = g (s.at_ n d)) : onLive n d (fun x => x.hostCmd r op f) s = .next (s.ends n d g) :=
    onLive_ends hl ((Side.hostCmd_of_takes h f).trans hg)
  refine ⟨fun h => htaken h rfl, fun h => htaken h rfl, fun h => htaken h rfl,
    fun h => ⟨fun t hacc => ⟨fun hcommits => ?tooLate, fun hcommits => ⟨fun hmay => ?aborted, fun hnot => ?fixed⟩⟩,
      fun hacc => ⟨fun hdone => ?finished, fun hnotDone => ⟨fun hwaits => ?inRing, fun hunknown => ?unknown⟩⟩⟩,
    fun h hnew => ⟨fun hdev hret => ?wrongState, fun hlc hlow hhigh hruns hfixed => ?replay⟩⟩
  case tooLate => exact htaken h (by simp only [hacc, hcommits, if_true])
  case aborted => exact htaken h (by simp only [hacc, hcommits, hmay, Bool.false_eq_true, if_false, if_true])
  case fixed => exact htaken h (by simp only [hacc, hcommits, hnot, Bool.false_eq_true, if_false])
  case finished => exact htaken h (by simp only [hacc, hdone, if_true])
  case inRing => exact htaken h (by simp only [hacc, hnotDone, hwaits, Bool.false_eq_true, if_false, if_true])
  case unknown => exact htaken h (by simp only [hacc, hnotDone, hunknown, Bool.false_eq_true, if_false])
  case wrongState =>
    exact htaken h (by
      simp only [hnew, beq_eq_false_iff_ne.mpr hdev, beq_eq_false_iff_ne.mpr hret, Bool.or_self, Bool.not_false,
        Bool.false_eq_true, if_false, if_true])
  case replay =>
    have hstate : ((s.at_ n d).lc == 1 || (s.at_ n d).lc == 3) = true := by
      rw [Bool.or_eq_true, beq_iff_eq, beq_iff_eq]; exact hlc
    refine htaken h ?_
    by_cases hrefusal : (s.at_ n d).replayRefusal c.replayReq = 0
    · simp only [hnew, hstate, hruns, hfixed, hrefusal, Nat.one_le_iff_ne_zero.mp hlow, Nat.not_lt.mpr hhigh, bne_self_eq_false,
        Bool.not_true, decide_false, Bool.or_self, Bool.false_eq_true, if_false, if_true]
    · simp only [hnew, hstate, hruns, hfixed, bne_iff_ne.mpr hrefusal, hrefusal, Nat.one_le_iff_ne_zero.mp hlow,
        Nat.not_lt.mpr hhigh, bne_self_eq_false, Bool.not_true, decide_false, Bool.or_self, Bool.false_eq_true, if_false, if_true]

end Sys2Proof.Machine
end

section
/-!
SUPPORT. The register page of Rhordo, doorbells and acceptance (R687, R688, R704 to R706, R709).
-/

namespace Sys2Proof.Machine

section
variable {x : Side} {v : Word}

/-! ## The register page -/

/-- A write of a register of the hub leaves the command status as it is, unless it is a write of that. -/
theorem Side.hflag_hwr {a r : Reg} (h : r ≠ a) (i : Nat) : (x.hwr a v).hflag r i = x.hflag r i := by
  simp only [Side.hflag, Side.hrd_hwr, if_neg h]

/-- It leaves MODE as it is, unless it is a write of RM_STATE. -/
theorem Side.mode_hwr {a : Reg} (h : x.rm Reg.RM_STATE ≠ a) : (x.hwr a v).mode = x.mode := by
  show fld ((x.hwr a v).hrd (x.rm Reg.RM_STATE)) 3 0 = _
  rw [Side.hrd_hwr, if_neg h]; rfl

/-- Registers of the page are as far apart as they are without the channel's offset. -/
theorem Side.rm_ne {a b : Reg} (h : a ≠ b) : x.rm a ≠ x.rm b := fun e => h (Nat.add_right_cancel e)

/-- A register command that arrives while none is BUSY runs (R687, R688). -/
theorem Side.rmWrite_of_free (hfree : x.hflag (x.rm Reg.RM_CMD_STAT) 0 = false) (hon : x.mode ≠ 0) (hruns : x.mode ≠ 7) :
    x.rmWrite v = (x.hwr (x.rm Reg.RM_CMD) (v &&& 0xFF#32)).rmRun (fld v 7 0) := by
  have hmode := Side.mode_hwr (x := x) (v := v &&& 0xFF#32) (Side.rm_ne (b := Reg.RM_CMD) (by decide))
  simp only [Side.rmWrite, hfree, hon, hmode, hruns, decide_false, Bool.or_self, Bool.false_eq_true, if_false]

/-- In RESTARTING it is held, BUSY, until FP-HOST returns (R687). -/
theorem Side.rmWrite_of_restarting (hfree : x.hflag (x.rm Reg.RM_CMD_STAT) 0 = false) (hmode : x.mode = 7) :
    x.rmWrite v = (x.hwr (x.rm Reg.RM_CMD) (v &&& 0xFF#32)).hsetFlag (x.rm Reg.RM_CMD_STAT) 0 true := by
  have hon : x.mode ≠ 0 := by omega
  have hkept := (Side.mode_hwr (x := x) (v := v &&& 0xFF#32) (Side.rm_ne (b := Reg.RM_CMD) (by decide))).trans hmode
  simp only [Side.rmWrite, hfree, hon, hkept, decide_false, Bool.or_self, Bool.false_eq_true, if_false, if_true]
  rfl

/-- One that arrives while another is BUSY is ignored (R687). -/
theorem Side.rmWrite_of_busy (hbusy : x.hflag (x.rm Reg.RM_CMD_STAT) 0 = true) : x.rmWrite v = x := by
  simp only [Side.rmWrite, hbusy, Bool.true_or, if_true]

/-! ## Doorbells -/

/-- A ring that is not configured, or that holds no more than it has room for, is left alone, and so is every ring while FP-HOST
does not run (R705, R706). -/
theorem Side.checkRing_of_quiet {f k : Nat} (h : (x.fn f).ring k = none ∨ x.pairUp 0 = false ∨
    ∃ q, (x.fn f).ring k = some q ∧ x.ringFill f k ≤ 2 ^ q.log2) : x.checkRing f k = x := by
  unfold Side.checkRing
  split
  · rfl
  · next q hq =>
    refine if_neg ?_
    rw [Bool.and_eq_true, Bool.and_eq_true, decide_eq_true_eq]
    rintro ⟨⟨hup, -⟩, hover⟩
    rcases h with h | h | ⟨r, hr, hfill⟩
    · exact nomatch h.symm.trans hq
    · exact nomatch h.symm.trans hup
    · cases hr.symm.trans hq; omega

/-- One that holds more enters ERROR (R706). -/
theorem Side.checkRing_of_over {f k : Nat} {q : RingDesc} (hq : (x.fn f).ring k = some q) (hup : x.pairUp 0 = true)
    (herr : (x.fn f).err.contains k = false) (hover : 2 ^ q.log2 < x.ringFill f k) : x.checkRing f k = x.ringError f k := by
  simp only [Side.checkRing, hq, hup, herr, hover, Bool.not_false, decide_true, Bool.and_self, if_true]

end

/-- Settles O34: a register command by BUSY and MODE, an entry by the guards of its acceptance, a doorbell by the state of its
function and then by its ring. -/
theorem ringsComplete : Obligations.RingsComplete := by
  unfold Obligations.RingsComplete
  intro s n d
  refine ⟨fun hl hfree hon hruns => ⟨fun len => ?loadImage, fun off => ?enterRing, ?query, ?leaveRing⟩,
    fun hl hbusy => ⟨?queryIgnored, ?leaveIgnored⟩, fun hl hfree hmode => ?held,
    fun fn k q hl hmode hup hlink hrest hroom hnext hring hext => ?accepted,
    fun fn k v hreach => ⟨fun hreset => ?dropped, fun hrest => ⟨fun hring => ?latched, fun hpair => ?waits,
      fun q hring => ⟨fun hfill => ?fits, fun hlive hpair herr hover => ?overflows⟩⟩⟩⟩
  case loadImage =>
    refine onLive_ends hl (Side.rmWrite_of_free ?_ ?_ ?_)
    · exact (Side.hflag_hwr (Side.rm_ne (by decide)) 0).trans hfree
    · exact fun e => hon ((Side.mode_hwr (Side.rm_ne (by decide))).symm.trans e)
    · exact fun e => hruns ((Side.mode_hwr (Side.rm_ne (by decide))).symm.trans e)
  case enterRing =>
    have hhi : Reg.hi ((s.at_ n d).rm Reg.RM_ARG) = (s.at_ n d).rm 0xC00024 := Nat.add_right_comm _ _ _
    have hmode : ((s.at_ n d).hwr64 ((s.at_ n d).rm Reg.RM_ARG) off).mode = (s.at_ n d).mode := by
      rw [Side.hwr64, hhi]
      exact (Side.mode_hwr (Side.rm_ne (by decide))).trans (Side.mode_hwr (Side.rm_ne (by decide)))
    refine onLive_ends hl (Side.rmWrite_of_free ?_ (hmode ▸ hon) (hmode ▸ hruns))
    rw [Side.hwr64, hhi]
    exact ((Side.hflag_hwr (Side.rm_ne (by decide)) 0).trans (Side.hflag_hwr (Side.rm_ne (by decide)) 0)).trans hfree
  case query => exact onLive_ends hl (Side.rmWrite_of_free hfree hon hruns)
  case leaveRing => exact onLive_ends hl (Side.rmWrite_of_free hfree hon hruns)
  case queryIgnored => exact onLive_ends hl (Side.rmWrite_of_busy hbusy)
  case leaveIgnored => exact onLive_ends hl (Side.rmWrite_of_busy hbusy)
  case held => exact onLive_ends hl (Side.rmWrite_of_restarting hfree hmode)
  case accepted =>
    refine onLive_ends hl ?_
    simp only [hmode, hup, hlink, hrest, hroom, hnext, hring, bne_self_eq_false, Bool.not_true, Bool.or_self, Bool.false_eq_true,
      if_false]
    refine if_neg ?_
    rw [Bool.and_eq_true, decide_eq_true_eq, not_and, Nat.not_lt]
    exact hext
  case dropped =>
    exact onAny_ends (by simp only [hreach, bne_iff_ne.mpr hreset, Bool.not_true, Bool.false_eq_true, if_false, if_true])
  all_goals
    refine onAny_ends ?_
    simp only [hreach, hrest, bne_self_eq_false, Bool.not_true, Bool.false_eq_true, if_false]
  case latched => rw [Side.checkRing_of_quiet (.inl hring), ite_self]
  case waits => rw [Side.checkRing_of_quiet (.inr (.inl hpair)), ite_self]
  case fits => rw [Side.checkRing_of_quiet (.inr (.inr ⟨q, hring, hfill⟩)), ite_self]
  case overflows => exact (if_pos hlive).trans (Side.checkRing_of_over hring hpair herr hover)

end Sys2Proof.Machine
end

section
/-!
SUPPORT. Instance resets, and the traffic between the channels (R653 to R660, R673 to R680).
-/

namespace Sys2Proof.Machine

/-- Settles O36: each trigger by its function, the hub and the write that it is; the later phases by the state of the reset. -/
theorem instanceResetsComplete : Obligations.InstanceResetsComplete := by
  unfold Obligations.InstanceResetsComplete
  intro s n d fn
  refine ⟨fun hup => ⟨fun hfn => ?virtual, ?physical⟩, fun w v hmay => ⟨fun hv => ?byWrite, fun hv => ?modeOnly⟩,
    fun hdrains hlong => ?squashed, fun hdrains hempty => ?cleansUp, fun hl hstate hpair hup => ?ended⟩
  case virtual =>
    exact onAny_ends (by simp only [State.at_hub, hup, Fin.val_ne_zero_iff.mpr hfn, Bool.false_eq_true, if_false])
  case physical => exact onAny_ends (by simp only [State.at_hub, hup, State.at_d, Fin.val_zero, Bool.false_eq_true, if_false, if_true])
  case byWrite => exact onHubReg_ends hmay (by simp only [hv, if_true])
  case modeOnly => exact onHubReg_ends hmay (by simp only [hv, Bool.false_eq_true, if_false])
  case squashed => exact onAny_ends (by simp only [hdrains, hlong, decide_true, Bool.and_self, if_true])
  case cleansUp => exact onAny_ends (by simp only [hdrains, hempty, decide_true, Bool.and_self, if_true])
  case ended =>
    exact onLive_ends hl (by
      simp only [hstate, hpair, State.at_hub, hup, decide_true, Bool.not_false, Bool.and_self, if_true])

/-- A message that FP-HOST or FP-SAFE sends while the peer traffic runs is under way, unless the lane is full (R677, R678). -/
theorem execMailboxSend_of_sender {s : State} {n : Now} {d : Ch} {p : Fin 4} {v : Word} (hl : (s.at_ n d).live = true)
    (hp : p = 0 ∨ p = 2) (hv : bit v 0 = true) (hup : s.hub.down = false) (hlink : s.hub.linkLost = false)
    (hpermits : (s.at_ n d).hpermits (.pair p) (peerReg Reg.MB_SEND 4 d) = true) :
    execMailboxSend n d (.pair p) v s =
      if (s.hub.lane d.peer).full then .next ((s.elapse n).hubCount Ct.PEER_MB_QUEUE_FULL 0)
      else .next ((s.elapse n).lane d.peer fun q => { q with flight := q.flight ++
        [((List.range 16).map fun k => s.hreg (peerReg Reg.MB_TX 0x40 d + 4 * k), (s.at_ n d).stamp.valid)] }) := by
  have hlive : ((s.elapse n).side d).live = true := hl
  have hsends : ((s.elapse n).side d).maySend (.pair p) (peerReg Reg.MB_SEND 4 d) = true := by
    rw [Side.maySend, show ((s.elapse n).side d).hpermits (.pair p) _ = true from hpermits]
    rcases hp with rfl | rfl <;> rfl
  simp only [execMailboxSend, hlive, hsends, State.side_hub, State.hub_elapse, Hub.peerCut, hup, hlink, hv, Bool.not_true,
    Bool.or_self, Bool.false_eq_true, if_false]
  rfl

/-- Settles O37: a heartbeat by its period, the oldest one sent and the watch; a message by who sends it, whether the lane is full
and whether it is discarded. -/
theorem peerTrafficComplete : Obligations.PeerTrafficComplete := by
  unfold Obligations.PeerTrafficComplete
  intro s n d hl
  have hlive : ((s.elapse n).side d).live = true := hl
  refine ⟨fun hdue => ?sent, fun b t hbeats => ?received, fun hover => ⟨fun hgot => ?seen, fun hgot => ?missed⟩,
    fun hnot => ?periodRuns, fun p v hp hv hup hlink hpermits => ⟨fun hroom => ?inFlight, fun hfull => ?queueFull⟩,
    fun m valid t hflight => ⟨fun hbad => ?discarded, fun hsound htimely => ?queued⟩, fun w v hmay hv => ?popped⟩
  case sent => exact onLive_ends hl (if_pos hdue)
  case received =>
    show execHeartbeatReceived n d s = _
    simp only [execHeartbeatReceived, State.hub_elapse, hbeats, hlive, if_true]
  case seen =>
    have hwatch : ((s.elapse n).side d).watchOver = true := hover
    have hbeat : ((s.elapse n).side d).me.safe.hbGot = true := hgot
    show execHeartbeatPeriodMiss n d s = _
    simp only [execHeartbeatPeriodMiss, hlive, hwatch, hbeat, Bool.not_true, Bool.or_self, Bool.false_eq_true, if_false, if_true]
    rfl
  case missed =>
    have hwatch : ((s.elapse n).side d).watchOver = true := hover
    have hbeat : ((s.elapse n).side d).me.safe.hbGot = false := hgot
    show execHeartbeatPeriodMiss n d s = _
    simp only [execHeartbeatPeriodMiss, hlive, hwatch, hbeat, Bool.not_true, Bool.or_self, Bool.false_eq_true, if_false]
    rfl
  case periodRuns =>
    have hwatch : ((s.elapse n).side d).watchOver = false := hnot
    show execHeartbeatPeriodMiss n d s = _
    simp only [execHeartbeatPeriodMiss, hlive, hwatch, Bool.not_true, Bool.not_false, Bool.or_true, if_true]
  case inFlight =>
    refine (execMailboxSend_of_sender hl hp hv hup hlink hpermits).trans ?_
    simp only [hroom, Bool.false_eq_true, if_false]
  case queueFull =>
    refine (execMailboxSend_of_sender hl hp hv hup hlink hpermits).trans ?_
    simp only [hfull, if_true]
  case discarded =>
    have hdrop : (malformed m || ((s.elapse n).side d).untimely m valid) = true := by rwa [Bool.or_eq_true]
    show execMailboxReceive n d s = _
    simp only [execMailboxReceive, State.hub_elapse, hflight, hlive, hdrop, Bool.not_true, Bool.false_eq_true, if_false, if_true]
  case queued =>
    have hkeep : (malformed m || ((s.elapse n).side d).untimely m valid) = false := by
      rw [Bool.or_eq_false_iff]; exact ⟨hsound, htimely⟩
    show execMailboxReceive n d s = _
    simp only [execMailboxReceive, State.hub_elapse, hflight, hlive, hkeep, Bool.not_true, Bool.false_eq_true, if_false]
  case popped => exact onHubReg_ends hmay (if_pos hv)

end Sys2Proof.Machine
end

section
/-!
SUPPORT. The glove pairs, the SAFE page, the fault messages and the online self-test (R723, R724, R730 to R770, R801).
-/

namespace Sys2Proof.Machine

/-- Settles O38: whether the pair runs, its STATE and whether debug is open meet the guards; the cause of a crash gives its code
(the watchdog runs from the pair's return by log 35, a choice of the model). -/
theorem glovePairsComplete : Obligations.GlovePairsComplete := by
  unfold Obligations.GlovePairsComplete
  intro s n d p hl
  have hready (hrestarting : (s.at_ n d).field (Reg.GLV_STAT.inst p) 1 0 = 3) (hfree : ((s.at_ n d).pair p).hbxHalt = false) :
      (decide ((s.at_ n d).field (Reg.GLV_STAT.inst p) 1 0 = 3) && !((s.at_ n d).pair p).hbxHalt) = true := by
    rw [hrestarting, hfree]; rfl
  refine ⟨fun hup => ⟨?exception, ?parity, fun hlate => ?watchdog, ?lockup, fun port => ?mismatch⟩, fun htesting m c => ?tested,
    fun hrestarting hfree => ⟨fun hp => ?hostReturns, fun hp => ?otherReturns⟩, fun hopen => ⟨?attach, ?halt, ?resume⟩,
    fun hclosed a ha => ?denied, fun hlc => ?hatboxDenied⟩
  case exception | parity | lockup => exact onLive_ends hl (if_pos hup)
  case watchdog => exact onLive_ends hl (by simp only [hup, hlate, decide_true, Bool.and_self, if_true])
  case mismatch => exact onLive_ends hl (by simp only [hup, Bool.not_true, Bool.false_eq_true, if_false])
  case tested => exact onLive_ends hl (by simp only [htesting, bne_self_eq_false, Bool.false_eq_true, if_false])
  case hostReturns => exact onLive_ends hl ((if_pos (hready hrestarting hfree)).trans (if_pos hp))
  case otherReturns => exact onLive_ends hl ((if_pos (hready hrestarting hfree)).trans (if_neg hp))
  case attach | halt | resume => exact onLive_ends hl (if_pos hopen)
  case denied =>
    cases a with
    | hatbox => exact absurd rfl ha
    | attach | halt | resume | other => exact onLive_ends hl (by simp only [hclosed, Bool.false_eq_true, if_false])
  case hatboxDenied => exact onLive_ends hl (if_neg hlc)

/-- Settles O39: WORLD and LOCK let the write pass; then the bit written and the safe state decide. -/
theorem safePageComplete : Obligations.SafePageComplete := by
  unfold Obligations.SafePageComplete
  intro s n d w v hl
  refine ⟨fun hmay hbit hinit => ?ready, fun hmay => ?enter, fun hmay hbit hsafe => ⟨fun hcan => ?release, fun hcan => ?refused⟩,
    fun hmay hbit => ?kick, fun hrule hlate => ?kickMissed, fun hsafe hlasts => ?lasts⟩
  case ready =>
    exact onLive_ends hl ((Side.access_of_may hmay _).trans (by simp only [hbit, hinit, beq_self_eq_true, Bool.and_self, if_true]))
  case enter =>
    exact onLive_ends hl ((Side.access_of_may hmay _).trans (by simp only [Bool.or_eq_true, decide_eq_true_eq, gt_iff_lt]))
  case release =>
    exact onLive_ends hl ((Side.access_of_may hmay _).trans (by
      simp only [hbit, hsafe, hcan, Bool.not_true, bne_self_eq_false, Bool.or_self, Bool.false_eq_true, if_false, if_true]))
  case refused =>
    exact onLive_ends hl ((Side.access_of_may hmay _).trans (by
      simp only [hbit, hsafe, hcan, Bool.not_true, bne_self_eq_false, Bool.or_self, Bool.false_eq_true, if_false]))
  case kick => exact onLive_ends hl ((Side.access_of_may hmay _).trans (by simp only [hbit, if_true]))
  case kickMissed => exact onLive_ends hl (by simp only [hrule, hlate, Bool.and_self, if_true])
  case lasts => exact onLive_ends hl (by simp only [hsafe, hlasts, decide_true, Bool.and_self, if_true])

/-- A message toward the other channel goes to the end of that channel's lane. -/
theorem Hub.lane_modLane_same (h : Hub) (d : Ch) (f : PeerLane → PeerLane) : (h.modLane d f).lane d = f (h.lane d) := by
  cases d <;> rfl

/-- A message that the mailbox takes stands last in the lane toward the other channel. -/
theorem Side.flight_sendMessage_mailbox (x : Side) (m : FaultMsg) :
    ((x.sendMessage .mailbox m).hub.lane x.d.peer).flight =
      (x.hub.lane x.d.peer).flight ++ [(mailboxWords 1 x.me.safe.msgSeq x.vt m.words, x.stamp.valid)] :=
  congrArg PeerLane.flight (Hub.lane_modLane_same x.hub x.d.peer _)

/-- A message that Ethernet takes is shown with its publish context. -/
theorem Side.out_sendMessage_eth (x : Side) (m : FaultMsg) :
    (x.sendMessage .eth m).me.out = .faultMsg (x.field Reg.SAFE_MSG_CFG 7 0) m.words :: x.me.out := rfl

/-- The time left for a slice is short when FP-SAFE allows less, no window is open, or the window ends sooner. -/
theorem Side.sliceLeft_lt {x : Side} {u : TestUnit} {left : Nat}
    (h : left < 40338 ∨ x.sliceWindow u = none ∨ ∃ k < 40338, x.sliceWindow u = some k) : x.sliceLeft u left < 40338 := by
  rw [Side.sliceLeft, min_lt_iff]
  rcases h with hleft | hnone | ⟨k, hk, hwindow⟩
  · exact .inl hleft
  · rw [hnone]; exact .inr (by decide)
  · rw [hwindow]; exact .inr hk

/-- Settles O40: whether the exit takes the message decides; what each exit does with it; the time left in the unit's window, its
fence and the slices that run decide a slice. -/
theorem messagesAndSelfTestComplete : Obligations.MessagesAndSelfTestComplete := by
  unfold Obligations.MessagesAndSelfTestComplete
  intro s n d hl
  refine ⟨fun e m l hm => ⟨fun hopen => ?leaves, fun hclosed => ?waits⟩, fun m => ⟨?can, ?mailbox, ?eth⟩,
    fun u left => ⟨fun hshort => ?skipped, fun k hleft hk hwindow hfree hidle => ?starts⟩, fun u pass hruns => ?sliceEnds,
    fun hover => ?periodEnds⟩
  case leaves => exact onLive_ends hl (by simp only [hm, hopen, if_true])
  case waits => exact onLive_ends hl (by simp only [hm, hclosed, Bool.false_eq_true, if_false, id])
  case can => rfl
  case mailbox => exact Side.flight_sendMessage_mailbox (s.at_ n d) m
  case eth => exact Side.out_sendMessage_eth _ m
  case skipped => exact onLive_ends hl (if_pos (Side.sliceLeft_lt hshort))
  case starts =>
    have hlong : ¬(s.at_ n d).sliceLeft u left < 40338 := by
      rw [Side.sliceLeft, hwindow, Option.getD_some, not_lt]
      exact le_min hleft hk
    exact onLive_ends hl (by simp only [hlong, hfree, hidle, Bool.or_self, Bool.false_eq_true, if_false])
  case sliceEnds => exact onLive_ends hl (by simp only [hruns, Bool.not_true, Bool.false_eq_true, if_false])
  case periodEnds => exact onLive_ends hl (by simp only [hover, Bool.not_true, Bool.false_eq_true, if_false])

end Sys2Proof.Machine
end

section
/-!
SUPPORT. Power requests, domains and claims (R815 to R823), thermal polls and clocks (R831 to R839).
-/

namespace Sys2Proof.Machine

/-- Settles O26: WORLD and LOCK let a request pass; the domains that rise or quiesce, the Hatbox's domain and the age of the claim
meet the other guards. -/
theorem powerDomainsComplete : Obligations.PowerDomainsComplete := by
  unfold Obligations.PowerDomainsComplete
  intro s n d dom hl
  refine ⟨fun w hmay => ⟨?on, ?off⟩, fun hrising hparents => ?risen, fun hfalling hquiet => ?goesOff, fun claim hsec => ?claim,
    fun q t hreq hlate => ?refused⟩
  case on | off => exact onLive_ends hl (Side.access_of_may hmay _)
  case risen =>
    have hready : ((parents dom).any fun p => !(s.at_ n d).domOn p) = false := by
      rw [List.any_eq_false]
      intro p hp
      rw [hparents p hp]; decide
    exact onLive_ends hl (by simp only [hrising, hready, Bool.not_true, Bool.or_self, Bool.false_eq_true, if_false])
  case goesOff =>
    have hall : ((domainPages dom).all fun p => (s.at_ n d).quiesced p.1 p.2) = true := List.all_eq_true.mpr hquiet
    exact onLive_ends hl (by simp only [hfalling, hall, Bool.and_self, if_true])
  case claim => exact onLive_ends hl (by simp only [hsec, Bool.not_true, Bool.false_eq_true, if_false])
  case refused => exact onLive_ends hl (by simp only [hreq, hlate, if_true])

/-- Settles O27: whether there is a reading, whether the die is in reset and the state of the reference meet the guards (that a
grandmaster's base is LOCKED again at the return of the reference is log 141, a choice of the model). -/
theorem thermalAndClocksComplete : Obligations.ThermalAndClocksComplete := by
  unfold Obligations.ThermalAndClocksComplete
  intro s n d
  refine ⟨fun temps htemps => ⟨?pollHub, fun hticking => ?pollDie⟩, fun hlost => ?refReturns,
    fun hl => ⟨fun hstage => ?alternates, fun c dev locked => ⟨fun hfault => ?clockFault, fun hdev hlocked => ?clockSound⟩,
      fun hthere hticking => ?refLost⟩⟩
  case pollHub =>
    exact if_neg (by rwa [List.isEmpty_iff])
  case pollDie =>
    refine (if_neg (by rwa [List.isEmpty_iff])).trans ((if_neg Bool.false_ne_true).trans (onAny_ends ?_))
    simp only [hticking, if_true]
  case refReturns => exact onAny_ends (by simp only [hlost, Bool.not_true, Bool.false_eq_true, if_false])
  case alternates => exact onLive_ends hl (if_pos hstage)
  case clockFault =>
    have hbad : (decide (100 < dev.natAbs) || !locked) = true := by
      rwa [Bool.or_eq_true, decide_eq_true_eq, Bool.not_eq_true']
    exact onLive_ends hl (if_pos hbad)
  case clockSound =>
    have hgood : ¬(decide (100 < dev.natAbs) || !locked) = true := by
      rw [hlocked, Bool.not_true, Bool.or_false, decide_eq_true_eq, not_lt]
      exact hdev
    exact onLive_ends hl (if_neg hgood)
  case refLost => exact onAny_ends (by simp only [hthere, hticking, Bool.not_true, Bool.or_self, Bool.false_eq_true, if_false])

end Sys2Proof.Machine
end

section
/-!
SUPPORT. The Hatbox: its doorbell, the requests it works on, its entropy source, crash and restart (R778 to R818).
-/

namespace Sys2Proof.Machine

/-- Settles O43: the Hatbox works on the request; otherwise the bit rung, the answer, and whether the Hatbox restarts decide. -/
theorem hatboxComplete : Obligations.HatboxComplete := by
  unfold Obligations.HatboxComplete
  intro s n d p hl
  have hworks {code : Nat} {f : Side → Side} (h : (s.at_ n d).Serves p code) :
      onLive n d (fun x => x.serve p code f) s = .next (s.ends n d f) := onLive_ends hl (Side.serve_of_serves h f)
  refine ⟨fun v hsec hbit => ?rung, fun sig => ⟨hworks, hworks, hworks, hworks⟩, hworks, fun h ok => hworks h, hworks, hworks,
    fun rest hwaiting hbusy hup => ⟨fun st res data hans => ?answered, fun hans hbad => ?refused⟩, ?rngFails, ?entropyReady,
    fun hup => ?crash, fun hdown => ⟨fun hidle => ?returnsIdle, fun q rest hbusy hwaiting => ?returnsBusy⟩⟩
  case rung => exact onLive_ends hl (by simp only [hsec, hbit, Bool.and_self, if_true])
  case answered =>
    exact onLive_ends hl (by
      simp only [hwaiting, hbusy, hup, hans, Bool.not_true, Bool.or_self, Bool.false_eq_true, if_false])
  case refused =>
    exact onLive_ends hl (by
      simp only [hwaiting, hbusy, hup, hans, hbad, Bool.not_true, Bool.or_self, Bool.false_eq_true, if_false])
  case rngFails | entropyReady => exact onLive_ends hl rfl
  case crash => exact onLive_ends hl (by simp only [hup, Bool.false_eq_true, if_false])
  case returnsIdle => exact onLive_ends hl (by simp only [hdown, hidle, Bool.not_true, Bool.false_eq_true, if_false])
  case returnsBusy => exact onLive_ends hl (by simp only [hdown, hbusy, hwaiting, Bool.not_true, Bool.false_eq_true, if_false])

end Sys2Proof.Machine
end

section
/-!
SUPPORT. What an event leaves in the registers (R876 to R885): bits of EVT_RAW and CNT_OVF that are set stay set, counters only
grow, and beside the counter that counts only those of deliveries do; what it leaves in the recorder (R848).
-/

namespace Sys2Proof.Machine

/-! ## Bits and words -/

/-- Setting a bit sets it and keeps the others. -/
theorem bit_setBit_true (w : Word) (i k : Nat) : bit (setBit w i true) k = (bit w k || decide (k = i ∧ i < 32)) := by
  have hmask : word (2 ^ (i + 1 - i) - 1) = 1#32 := by rw [Nat.add_sub_cancel_left]; rfl
  have hone : word (1 % 2 ^ (i + 1 - i)) = 1#32 := by rw [Nat.add_sub_cancel_left]; rfl
  simp only [bit, setBit, setFld, if_true, hmask, hone, BitVec.getLsbD_or, BitVec.getLsbD_and, BitVec.getLsbD_not,
    BitVec.getLsbD_shiftLeft, BitVec.getLsbD_one]
  by_cases hk : k = i
  · subst hk
    by_cases h32 : k < 32
    · simp [h32]
    · simp [h32, BitVec.getLsbD_of_ge w k (by omega)]
  · by_cases h32 : k < 32
    · have hne : k < i ∨ k - i ≠ 0 := by omega
      rcases hne with h | h <;> simp [h32, hk, h]
    · simp [h32, hk, BitVec.getLsbD_of_ge w k (by omega)]

theorem bit_setBit_same (w : Word) {i : Nat} (h : i < 32) : bit (setBit w i true) i = true := by
  rw [bit_setBit_true]; simp [h]

/-- The next count of a word that is not the greatest. -/
theorem toNat_word_succ {k : Nat} (h : k < 0xFFFFFFFF) : (word (k + 1)).toNat = k + 1 := by
  rw [word, BitVec.toNat_ofNat, Nat.mod_eq_of_lt (by omega)]

/-- CNT_SAT is one of the 32 events of a page. -/
theorem cntSatBit_lt (t : Nat) : cntSatBit t < 32 := by
  unfold cntSatBit; split <;> decide

/-! ## Registers that grow -/

/-- The counters that deliveries move: those of EVA for the three destinations and the pin. -/
abbrev deliveryCts : List Ct := [Ct.EVA_DELIVERED_HOST, Ct.EVA_DELIVERED_FW, Ct.EVA_DELIVERED_SAFE, Ct.EVA_PIN_TRIGGERS]

/-- The register of one of them, on the die and on the hub alike. -/
def DeliveryCount (a : Nat) : Prop := ∃ c ∈ deliveryCts, a = c.reg.inst 0

/-- Registers r become s: below the counters bits that are set stay set; counters do not fall, and only those of `moved` move. -/
structure RegsGrow (moved : Nat → Prop) (r s : Reg → Word) : Prop where
  bits : ∀ a, a % 0x1000 < 0xF00 → ∀ b, bit (r a) b = true → bit (s a) b = true
  counts : ∀ a, 0xF00 ≤ a % 0x1000 → (r a).toNat ≤ (s a).toNat
  fixed : ∀ a, 0xF00 ≤ a % 0x1000 → ¬moved a → s a = r a

namespace RegsGrow
variable {moved : Nat → Prop} {q r s : Reg → Word}

theorem refl (r : Reg → Word) : RegsGrow moved r r := ⟨fun _ _ _ h => h, fun _ _ => le_rfl, fun _ _ _ => rfl⟩

theorem trans (h : RegsGrow moved q r) (k : RegsGrow moved r s) : RegsGrow moved q s where
  bits := fun a ha b hb => k.bits a ha b (h.bits a ha b hb)
  counts := fun a ha => (h.counts a ha).trans (k.counts a ha)
  fixed := fun a ha hm => (k.fixed a ha hm).trans (h.fixed a ha hm)

/-- A bit below the counters is set. -/
theorem of_setBit {p : Nat} (b : Nat) (hp : p % 0x1000 < 0xF00) (hs : ∀ a, s a = if a = p then setBit (r p) b true else r a) :
    RegsGrow moved r s where
  bits := fun a _ k hk => by
    rw [hs]; split
    · subst_vars; rw [bit_setBit_true, hk, Bool.true_or]
    · exact hk
  counts := fun a ha => by rw [hs, if_neg fun e : a = p => Nat.not_lt.mpr ha (e ▸ hp)]
  fixed := fun a ha _ => by rw [hs, if_neg fun e : a = p => Nat.not_lt.mpr ha (e ▸ hp)]

/-- A counter below its maximum counts. -/
theorem of_count {p : Nat} (hp : 0xF00 ≤ p % 0x1000) (hmoved : moved p) (hmax : (r p).toNat < 0xFFFFFFFF)
    (hs : ∀ a, s a = if a = p then word ((r p).toNat + 1) else r a) : RegsGrow moved r s where
  bits := fun a ha _ hk => by rw [hs, if_neg fun e : a = p => Nat.not_lt.mpr hp (e ▸ ha)]; exact hk
  counts := fun a _ => by
    rw [hs]; split
    · subst_vars; rw [toNat_word_succ hmax]; exact Nat.le_succ _
    · exact le_rfl
  fixed := fun a _ hm => by rw [hs, if_neg fun e : a = p => hm (e ▸ hmoved)]

/-- A counter that holds the greatest word keeps it. -/
theorem count_eq_of_max (h : RegsGrow moved r s) {a : Nat} (ha : 0xF00 ≤ a % 0x1000) (hmax : 0xFFFFFFFF ≤ (r a).toNat) : s a = r a :=
  BitVec.eq_of_toNat_eq (by have := h.counts a ha; have := (s a).isLt; omega)

end RegsGrow

/-- y holds in its recorder what x does, with records of delivered events alone behind those that wait (R848). -/
def Side.RecordsEvents (x y : Side) : Prop :=
  ∃ l, y.me.recorder = { x.me.recorder with queue := x.me.recorder.queue ++ l } ∧ ∀ q ∈ l, q.typ = 0x09

theorem Side.RecordsEvents.trans {x y z : Side} (h : x.RecordsEvents y) (k : y.RecordsEvents z) : x.RecordsEvents z := by
  obtain ⟨l, hl, htyp⟩ := h
  obtain ⟨m, hm, htyp'⟩ := k
  exact ⟨l ++ m, by rw [hm, hl, List.append_assoc], fun q hq => (List.mem_append.mp hq).elim (htyp q) (htyp' q)⟩

theorem Side.RecordsEvents.of_eq {x y : Side} (h : y.me.recorder = x.me.recorder) : x.RecordsEvents y :=
  ⟨[], by rw [h, List.append_nil], fun _ hq => absurd hq List.not_mem_nil⟩

/-- y differs from x, in its registers and in the recorder, only by what events leave there. -/
structure Side.Tells (x y : Side) : Prop where
  d : y.d = x.d
  rd : RegsGrow DeliveryCount x.rd y.rd
  hrd : RegsGrow (fun a => DeliveryCount a ∨ a = x.rm Reg.RM_EQ_DROPPED) x.hrd y.hrd
  recorder : x.RecordsEvents y

namespace Side.Tells
variable {x y z : Side}

/-- A change of neither the registers nor the recorder. -/
theorem of_rings (hd : y.d = x.d) (hregs : y.me.regs = x.me.regs) (hhub : y.hub.regs = x.hub.regs)
    (hrec : y.me.recorder = x.me.recorder) : x.Tells y where
  d := hd
  rd := by rw [show y.rd = x.rd from funext fun a => by simp only [Side.rd, hd, hregs]]; exact .refl _
  hrd := by rw [show y.hrd = x.hrd from funext fun a => by simp only [Side.hrd, hhub]]; exact .refl _
  recorder := .of_eq hrec

theorem refl (x : Side) : x.Tells x := .of_rings rfl rfl rfl rfl

theorem trans (h : x.Tells y) (k : y.Tells z) : x.Tells z where
  d := k.d.trans h.d
  rd := h.rd.trans k.rd
  hrd := h.hrd.trans (by
    have e := k.hrd
    rwa [show y.rm Reg.RM_EQ_DROPPED = x.rm Reg.RM_EQ_DROPPED by rw [Side.rm, Side.rm, h.d]] at e)
  recorder := h.recorder.trans k.recorder

/-- A bit of EVT_RAW or of CNT_OVF is set on the die. -/
theorem of_wr_setBit (x : Side) {r : Reg} (b : Nat) (hr : r % 0x1000 < 0xF00) : x.Tells (x.wr r (setBit (x.rd r) b true)) where
  d := rfl
  rd := .of_setBit b hr fun a => Side.rd_wr x r a _
  hrd := .refl _
  recorder := (refl x).recorder

/-- The same on the hub. -/
theorem of_hwr_setBit (x : Side) {r : Reg} (b : Nat) (hr : r % 0x1000 < 0xF00) : x.Tells (x.hwr r (setBit (x.hrd r) b true)) where
  d := rfl
  rd := .refl _
  hrd := .of_setBit b hr fun a => Side.hrd_hwr x r a _
  recorder := (refl x).recorder

end Side.Tells

/-! ## The operations -/

/-- The place of a counter in its page, its page number taken as an address. -/
theorem ctReg_eq (c : Ct) (i : Nat) : c.reg.inst i = headReg c.t i (0xF00 + 4 * c.n) := by
  show c.t * 0x40000 + 0xF00 + 4 * c.n + 0x1000 * i = c.t * 0x40000 + 0x1000 * i + (0xF00 + 4 * c.n)
  omega

/-- Of the 32 counters of a page all lie from 0xF00 on. -/
theorem ctReg_offset (c : Ct) (i : Nat) (h : c.n < 32) : 0xF00 ≤ (c.reg.inst i : Nat) % 0x1000 := by
  rw [ctReg_eq, headReg_offset (show 0xF00 + 4 * c.n < 0x1000 by omega)]; exact Nat.le_add_right _ _

/-- CNT_OVF and EVT_RAW lie below the counters. -/
theorem ovf_offset (t i : Nat) : (headReg t i Reg.CNT_OVF : Nat) % 0x1000 < 0xF00 := by
  rw [headReg_offset (by decide)]; decide

theorem raw_offset (t i : Nat) : (headReg t i Reg.EVT_RAW : Nat) % 0x1000 < 0xF00 := by
  rw [headReg_offset (by decide)]; decide

/-- A register of the channel's page of Rhordo has its place in the page. -/
theorem Side.rm_offset (x : Side) (r : Reg) : (x.rm r : Nat) % 0x1000 = r % 0x1000 := Nat.add_mul_mod_self_left r 0x1000 x.d.die

theorem Side.record_tells (x : Side) (stall : Nat) (body : List Word) : x.Tells (x.record 0x09 stall body) := by
  unfold Side.record; split
  · exact ⟨rfl, .refl _, .refl _, [_], rfl, fun q hq => by rw [List.mem_singleton.mp hq]⟩
  · exact .refl x

theorem Side.msix_tells (x : Side) (f v : Nat) : x.Tells (x.msix f v) := by
  unfold Side.msix; dsimp only; split
  · exact .refl x
  · split <;> exact .of_rings rfl rfl rfl rfl

theorem Side.loftPutW_tells (x : Side) (a : Nat) (l : List Word) : x.Tells (x.loftPutW a l) := .of_rings rfl rfl rfl rfl

theorem Side.modFn_tells (x : Side) (f : Nat) (g : FnSt → FnSt) : x.Tells (x.modFn f g) := .of_rings rfl rfl rfl rfl

theorem Side.emit_tells (x : Side) (o : Output) : x.Tells (x.emit o) := .of_rings rfl rfl rfl rfl

theorem Side.fireEv_tells (x : Side) (cls : Nat) (e : Ev) (i : Nat) : x.Tells (x.fireEv cls e i) := .of_rings rfl rfl rfl rfl

theorem Side.putIndex_tells (x : Side) (f k v : Nat) : x.Tells (x.putIndex f k v) := by
  unfold Side.putIndex; split
  · exact x.loftPutW_tells _ _
  · exact .refl x

/-- Every counter of deliveries is a word that sticks at its greatest value. -/
theorem deliveryCts_max : ∀ c ∈ deliveryCts, c.max = 0xFFFFFFFF := by decide

theorem deliveryCts_lt : ∀ c ∈ deliveryCts, c.n < 32 := by decide

theorem Side.bump_tells (x : Side) {c : Ct} (h : c ∈ deliveryCts) : x.Tells (x.bump c 0) := by
  unfold Side.bump; split
  · exact .of_wr_setBit x _ (ovf_offset _ _)
  · next hmax =>
    have hlow : (x.rd (c.reg.inst 0)).toNat < 0xFFFFFFFF := by
      rw [← deliveryCts_max c h]; exact Nat.lt_of_not_le fun e => hmax (decide_eq_true e)
    exact ⟨rfl, .of_count (ctReg_offset c 0 (deliveryCts_lt c h)) ⟨c, h, rfl⟩ hlow fun a => Side.rd_wr x _ a _, .refl _,
      (Side.Tells.refl x).recorder⟩

theorem Side.hbump_tells (x : Side) {c : Ct} (h : c ∈ deliveryCts) : x.Tells (x.hbump c 0) := by
  unfold Side.hbump; split
  · exact .of_hwr_setBit x _ (ovf_offset _ _)
  · next hmax =>
    have hlow : (x.hrd (c.reg.inst 0)).toNat < 0xFFFFFFFF := by
      rw [← deliveryCts_max c h]; exact Nat.lt_of_not_le fun e => hmax (decide_eq_true e)
    exact ⟨rfl, .refl _, .of_count (ctReg_offset c 0 (deliveryCts_lt c h)) (.inl ⟨c, h, rfl⟩) hlow fun a => Side.hrd_hwr x _ a _,
      (Side.Tells.refl x).recorder⟩

/-- What a lost count does, and a count of deliveries, leave no more behind than an event does. -/
abbrev TellingSat (sat : Side → Side) : Prop := ∀ x : Side, x.Tells (sat x)
abbrev TellingCount (cnt : Side → Ct → Side) : Prop := ∀ (x : Side), ∀ c ∈ deliveryCts, x.Tells (cnt x c)

theorem Side.eventRecordWith_tells {sat : Side → Side} (hs : TellingSat sat) (x : Side) (f die : Nat) (e : Ev) (i st : Nat) :
    x.Tells (x.eventRecordWith sat f die e i st) := by
  unfold Side.eventRecordWith
  split
  · exact .refl x
  · split
    · exact .refl x
    · split
      · split
        · exact hs x
        · next hmax =>
          have hplace : 0xF00 ≤ (x.rm Reg.RM_EQ_DROPPED : Nat) % 0x1000 := by rw [Side.rm_offset]; decide
          exact ⟨rfl, .refl _, .of_count hplace (.inr rfl) (not_le.mp hmax) fun a => Side.hrd_hwr x _ a _, (Side.Tells.refl x).recorder⟩
      · exact ((Side.loftPutW_tells x _ _).trans (Side.modFn_tells _ _ _)).trans (Side.putIndex_tells _ _ _ _)

section
variable {sat : Side → Side} {cnt : Side → Ct → Side}

/-- The delivery to the host: counted, recorded in the event ring, signalled. -/
theorem Side.tellHost_tells (hs : TellingSat sat) (hc : TellingCount cnt) (x : Side) (fn v die : Nat) (e : Ev) (i st : Nat) :
    x.Tells (((cnt x Ct.EVA_DELIVERED_HOST).eventRecordWith sat fn die e i st).msix fn v) :=
  ((hc x Ct.EVA_DELIVERED_HOST (by decide)).trans (Side.eventRecordWith_tells hs _ _ _ _ _ _)).trans (Side.msix_tells _ _ _)

/-- The delivery to firmware: counted, shown. -/
theorem Side.tellFw_tells (hc : TellingCount cnt) (x : Side) (o : Output) : x.Tells ((cnt x Ct.EVA_DELIVERED_FW).emit o) :=
  (hc x Ct.EVA_DELIVERED_FW (by decide)).trans (Side.emit_tells _ o)

/-- The delivery to FP-SAFE: counted, shown, recorded. -/
theorem Side.tellSafe_tells (hc : TellingCount cnt) (x : Side) (o : Output) (body : List Word) :
    x.Tells (((cnt x Ct.EVA_DELIVERED_SAFE).emit o).record 0x09 0 body) :=
  ((hc x Ct.EVA_DELIVERED_SAFE (by decide)).trans (Side.emit_tells _ o)).trans (Side.record_tells _ _ _)

theorem Side.Tells.ite {x y z : Side} {b : Bool} (hy : x.Tells y) (hz : x.Tells z) : x.Tells (if b then y else z) := by
  cases b
  · exact hz
  · exact hy

theorem Side.deliverWith_tells (hs : TellingSat sat) (hc : TellingCount cnt) (x : Side) (route owner : Word) (die : Nat) (e : Ev)
    (i st fn : Nat) : x.Tells (x.deliverWith sat cnt route owner die e i st fn) := by
  unfold Side.deliverWith
  have hhost := Side.Tells.ite (b := bit route 6) (Side.tellHost_tells hs hc x fn (fld route 5 0) die e i st) (.refl x)
  exact (hhost.trans (.ite (Side.tellFw_tells hc _ _) (.refl _))).trans (.ite (Side.tellSafe_tells hc _ _ _) (.refl _))

theorem Side.raiseBy_tells (hs : TellingSat sat) (hc : TellingCount cnt) (x : Side) (e : Ev) (i st : Nat) :
    (x.wr (headReg e.t i Reg.EVT_RAW) (setBit (x.rd (headReg e.t i Reg.EVT_RAW)) e.bit true)).Tells (x.raiseBy sat cnt e i st) := by
  unfold Side.raiseBy
  dsimp only
  refine Side.Tells.trans (.ite (Side.deliverWith_tells hs hc _ _ _ _ _ _ _ _) (.refl _)) (.ite ?_ (.refl _))
  exact (hc _ Ct.EVA_PIN_TRIGGERS (by decide)).trans (Side.fireEv_tells _ _ _ _)

/-- A raise from the state before its bit is set. -/
theorem Side.raiseBy_tells' (hs : TellingSat sat) (hc : TellingCount cnt) (x : Side) (e : Ev) (i st : Nat) :
    x.Tells (x.raiseBy sat cnt e i st) :=
  (Side.Tells.of_wr_setBit x e.bit (raw_offset _ _)).trans (x.raiseBy_tells hs hc e i st)

theorem Side.eqLost_tells (hc : TellingCount cnt) : TellingSat (Side.eqLost cnt) := fun x =>
  (Side.Tells.of_hwr_setBit x _ (by rw [Side.rm_offset]; decide)).trans (Side.raiseBy_tells' (fun y => .refl y) hc _ _ _ _)

theorem Side.hdeliver_tells (hc : TellingCount cnt) (x : Side) (e : Ev) (i fn : Nat) : x.Tells (x.hdeliver cnt e i fn) :=
  .ite (Side.deliverWith_tells (Side.eqLost_tells hc) hc _ _ _ _ _ _ _ _) (.ite (Side.msix_tells _ _ _) (.refl _))

theorem Side.hraiseWith_tells (hc : TellingCount cnt) (x : Side) (e : Ev) (i fn : Nat) :
    (x.hwr (headReg e.t i Reg.EVT_RAW) (setBit (x.hrd (headReg e.t i Reg.EVT_RAW)) e.bit true)).Tells (x.hraiseWith cnt e i fn) := by
  unfold Side.hraiseWith
  dsimp only
  refine Side.Tells.trans (.ite (Side.hdeliver_tells hc _ _ _ _) (.refl _)) (.ite ?_ (.refl _))
  exact (hc _ Ct.EVA_PIN_TRIGGERS (by decide)).trans (Side.fireEv_tells _ _ _ _)

end

theorem bump_tellingCount : TellingCount fun y k => y.bump k 0 := fun x _ h => x.bump_tells h
theorem hbump_tellingCount : TellingCount fun y k => y.hbump k 0 := fun x _ h => x.hbump_tells h

/-- A count of a delivery, its own lost counts among what it does. -/
theorem Side.countEva_tells : TellingCount Side.countEva := fun x _ h =>
  .ite ((x.bump_tells h).trans (Side.raiseBy_tells' (Side.eqLost_tells bump_tellingCount) bump_tellingCount _ _ _ _)) (x.bump_tells h)

theorem Side.hcountEva_tells : TellingCount Side.hcountEva := fun x _ h =>
  .ite ((x.hbump_tells h).trans ((Side.Tells.of_hwr_setBit _ _ (raw_offset _ _)).trans (Side.hraiseWith_tells hbump_tellingCount _ _ _ _)))
    (x.hbump_tells h)

/-- What a raised event leaves behind, once its bit of EVT_RAW is set. -/
theorem Side.raise_tells (x : Side) (e : Ev) (i : Nat) :
    (x.wr (headReg e.t i Reg.EVT_RAW) (setBit (x.rd (headReg e.t i Reg.EVT_RAW)) e.bit true)).Tells (x.raise e i) :=
  Side.raiseBy_tells (Side.eqLost_tells Side.countEva_tells) Side.countEva_tells x e i 0

theorem Side.hraise_tells (x : Side) (e : Ev) (i fn : Nat) :
    (x.hwr (headReg e.t i Reg.EVT_RAW) (setBit (x.hrd (headReg e.t i Reg.EVT_RAW)) e.bit true)).Tells (x.hraise e i fn) :=
  Side.hraiseWith_tells Side.hcountEva_tells x e i fn

/-- The same from the state before. -/
theorem Side.tells_raise (x : Side) (e : Ev) (i : Nat) : x.Tells (x.raise e i) :=
  (Side.Tells.of_wr_setBit x e.bit (raw_offset _ _)).trans (x.raise_tells e i)

theorem Side.tells_hraise (x : Side) (e : Ev) (i fn : Nat) : x.Tells (x.hraise e i fn) :=
  (Side.Tells.of_hwr_setBit x e.bit (raw_offset _ _)).trans (x.hraise_tells e i fn)

/-- A raised event stands in EVT_RAW. -/
theorem Side.raw_raise (x : Side) (e : Ev) (i : Nat) (h : e.bit < 32) : bit ((x.raise e i).rd (headReg e.t i Reg.EVT_RAW)) e.bit = true :=
  (x.raise_tells e i).rd.bits _ (raw_offset _ _) _ (by rw [Side.rd_wr_same, bit_setBit_same _ h])

theorem Side.raw_hraise (x : Side) (e : Ev) (i fn : Nat) (h : e.bit < 32) :
    bit ((x.hraise e i fn).hrd (headReg e.t i Reg.EVT_RAW)) e.bit = true :=
  (x.hraise_tells e i fn).hrd.bits _ (raw_offset _ _) _ (by rw [Side.hrd_hwr_same, bit_setBit_same _ h])

end Sys2Proof.Machine
end

section
/-!
SUPPORT. Counters that saturate, events raised as they are cleared, CNT_OVF, and refused writes (R640, R871, R873, R878, R883, R884).
-/

namespace Sys2Proof.Machine

/-! ## One count -/

/-- The register of a counter lies on its block's pages. -/
theorem ctReg_type (c : Ct) {i : Nat} (h : c.n < 32) (hi : i < 64) : (c.reg.inst i : Nat) / 0x40000 = c.t := by
  rw [ctReg_eq, headReg_type hi (show 0xF00 + 4 * c.n < 0x1000 by omega)]

/-- The counters of deliveries lie on the pages of EVA. -/
theorem DeliveryCount.type {a : Nat} (h : DeliveryCount a) : a / 0x40000 = T.EVA := by
  obtain ⟨c, hc, rfl⟩ := h
  exact (by decide : ∀ c ∈ deliveryCts, (c.reg.inst 0 : Nat) / 0x40000 = T.EVA) c hc

/-- A counter of a page of Rhordo lies there. -/
theorem Side.rm_type (x : Side) {r : Nat} (h : r / 0x1000 = 0xC00) : (x.rm r : Nat) / 0x40000 = 0x30 := by
  have hd : x.d.die < 2 := by cases x.d <;> decide
  show (r + 0x1000 * x.d.die) / 0x40000 = 0x30
  omega

section
variable (x : Side) {c : Ct} {i : Nat}

theorem Side.count_of_lt (h : x.rdN (c.reg.inst i) < c.max) : x.count c i = x.wrN (c.reg.inst i) (x.rdN (c.reg.inst i) + 1) := by
  have hat : x.atMax c i = false := decide_eq_false (Nat.not_le.mpr h)
  simp only [Side.count, Side.bump, hat, Bool.false_eq_true, if_false]

theorem Side.count_of_max (h : c.max ≤ x.rdN (c.reg.inst i)) :
    x.count c i = (x.wr (headReg c.t i Reg.CNT_OVF) (setBit (x.rd (headReg c.t i Reg.CNT_OVF)) c.n true)).raise
      ⟨c.t, cntSatBit c.t⟩ i := by
  have hat : x.atMax c i = true := decide_eq_true h
  simp only [Side.count, Side.bump, hat, if_true]

theorem Side.hcount_of_lt (fn : Nat) (h : x.hrdN (c.reg.inst i) < c.max) :
    x.hcount c i fn = x.hwrN (c.reg.inst i) (x.hrdN (c.reg.inst i) + 1) := by
  have hat : x.hatMax c i = false := decide_eq_false (Nat.not_le.mpr h)
  simp only [Side.hcount, Side.hbump, hat, Bool.false_eq_true, if_false]

theorem Side.hcount_of_max (fn : Nat) (h : c.max ≤ x.hrdN (c.reg.inst i)) :
    x.hcount c i fn = (x.hwr (headReg c.t i Reg.CNT_OVF) (setBit (x.hrd (headReg c.t i Reg.CNT_OVF)) c.n true)).hraise
      ⟨c.t, cntSatBit c.t⟩ i fn := by
  have hat : x.hatMax c i = true := decide_eq_true h
  simp only [Side.hcount, Side.hbump, hat, if_true]

/-- A counter written with the next count reads it. -/
theorem Side.rdN_wrN_succ {r : Reg} (h : x.rdN r < 0xFFFFFFFF) : (x.wrN r (x.rdN r + 1)).rdN r = x.rdN r + 1 := by
  rw [Side.wrN, Side.rdN, Side.rd_wr_same, toNat_word_succ h]

theorem Side.hrdN_hwrN_succ {r : Reg} (h : x.hrdN r < 0xFFFFFFFF) : (x.hwrN r (x.hrdN r + 1)).hrdN r = x.hrdN r + 1 := by
  rw [Side.hwrN, Side.hrdN, Side.hrd_hwr_same, toNat_word_succ h]

/-- A register of the hub that is not written keeps what it read. -/
theorem Side.hrd_hwr_ne {r a : Reg} (v : Word) (h : a ≠ r) : (x.hwr r v).hrd a = x.hrd a := by rw [Side.hrd_hwr, if_neg h]

end

/-- A counter at its maximum is left alone by what events leave behind: it is none of theirs, or a word that sticks. -/
theorem RegsGrow.counter_eq {moved : Nat → Prop} {r s : Reg → Word} (h : RegsGrow moved r s) {c : Ct} {a : Nat}
    (ha : 0xF00 ≤ a % 0x1000) (hmoved : moved a → c.max = 0xFFFFFFFF) (hmax : c.max ≤ (r a).toNat) : s a = r a := by
  by_cases hm : moved a
  · exact h.count_eq_of_max ha (hmoved hm ▸ hmax)
  · exact h.fixed a ha hm

/-- A count lost on a page of the die: CNT_OVF and EVT_RAW show it, the counter stands. -/
theorem Side.count_lost (x : Side) {c : Ct} {i : Nat} (hn : c.n < 32) (hi : i < 64) (hword : c.t = T.EVA → c.max = 0xFFFFFFFF)
    (h : c.max ≤ x.rdN (c.reg.inst i)) :
    bit ((x.count c i).rd (headReg c.t i Reg.CNT_OVF)) c.n = true ∧
      bit ((x.count c i).rd (headReg c.t i Reg.EVT_RAW)) (cntSatBit c.t) = true ∧
      (x.count c i).rd (c.reg.inst i) = x.rd (c.reg.inst i) := by
  have hplace := ctReg_offset c i hn
  rw [x.count_of_max h]
  refine ⟨?_, Side.raw_raise _ _ _ (cntSatBit_lt _), ?_⟩
  · exact (Side.tells_raise _ _ _).rd.bits _ (ovf_offset _ _) _ (by rw [Side.rd_wr_same, bit_setBit_same _ hn])
  · have htells := (Side.Tells.of_wr_setBit x c.n (ovf_offset c.t i)).trans (Side.tells_raise _ ⟨c.t, cntSatBit c.t⟩ i)
    exact htells.rd.counter_eq hplace (fun hm => hword ((ctReg_type c hn hi).symm.trans hm.type)) h

/-- The same on a page of the hub. -/
theorem Side.hcount_lost (x : Side) {c : Ct} {i : Nat} (fn : Nat) (hn : c.n < 32) (hi : i < 64)
    (hword : c.t = T.EVA ∨ c.t = 0x30 → c.max = 0xFFFFFFFF) (h : c.max ≤ x.hrdN (c.reg.inst i)) :
    bit ((x.hcount c i fn).hrd (headReg c.t i Reg.CNT_OVF)) c.n = true ∧
      bit ((x.hcount c i fn).hrd (headReg c.t i Reg.EVT_RAW)) (cntSatBit c.t) = true ∧
      (x.hcount c i fn).hrd (c.reg.inst i) = x.hrd (c.reg.inst i) := by
  have hplace := ctReg_offset c i hn
  rw [x.hcount_of_max fn h]
  refine ⟨?_, Side.raw_hraise _ _ _ _ (cntSatBit_lt _), ?_⟩
  · exact (Side.tells_hraise _ _ _ _).hrd.bits _ (ovf_offset _ _) _ (by rw [Side.hrd_hwr_same, bit_setBit_same _ hn])
  · have htells := (Side.Tells.of_hwr_setBit x c.n (ovf_offset c.t i)).trans (Side.tells_hraise _ ⟨c.t, cntSatBit c.t⟩ i fn)
    refine htells.hrd.counter_eq hplace (fun hm => hword ?_) h
    rw [← ctReg_type c hn hi]
    rcases hm with hm | hm
    · exact .inl hm.type
    · rw [hm]; exact .inr (x.rm_type (by decide))

/-! ## Counters of a register page of Rhordo -/

section
variable (x : Side) {c : Ct} {k : Nat}

theorem Side.countRm_of_lt (h : x.hrdN (x.rm (c.reg + 4 * k)) < c.max) :
    x.countRm c k = x.hwrN (x.rm (c.reg + 4 * k)) (x.hrdN (x.rm (c.reg + 4 * k)) + 1) := if_neg (Nat.not_le.mpr h)

theorem Side.countRm_of_max (h : c.max ≤ x.hrdN (x.rm (c.reg + 4 * k))) :
    x.countRm c k = (x.hwr (x.rm Reg.RM_CNT_OVF) (setBit (x.hrd (x.rm Reg.RM_CNT_OVF)) (c.n + k) true)).raise Ev.GLV_CNT_SAT 0 :=
  if_pos h

/-- Such a counter lies at its number past 0xF00. -/
theorem Side.rmCount_offset (ht : c.t = 0x30) (hk : c.n + k < 32) : 0xF00 ≤ (x.rm (c.reg + 4 * k) : Nat) % 0x1000 := by
  rw [Side.rm_offset, Ct.reg, ht]
  show 0xF00 ≤ (0x30 * 0x40000 + 0xF00 + 4 * c.n + 4 * k) % 0x1000
  omega

/-- A count lost there: RM_CNT_OVF and FP-HOST's page show it, the counter stands. -/
theorem Side.countRm_lost (ht : c.t = 0x30) (hk : c.n + k < 32) (hword : c.max = 0xFFFFFFFF)
    (h : c.max ≤ x.hrdN (x.rm (c.reg + 4 * k))) :
    bit ((x.countRm c k).hrd (x.rm Reg.RM_CNT_OVF)) (c.n + k) = true ∧
      bit ((x.countRm c k).rd (headReg Ev.GLV_CNT_SAT.t 0 Reg.EVT_RAW)) Ev.GLV_CNT_SAT.bit = true ∧
      (x.countRm c k).hrd (x.rm (c.reg + 4 * k)) = x.hrd (x.rm (c.reg + 4 * k)) := by
  have hovf : (x.rm Reg.RM_CNT_OVF : Nat) % 0x1000 < 0xF00 := by rw [Side.rm_offset]; decide
  rw [x.countRm_of_max h]
  refine ⟨?_, Side.raw_raise _ _ _ (by decide), ?_⟩
  · exact (Side.tells_raise _ _ _).hrd.bits _ hovf _ (by rw [Side.hrd_hwr_same, bit_setBit_same _ hk])
  · have htells := (Side.Tells.of_hwr_setBit x (c.n + k) hovf).trans (Side.tells_raise _ Ev.GLV_CNT_SAT 0)
    exact htells.hrd.counter_eq (x.rmCount_offset ht hk) (fun _ => hword) h

end

/-- Settles O55: below its maximum a counter is the one register written; at it, what the raise of CNT_SAT leaves behind keeps the
bits set and the counter. -/
theorem countersSaturate : Obligations.CountersSaturate := by
  unfold Obligations.CountersSaturate
  intro x c i hn hmax hword hi
  have hle : c.max ≤ 0xFFFFFFFF := by omega
  refine ⟨fun hlt => ?counts, fun hge => ⟨x.count_of_max hge, x.count_lost hn hi (fun h => hword (.inl h)) hge⟩,
    fun fn => ⟨fun hlt => ?hubCounts, fun hge => ⟨x.hcount_of_max fn hge, x.hcount_lost fn hn hi hword hge⟩⟩,
    fun ht k hk => ⟨fun hlt => ?rmCounts, fun hge => x.countRm_lost ht hk (hword (.inr ht)) hge⟩⟩
  case counts =>
    rw [x.count_of_lt hlt]
    exact ⟨x.rdN_wrN_succ (Nat.lt_of_lt_of_le hlt hle), fun a ha => Side.rd_wr_ne x _ ha⟩
  case hubCounts =>
    rw [x.hcount_of_lt fn hlt]
    exact ⟨x.hrdN_hwrN_succ (Nat.lt_of_lt_of_le hlt hle), fun a ha => x.hrd_hwr_ne _ ha⟩
  case rmCounts =>
    rw [x.countRm_of_lt hlt]
    exact ⟨x.hrdN_hwrN_succ (Nat.lt_of_lt_of_le hlt hle), fun a ha => x.hrd_hwr_ne _ ha⟩

end Sys2Proof.Machine
end

section
/-!
SUPPORT. A raise that meets a clear of the same event (R878): the event's bit, and the counters of its deliveries.
-/

namespace Sys2Proof.Machine

/-! ## The bits of a write -/

theorem bit_word_two_pow (b k : Nat) : bit (word (2 ^ b)) k = (decide (k < 32) && decide (b = k)) := by
  rw [bit, word, BitVec.getLsbD_ofNat, Nat.testBit_two_pow]

/-- The write of one bit that a block has, raised in the same cycle, is that bit alone. -/
theorem setBits_raisedNow {t b : Nat} (hb : b < eventCount t) (ht : eventCount t ≤ 32) :
    setBits (word (2 ^ b) &&& word (2 ^ b) &&& eventMask t) = [b] := by
  have hbits : ∀ k < 32, bit (word (2 ^ b) &&& word (2 ^ b) &&& eventMask t) k = decide (k = b) := by
    intro k hk
    have hmask : bit (eventMask t) k = decide (k < eventCount t) := by
      rw [bit, eventMask, word, BitVec.getLsbD_ofNat, Nat.testBit_two_pow_sub_one, decide_eq_true hk, Bool.true_and]
    have hword : bit (word (2 ^ b)) k = decide (k = b) := by
      rw [bit_word_two_pow, decide_eq_true hk, Bool.true_and]
      exact decide_eq_decide.mpr eq_comm
    show (word (2 ^ b) &&& word (2 ^ b) &&& eventMask t).getLsbD k = _
    rw [BitVec.and_self, BitVec.getLsbD_and]
    show (bit (word (2 ^ b)) k && bit (eventMask t) k) = _
    rw [hword, hmask]
    by_cases hkb : k = b
    · simp [hkb, hb]
    · simp [hkb]
  calc setBits (word (2 ^ b) &&& word (2 ^ b) &&& eventMask t)
      = (List.range 32).filter fun k => decide (k = b) := List.filter_congr fun k hk => hbits k (List.mem_range.mp hk)
    _ = [b] := (by decide : ∀ b < 32, ((List.range 32).filter fun k => decide (k = b)) = [b]) b (by omega)

/-- A bit written 1 is cleared. -/
theorem bit_clear (v : Word) {b : Nat} (h : b < 32) : bit (v &&& ~~~(word (2 ^ b))) b = false := by
  have hb : (word (2 ^ b)).getLsbD b = true := by
    show bit (word (2 ^ b)) b = true
    rw [bit_word_two_pow]; simp [h]
  rw [bit, BitVec.getLsbD_and, BitVec.getLsbD_not, hb, Bool.not_true, Bool.and_false, Bool.and_false]

/-! ## The counters of deliveries -/

/-- A register of the die or of the hub grows with what events leave behind. -/
theorem Side.Tells.prd_le {x y : Side} (h : x.Tells y) (hub : Bool) {a : Nat} (ha : 0xF00 ≤ a % 0x1000) :
    (x.prd hub a).toNat ≤ (y.prd hub a).toNat := by
  cases hub
  · exact h.rd.counts a ha
  · exact h.hrd.counts a ha

/-- A count of a delivery moves its counter past every number below its maximum that it has reached. -/
def CountsUp (hub : Bool) (cnt : Side → Ct → Side) : Prop :=
  ∀ (x : Side), ∀ c ∈ deliveryCts, ∀ k < 0xFFFFFFFF, k ≤ (x.prd hub (c.reg.inst 0)).toNat →
    k < ((cnt x c).prd hub (c.reg.inst 0)).toNat

/-- The three destinations of an event, by their bit of EVT_ROUTE, with their counters. -/
abbrev destinations : List (Nat × Ct) := [(6, Ct.EVA_DELIVERED_HOST), (7, Ct.EVA_DELIVERED_FW), (8, Ct.EVA_DELIVERED_SAFE)]

section
variable {hub : Bool} {sat : Side → Side} {cnt : Side → Ct → Side}

theorem Side.deliverWith_counts (hs : TellingSat sat) (hc : TellingCount cnt) (hup : CountsUp hub cnt) (x : Side)
    {route : Word} (owner : Word) (die : Nat) (e : Ev) (i st fn : Nat) {r : Nat × Ct} (hr : r ∈ destinations)
    (hroute : bit route r.1 = true) (hlow : (x.prd hub (r.2.reg.inst 0)).toNat < 0xFFFFFFFF) :
    (x.prd hub (r.2.reg.inst 0)).toNat < ((x.deliverWith sat cnt route owner die e i st fn).prd hub (r.2.reg.inst 0)).toNat := by
  have hhost : ∀ z : Side, z.Tells (if bit route 6 then
      ((cnt z Ct.EVA_DELIVERED_HOST).eventRecordWith sat fn die e i st).msix fn (fld route 5 0) else z) :=
    fun z => .ite (Side.tellHost_tells hs hc z fn _ die e i st) (.refl z)
  have hfw : ∀ z : Side, z.Tells (if bit route 7 then
      (cnt z Ct.EVA_DELIVERED_FW).emit (.fwInt (if fld owner 1 0 = 1 then fld owner 3 2 else 0) e.t i e.bit) else z) :=
    fun z => .ite (Side.tellFw_tells hc z _) (.refl z)
  have hsafe : ∀ z : Side, z.Tells (if bit route 8 then
      ((cnt z Ct.EVA_DELIVERED_SAFE).emit (.fwInt 2 e.t i e.bit)).record 0x09 0
        [pack [(0, e.t), (16, i), (24, die)], word e.bit, 0, 0, 0, 0, 0, 0] else z) :=
    fun z => .ite (Side.tellSafe_tells hc z _ _) (.refl z)
  have hplace : 0xF00 ≤ (r.2.reg.inst 0 : Nat) % 0x1000 :=
    ctReg_offset r.2 0 ((by decide : ∀ r ∈ destinations, r.2.n < 32) r hr)
  unfold Side.deliverWith
  dsimp only
  simp only [destinations, List.mem_cons, List.not_mem_nil, or_false] at hr
  rcases hr with rfl | rfl | rfl
  · refine Nat.lt_of_lt_of_le ?_ (((hfw _).trans (hsafe _)).prd_le hub hplace)
    rw [if_pos hroute]
    exact Nat.lt_of_lt_of_le (hup x _ (by decide) _ hlow le_rfl)
      (((Side.eventRecordWith_tells hs _ _ _ _ _ _).trans (Side.msix_tells _ _ _)).prd_le hub hplace)
  · refine Nat.lt_of_lt_of_le ?_ ((hsafe _).prd_le hub hplace)
    rw [if_pos hroute]
    exact Nat.lt_of_lt_of_le (hup _ _ (by decide) _ hlow ((hhost x).prd_le hub hplace)) ((Side.emit_tells _ _).prd_le hub hplace)
  · rw [if_pos hroute]
    exact Nat.lt_of_lt_of_le (hup _ _ (by decide) _ hlow (((hhost x).trans (hfw _)).prd_le hub hplace))
      (((Side.emit_tells _ _).trans (Side.record_tells _ _ _)).prd_le hub hplace)

end

/-- A raise of an enabled event whose bit is clear delivers it. -/
theorem Side.raise_of_new (x : Side) (e : Ev) (i : Nat) (hnew : bit (x.rd (headReg e.t i Reg.EVT_RAW)) e.bit = false)
    (hen : bit (x.rd (headReg e.t i Reg.EVT_EN)) e.bit = true) :
    let owner := x.rd (headReg e.t i Reg.OWNER)
    ((x.wr (headReg e.t i Reg.EVT_RAW) (setBit (x.rd (headReg e.t i Reg.EVT_RAW)) e.bit true)).deliver Side.countEva
      (x.rd (headReg e.t i Reg.EVT_ROUTE)) owner x.d.die e i 0 (fld owner 12 8)).Tells (x.raise e i) := by
  have hne : headReg e.t i Reg.EVT_EN ≠ headReg e.t i Reg.EVT_RAW := fun h => absurd (Nat.add_left_cancel h) (by decide)
  have hguard : (!bit (x.rd (headReg e.t i Reg.EVT_RAW)) e.bit && bit ((x.wr (headReg e.t i Reg.EVT_RAW)
      (setBit (x.rd (headReg e.t i Reg.EVT_RAW)) e.bit true)).rd (headReg e.t i Reg.EVT_EN)) e.bit) = true := by
    rw [hnew, Side.rd_wr_ne x _ hne, hen]; rfl
  intro owner
  unfold Side.raise Side.raiseStatus Side.raiseWith Side.raiseBy
  dsimp only
  rw [if_pos hguard]
  exact .ite ((Side.countEva_tells _ Ct.EVA_PIN_TRIGGERS (by decide)).trans (Side.fireEv_tells _ _ _ _)) (.refl _)

/-- The same on a page of the hub, toward a channel that runs. -/
theorem Side.hraise_of_new (x : Side) (e : Ev) (i fn : Nat) (hlive : x.live = true)
    (hnew : bit (x.hrd (headReg e.t i Reg.EVT_RAW)) e.bit = false) (hen : bit (x.hrd (headReg e.t i Reg.EVT_EN)) e.bit = true) :
    ((x.hwr (headReg e.t i Reg.EVT_RAW) (setBit (x.hrd (headReg e.t i Reg.EVT_RAW)) e.bit true)).deliver Side.hcountEva
      (x.hrd (headReg e.t i Reg.EVT_ROUTE)) (x.hrd (headReg e.t i Reg.OWNER)) 2 e i 0 fn).Tells (x.hraise e i fn) := by
  have hkeep {r : Reg} (h : r ≠ Reg.EVT_RAW) (v : Word) :
      (x.hwr (headReg e.t i Reg.EVT_RAW) v).hrd (headReg e.t i r) = x.hrd (headReg e.t i r) :=
    x.hrd_hwr_ne v fun e => h (Nat.add_left_cancel e)
  have hguard : (!bit (x.hrd (headReg e.t i Reg.EVT_RAW)) e.bit && bit ((x.hwr (headReg e.t i Reg.EVT_RAW)
      (setBit (x.hrd (headReg e.t i Reg.EVT_RAW)) e.bit true)).hrd (headReg e.t i Reg.EVT_EN)) e.bit) = true := by
    rw [hnew, hkeep (by decide), hen]; rfl
  unfold Side.hraise Side.hraiseWith
  dsimp only
  rw [if_pos hguard]
  have hdeliver : (x.hwr (headReg e.t i Reg.EVT_RAW) (setBit (x.hrd (headReg e.t i Reg.EVT_RAW)) e.bit true)).hdeliver
      Side.hcountEva e i fn = (x.hwr (headReg e.t i Reg.EVT_RAW) (setBit (x.hrd (headReg e.t i Reg.EVT_RAW)) e.bit true)).deliver
        Side.hcountEva (x.hrd (headReg e.t i Reg.EVT_ROUTE)) (x.hrd (headReg e.t i Reg.OWNER)) 2 e i 0 fn := by
    unfold Side.hdeliver
    dsimp only
    rw [Side.hwr_live, if_pos hlive, hkeep (by decide), hkeep (by decide)]
  rw [hdeliver]
  exact .ite ((Side.hcountEva_tells _ Ct.EVA_PIN_TRIGGERS (by decide)).trans (Side.fireEv_tells _ _ _ _)) (.refl _)

/-! ## Counting on EVA -/

/-- A count that its counter takes or loses: below the maximum one more, at it no less. -/
theorem lt_of_counted {k v w : Nat} (hk : k < 0xFFFFFFFF) (hv : k ≤ v) (hlow : v < 0xFFFFFFFF → v + 1 ≤ w) (hle : v ≤ w) : k < w := by
  by_cases h : v < 0xFFFFFFFF
  · exact Nat.lt_of_lt_of_le (Nat.lt_succ_of_le hv) (hlow h)
  · omega

theorem countEva_countsUp : CountsUp false Side.countEva := by
  intro x c hc k hk hv
  have hmax := deliveryCts_max c hc
  have hplace := ctReg_offset c 0 (deliveryCts_lt c hc)
  refine lt_of_counted hk hv (fun hlow => ?_) ((Side.countEva_tells x c hc).prd_le false hplace)
  have hat : x.atMax c 0 = false := decide_eq_false (by rw [hmax]; exact Nat.not_le.mpr hlow)
  have hcount : x.countEva c = x.wrN (c.reg.inst 0) (x.rdN (c.reg.inst 0) + 1) := by
    simp only [Side.countEva, Side.bump, hat, Bool.false_eq_true, if_false]
  rw [hcount]
  exact Nat.le_of_eq (x.rdN_wrN_succ hlow).symm

theorem hcountEva_countsUp : CountsUp true Side.hcountEva := by
  intro x c hc k hk hv
  have hmax := deliveryCts_max c hc
  have hplace := ctReg_offset c 0 (deliveryCts_lt c hc)
  refine lt_of_counted hk hv (fun hlow => ?_) ((Side.hcountEva_tells x c hc).prd_le true hplace)
  have hat : x.hatMax c 0 = false := decide_eq_false (by rw [hmax]; exact Nat.not_le.mpr hlow)
  have hcount : x.hcountEva c = x.hwrN (c.reg.inst 0) (x.hrdN (c.reg.inst 0) + 1) := by
    simp only [Side.hcountEva, Side.hbump, hat, Bool.false_eq_true, if_false]
  rw [hcount]
  exact Nat.le_of_eq (x.hrdN_hwrN_succ hlow).symm

/-- The counters lie apart from EVT_RAW. -/
theorem destination_ne_raw {r : Nat × Ct} (hr : r ∈ destinations) (t i : Nat) : r.2.reg.inst 0 ≠ headReg t i Reg.EVT_RAW := by
  intro h
  have hplace := ctReg_offset r.2 0 ((by decide : ∀ r ∈ destinations, r.2.n < 32) r hr)
  exact absurd (raw_offset t i) (Nat.not_lt.mpr (h ▸ hplace))

/-- A raise of an enabled event whose bit is clear is counted at each destination routed. -/
theorem Side.raise_counts (x : Side) (e : Ev) (i : Nat) (hnew : bit (x.rd (headReg e.t i Reg.EVT_RAW)) e.bit = false)
    (hen : bit (x.rd (headReg e.t i Reg.EVT_EN)) e.bit = true) {r : Nat × Ct} (hr : r ∈ destinations)
    (hroute : bit (x.rd (headReg e.t i Reg.EVT_ROUTE)) r.1 = true) (hlow : (x.rd (r.2.reg.inst 0)).toNat < 0xFFFFFFFF) :
    (x.rd (r.2.reg.inst 0)).toNat < ((x.raise e i).rd (r.2.reg.inst 0)).toNat := by
  have hplace := ctReg_offset r.2 0 ((by decide : ∀ r ∈ destinations, r.2.n < 32) r hr)
  refine Nat.lt_of_lt_of_le ?_ ((x.raise_of_new e i hnew hen).rd.counts _ hplace)
  rw [← Side.rd_wr_ne x (setBit (x.rd (headReg e.t i Reg.EVT_RAW)) e.bit true) (destination_ne_raw hr e.t i)] at hlow ⊢
  exact Side.deliverWith_counts (hub := false) (Side.eqLost_tells Side.countEva_tells) Side.countEva_tells countEva_countsUp
    _ _ _ _ _ _ _ hr hroute hlow

theorem Side.hraise_counts (x : Side) (e : Ev) (i fn : Nat) (hlive : x.live = true)
    (hnew : bit (x.hrd (headReg e.t i Reg.EVT_RAW)) e.bit = false) (hen : bit (x.hrd (headReg e.t i Reg.EVT_EN)) e.bit = true)
    {r : Nat × Ct} (hr : r ∈ destinations) (hroute : bit (x.hrd (headReg e.t i Reg.EVT_ROUTE)) r.1 = true)
    (hlow : (x.hrd (r.2.reg.inst 0)).toNat < 0xFFFFFFFF) :
    (x.hrd (r.2.reg.inst 0)).toNat < ((x.hraise e i fn).hrd (r.2.reg.inst 0)).toNat := by
  have hplace := ctReg_offset r.2 0 ((by decide : ∀ r ∈ destinations, r.2.n < 32) r hr)
  refine Nat.lt_of_lt_of_le ?_ ((x.hraise_of_new e i fn hlive hnew hen).hrd.counts _ hplace)
  rw [← x.hrd_hwr_ne (setBit (x.hrd (headReg e.t i Reg.EVT_RAW)) e.bit true) (destination_ne_raw hr e.t i)] at hlow ⊢
  exact Side.deliverWith_counts (hub := true) (Side.eqLost_tells Side.hcountEva_tells) Side.hcountEva_tells hcountEva_countsUp
    _ _ _ _ _ _ _ hr hroute hlow

/-- Settles O56: the write clears the bit, so that the raise finds it clear, sets it and delivers the event. -/
theorem raiseWinsOverClear : Obligations.RaiseWinsOverClear := by
  unfold Obligations.RaiseWinsOverClear
  intro x hub t i b hb ht hi
  have hb32 : b < 32 := Nat.lt_of_lt_of_le hb ht
  have hy : x.writeEvtRaw hub (word (2 ^ b)) (word (2 ^ b)) t i =
      (x.pwr hub (headReg t i Reg.EVT_RAW) (x.prd hub (headReg t i Reg.EVT_RAW) &&& ~~~(word (2 ^ b)))).praise hub t i b := by
    simp only [Side.writeEvtRaw, setBits_raisedNow hb ht, List.foldl_cons, List.foldl_nil]
  have hraw {r : Reg} (h : r ≠ Reg.EVT_RAW) : headReg t i r ≠ headReg t i Reg.EVT_RAW := fun e => h (Nat.add_left_cancel e)
  dsimp only
  rw [hy]
  refine ⟨rfl, ?_⟩
  cases hub with
  | false =>
    simp only [Side.prd, Side.pwr, Side.praise, Bool.false_eq_true, if_false]
    refine ⟨Side.raw_raise _ ⟨t, b⟩ i hb32, fun _ hen r hr hroute hlow => ?delivered⟩
    case delivered =>
      have hkeep {a : Reg} (h : a ≠ headReg t i Reg.EVT_RAW) (v : Word) : (x.wr (headReg t i Reg.EVT_RAW) v).rd a = x.rd a :=
        Side.rd_wr_ne x v h
      have hcounts := Side.raise_counts (x.wr (headReg t i Reg.EVT_RAW) (x.rd (headReg t i Reg.EVT_RAW) &&& ~~~(word (2 ^ b)))) ⟨t, b⟩ i
        (by rw [Side.rd_wr_same, bit_clear _ hb32]) (by rw [hkeep (hraw (by decide))]; exact hen) hr
        (by rw [hkeep (hraw (by decide))]; exact hroute)
      rw [hkeep (destination_ne_raw hr t i)] at hcounts
      exact hcounts hlow
  | true =>
    simp only [Side.prd, Side.pwr, Side.praise, if_true]
    refine ⟨Side.raw_hraise _ ⟨t, b⟩ i _ hb32, fun hlive hen r hr hroute hlow => ?delivered⟩
    case delivered =>
      have hkeep {a : Reg} (h : a ≠ headReg t i Reg.EVT_RAW) (v : Word) : (x.hwr (headReg t i Reg.EVT_RAW) v).hrd a = x.hrd a :=
        x.hrd_hwr_ne v h
      have hcounts := Side.hraise_counts (x.hwr (headReg t i Reg.EVT_RAW) (x.hrd (headReg t i Reg.EVT_RAW) &&& ~~~(word (2 ^ b)))) ⟨t, b⟩ i
        (hubFn t i b) (hlive trivial) (by rw [Side.hrd_hwr_same, bit_clear _ hb32]) (by rw [hkeep (hraw (by decide))]; exact hen) hr
        (by rw [hkeep (hraw (by decide))]; exact hroute)
      rw [hkeep (destination_ne_raw hr t i)] at hcounts
      exact hcounts hlow

end Sys2Proof.Machine
end

section
/-!
SUPPORT. A write of CNT_OVF (R884).
-/

namespace Sys2Proof.Machine

/-- A register of the die or of the hub reads what hardware wrote, and every other register what it read before. -/
theorem Side.prd_pwr (x : Side) (hub : Bool) (r a : Reg) (v : Word) :
    (x.pwr hub r v).prd hub a = if a = r then v else x.prd hub a := by
  cases hub
  · exact x.rd_wr r a v
  · exact x.hrd_hwr r a v

/-- What a write of CNT_OVF does to the counter of one bit. -/
def Side.clearCount (hub : Bool) (u : Word) (t i : Nat) (x : Side) (b : Nat) : Side :=
  if (rowAt (headReg t i (0xF00 + 4 * b))).isSome then x.pwr hub (headReg t i (0xF00 + 4 * b)) (word (nat1 (bit u b))) else x

theorem Side.writeCntOvf_eq (hub : Bool) (v u : Word) (t i : Nat) (x : Side) : x.writeCntOvf hub v u t i =
    (setBits v).foldl (Side.clearCount hub u t i)
      (x.pwr hub (headReg t i Reg.CNT_OVF) (x.prd hub (headReg t i Reg.CNT_OVF) &&& ~~~v)) := rfl

section
variable {hub : Bool} {u : Word} {t i : Nat}

/-- A clear of one counter leaves every other register alone. -/
theorem Side.clearCount_prd_ne (x : Side) {b : Nat} {a : Reg} (h : a ≠ headReg t i (0xF00 + 4 * b)) :
    (Side.clearCount hub u t i x b).prd hub a = x.prd hub a := by
  unfold Side.clearCount; split
  · rw [Side.prd_pwr, if_neg h]
  · rfl

/-- So do the clears of several. -/
theorem Side.clearCounts_prd_ne {a : Reg} (l : List Nat) (x : Side) (h : ∀ b ∈ l, a ≠ headReg t i (0xF00 + 4 * b)) :
    (l.foldl (Side.clearCount hub u t i) x).prd hub a = x.prd hub a := by
  induction l generalizing x with
  | nil => rfl
  | cons b l ih =>
    rw [List.foldl_cons, ih _ fun k hk => h k (List.mem_cons_of_mem _ hk), x.clearCount_prd_ne (h b List.mem_cons_self)]

/-- Each counter cleared once reads 1 where an increment falls in the cycle, else zero. -/
theorem Side.clearCounts_prd {l : List Nat} (hl : l.Nodup) (x : Side) {b : Nat} (hb : b ∈ l)
    (hrow : (rowAt (headReg t i (0xF00 + 4 * b))).isSome = true) :
    (l.foldl (Side.clearCount hub u t i) x).prd hub (headReg t i (0xF00 + 4 * b)) = word (nat1 (bit u b)) := by
  induction l generalizing x with
  | nil => exact absurd hb List.not_mem_nil
  | cons k l ih =>
    obtain ⟨hk, hl⟩ := List.nodup_cons.mp hl
    rw [List.foldl_cons]
    rcases List.mem_cons.mp hb with rfl | hb
    · have hothers : ∀ k ∈ l, headReg t i (0xF00 + 4 * b) ≠ headReg t i (0xF00 + 4 * k) := by
        intro k hkl h
        have hbk : 0xF00 + 4 * b = 0xF00 + 4 * k := Nat.add_left_cancel h
        exact hk ((show b = k by omega) ▸ hkl)
      rw [Side.clearCounts_prd_ne l _ hothers, Side.clearCount, if_pos hrow, Side.prd_pwr, if_pos rfl]
    · exact ih hl _ hb

end

theorem mem_setBits {v : Word} {b : Nat} : b ∈ setBits v ↔ b < 32 ∧ bit v b = true := by
  simp only [setBits, List.mem_filter, List.mem_range]

/-- Settles O57: the counters of the bits written are cleared one after the other, each once; CNT_OVF is none of them. -/
theorem overflowClears : Obligations.OverflowClears := by
  unfold Obligations.OverflowClears
  intro x hub t i v u hi
  dsimp only
  rw [Side.writeCntOvf_eq]
  refine ⟨?ovf, fun b hb hbit hrow => ?counter, fun a hovf hcounts => ?others⟩
  case ovf =>
    have hne : ∀ b ∈ setBits v, headReg t i Reg.CNT_OVF ≠ headReg t i (0xF00 + 4 * b) := by
      intro b _ h
      have h' : 0x24 = 0xF00 + 4 * b := Nat.add_left_cancel h
      omega
    rw [Side.clearCounts_prd_ne _ _ hne, Side.prd_pwr, if_pos rfl]
  case counter => exact Side.clearCounts_prd (List.nodup_range.filter _) _ (mem_setBits.mpr ⟨hb, hbit⟩) hrow
  case others =>
    have hne : ∀ b ∈ setBits v, a ≠ headReg t i (0xF00 + 4 * b) := fun b hb =>
      hcounts b (mem_setBits.mp hb).1 (mem_setBits.mp hb).2
    rw [Side.clearCounts_prd_ne _ _ hne, Side.prd_pwr, if_neg hovf]

end Sys2Proof.Machine
end

section
/-!
SUPPORT. The recorder: what a dropped record leaves in its queue, and its commands (R844 to R850).
-/

namespace Sys2Proof.Machine

theorem Side.bump_recorder (x : Side) (c : Ct) (i : Nat) : (x.bump c i).me.recorder = x.me.recorder := by
  unfold Side.bump; split <;> rfl

/-- A count records nothing but the events that it raises. -/
theorem Side.count_recordsEvents (x : Side) (c : Ct) (i : Nat) : x.RecordsEvents (x.count c i) := by
  have hbump : x.RecordsEvents (x.bump c i) := .of_eq (x.bump_recorder c i)
  unfold Side.count; split
  · exact hbump.trans (Side.tells_raise _ _ _).recorder
  · exact hbump

/-- A drop takes the oldest record out, counts it, and records nothing but events. -/
theorem Side.dropRec_queue (r : Rec) (t : List Rec) (x : Side) :
    (∃ l, (Side.dropRec r t x).me.recorder.queue = t ++ l ∧ ∀ q ∈ l, q.typ = 0x09) ∧
      (Side.dropRec r t x).me.recorder.dropped = x.me.recorder.dropped + 1 := by
  unfold Side.dropRec
  extract_lets y
  have hcount : Side.RecordsEvents _ y := Side.count_recordsEvents _ Ct.REC_DROPPED 0
  have hrecords : y.RecordsEvents (if bit (y.rd (headReg T.REC 0 Reg.EVT_RAW)) Ev.REC_DROP.bit then y else y.raise Ev.REC_DROP) := by
    split
    · exact .of_eq rfl
    · exact (Side.tells_raise _ _ _).recorder
  obtain ⟨l, hl, htyp⟩ := hcount.trans hrecords
  rw [hl]
  exact ⟨⟨l, rfl, htyp⟩, rfl⟩

/-- Settles O44: the region, the age of the oldest record and the bridle's RATE, and the room in the shed area decide. -/
theorem recorderComplete : Obligations.RecorderComplete := by
  unfold Obligations.RecorderComplete
  intro s n d hl
  refine ⟨fun w v hmay => ⟨fun hbit hbad => ?refused, fun hok => ?enabled⟩,
    fun r t hqueue => ⟨fun hfresh hrate => ?written, fun hlate => ?tooLate, fun hlate => ?dropped, Side.dropRec_queue r t _,
      fun hfresh => ?kept⟩, fun len fin hexport hfits => ?exported⟩
  case refused =>
    exact onLive_ends hl ((Side.access_of_may hmay _).trans (by simp only [hbit, hbad, Bool.not_false, Bool.and_self, if_true]))
  case enabled =>
    have hguard : (bit v 0 && !(s.at_ n d).recRegionOk) = false := by
      cases hbit : bit v 0
      · rfl
      · rw [hok hbit]; rfl
    exact onLive_ends hl ((Side.access_of_may hmay _).trans (by simp only [hguard, Bool.false_eq_true, if_false]))
  case written =>
    have htimely : (s.at_ n d).recLate r = false := decide_eq_false (Nat.not_lt.mpr hfresh)
    have hpasses : (s.at_ n d).recPasses = true := bne_iff_ne.mpr hrate
    exact onLive_ends hl (by simp only [hqueue, htimely, hpasses, Bool.not_true, Bool.or_self, Bool.false_eq_true, if_false])
  case tooLate =>
    have hlate' : (s.at_ n d).recLate r = true := decide_eq_true hlate
    exact onLive_ends hl (by simp only [hqueue, hlate', Bool.true_or, if_true, id])
  case dropped =>
    have hlate' : (s.at_ n d).recLate r = true := decide_eq_true hlate
    exact onLive_ends hl (by simp only [hqueue, hlate', if_true])
  case kept =>
    have htimely : (s.at_ n d).recLate r = false := decide_eq_false (Nat.not_lt.mpr hfresh)
    exact onLive_ends hl (by simp only [hqueue, htimely, Bool.false_eq_true, if_false, id])
  case exported => exact onLive_ends hl (by simp only [hexport, hfits, if_true])

end Sys2Proof.Machine
end

section
/-!
SUPPORT. The entry to safe state (R729 to R737, R746): what halting the stalls, disarming the Age Visor, the switch, the fault
message, the snapshot and the end of a replay leave of the SAFE page and of the causes.
-/

namespace Sys2Proof.Machine

/-! ## Fields of words -/

/-- The bits of a word with a field replaced. -/
theorem bit_setFld (w : Word) {hi lo k : Nat} (v : Nat) (hk : k < 32) :
    bit (setFld w hi lo v) k = if lo ≤ k ∧ k ≤ hi then v.testBit (k - lo) else bit w k := by
  simp only [bit, setFld, word, BitVec.getLsbD_or, BitVec.getLsbD_and, BitVec.getLsbD_not, BitVec.getLsbD_shiftLeft,
    BitVec.getLsbD_ofNat, Nat.testBit_two_pow_sub_one, Nat.testBit_mod_two_pow]
  have hin : k - lo < 32 := by omega
  by_cases hlo : lo ≤ k
  · by_cases hhi : k ≤ hi
    · have hfield : k - lo < hi + 1 - lo := by omega
      simp [hk, hin, hlo, hhi, hfield, Nat.not_lt.mpr hlo]
    · have hfield : ¬k - lo < hi + 1 - lo := by omega
      simp [hk, hin, hlo, hhi, hfield, Nat.not_lt.mpr hlo]
  · simp [hk, hlo, Nat.lt_of_not_le hlo]

/-- A field reads the bits of its word. -/
theorem testBit_fld (w : Word) (hi lo k : Nat) : (fld w hi lo).testBit k = (decide (k < hi + 1 - lo) && bit w (lo + k)) := by
  rw [fld, bits, Nat.testBit_mod_two_pow, Nat.testBit_div_two_pow, Nat.add_comm k lo]; rfl

/-- A field that is replaced reads the new value. -/
theorem fld_setFld_same (w : Word) {hi lo : Nat} (v : Nat) (h : hi < 32) : fld (setFld w hi lo v) hi lo = v % 2 ^ (hi + 1 - lo) := by
  refine Nat.eq_of_testBit_eq fun k => ?_
  rw [testBit_fld, Nat.testBit_mod_two_pow]
  by_cases hk : k < hi + 1 - lo
  · rw [bit_setFld _ _ (by omega), if_pos (by omega), Nat.add_sub_cancel_left]
  · simp [hk]

/-- A field apart from the one that is replaced reads as before. -/
theorem fld_setFld_apart (w : Word) {hi lo hi' lo' : Nat} (v : Nat) (h : hi < 32) (hapart : hi < lo' ∨ hi' < lo) :
    fld (setFld w hi' lo' v) hi lo = fld w hi lo := by
  refine Nat.eq_of_testBit_eq fun k => ?_
  rw [testBit_fld, testBit_fld]
  by_cases hk : k < hi + 1 - lo
  · rw [bit_setFld _ _ (by omega), if_neg (by omega)]
  · simp [hk]

/-! ## What the entry leaves alone -/

/-- SAFE_STAT and SAFE_ENTER_VT. -/
abbrev safeRegs : List Nat := [Reg.SAFE_STAT, Reg.SAFE_ENTER_VT, Reg.SAFE_ENTER_VT.hi]

/-- y has of x the registers of the entry, the causes in force and FAULT_x_N. -/
structure Side.LeavesSafe (x y : Side) : Prop where
  d : y.d = x.d
  rd : ∀ a ∈ safeRegs, y.rd a = x.rd a
  causes : y.me.safe.causes = x.me.safe.causes
  faultLow : y.me.safe.faultLow = x.me.safe.faultLow

/-- A register that is none of them. -/
def OffSafe (r : Nat) : Prop := r < 0x480000 ∨ 0x480084 ≤ r

theorem OffSafe.ne {r a : Nat} (h : OffSafe r) (ha : a ∈ safeRegs) : a ≠ r := by
  rintro rfl
  simp only [safeRegs, List.mem_cons, List.not_mem_nil, or_false] at ha
  rcases ha with rfl | rfl | rfl <;> revert h <;> unfold OffSafe <;> decide

/-- The pages of TE, PSQ and BSQ. -/
theorem offSafe_inst {r i : Nat} (hr : r < 0x1C1000) (hi : i < 8) : OffSafe (Reg.inst r i) :=
  .inl (show r + 0x1000 * i < 0x480000 by omega)

namespace Side.LeavesSafe
variable {x y z : Side}

theorem refl (x : Side) : x.LeavesSafe x := ⟨rfl, fun _ _ => rfl, rfl, rfl⟩

theorem trans (h : x.LeavesSafe y) (k : y.LeavesSafe z) : x.LeavesSafe z :=
  ⟨k.d.trans h.d, fun a ha => (k.rd a ha).trans (h.rd a ha), k.causes.trans h.causes, k.faultLow.trans h.faultLow⟩

/-- A change of neither the registers nor the SAFE block's state. -/
theorem of_regs (hd : y.d = x.d) (hregs : y.me.regs = x.me.regs) (hsafe : y.me.safe = x.me.safe) : x.LeavesSafe y :=
  ⟨hd, fun a _ => by simp only [Side.rd, hd, hregs], by rw [hsafe], by rw [hsafe]⟩

theorem of_quiet (h : x.Quiet y) : x.LeavesSafe y where
  d := h.d
  rd := fun a ha => h.rd a ((by unfold Counted; decide : ∀ a ∈ safeRegs, ¬Counted a) a ha)
  causes := by rw [h.me]
  faultLow := by rw [h.me]

theorem of_wr (x : Side) {r : Nat} (v : Word) (hr : OffSafe r) : x.LeavesSafe (x.wr r v) :=
  ⟨rfl, fun _ ha => x.rd_wr_ne v (hr.ne ha), rfl, rfl⟩

theorem ite {b : Bool} (hy : x.LeavesSafe y) (hz : x.LeavesSafe z) : x.LeavesSafe (if b then y else z) := by
  cases b
  · exact hz
  · exact hy

/-- What holds of every step holds of a run over a list. -/
theorem foldl {α : Type} {f : Side → α → Side} (l : List α) (h : ∀ y : Side, ∀ k ∈ l, y.LeavesSafe (f y k)) (x : Side) :
    x.LeavesSafe (l.foldl f x) := by
  induction l generalizing x with
  | nil => exact .refl x
  | cons k l ih => exact (h x k List.mem_cons_self).trans (ih (fun y j hj => h y j (List.mem_cons_of_mem _ hj)) _)

end Side.LeavesSafe

/-! ## The parts of the entry -/

theorem Side.engines_lt {x : Side} {st e : Nat} (h : e ∈ x.engines st) : e < 8 :=
  List.mem_range.mp (List.mem_of_mem_filter h)

theorem Side.modStl_leavesSafe (x : Side) (st : Nat) (f : StallSt → StallSt) : x.LeavesSafe (x.modStl st f) := .of_regs rfl rfl rfl

theorem Side.modEng_leavesSafe (x : Side) (e : Nat) (f : EngSt → EngSt) : x.LeavesSafe (x.modEng e f) := .of_regs rfl rfl rfl

theorem Side.modPort_leavesSafe (x : Side) (p : Nat) (f : PortSt → PortSt) : x.LeavesSafe (x.modPort p f) := .of_regs rfl rfl rfl

theorem Side.dropRun_leavesSafe (x : Side) {e : Nat} (he : e < 8) : x.LeavesSafe (x.dropRun e) := by
  have hstop : x.LeavesSafe (x.setTe e 2) := .of_wr x _ (offSafe_inst (by decide) he)
  have hpromote : ∀ y : Side, y.LeavesSafe (y.promote e) := fun y => .ite (y.modEng_leavesSafe _ _) (.refl y)
  unfold Side.dropRun
  refine Side.LeavesSafe.trans (Side.LeavesSafe.trans ?_ (Side.modEng_leavesSafe _ _ _)) (hpromote _)
  split
  · exact hstop
  · exact .refl x

theorem Side.trimAlloc_leavesSafe (x : Side) (st : Nat) (l : List (Nat × Nat × Nat)) : x.LeavesSafe (x.trimAlloc st l) :=
  .foldl l (fun y a _ => (Side.modStl_leavesSafe y st _).trans (.of_quiet (Side.count_quiet _ Ct.BSQ_PAGES_TRIMMED _))) x

theorem Side.clearSb_leavesSafe (x : Side) {st : Nat} (hst : st < 8) : x.LeavesSafe (x.clearSb st) := by
  have hword : ∀ w < 8, OffSafe ((Reg.PSQ_SB.inst st).el 4 w) ∧ OffSafe ((Reg.PSQ_SBT.inst st).el 4 w) := fun w hw =>
    ⟨.inl (show 0x180090 + 0x1000 * st + 4 * w < 0x480000 by omega),
     .inl (show 0x1800B0 + 0x1000 * st + 4 * w < 0x480000 by omega)⟩
  refine (x.modStl_leavesSafe st _).trans (.foldl _ (fun y w hw => ?_) _)
  obtain ⟨hsb, hsbt⟩ := hword w (List.mem_range.mp hw)
  exact (Side.LeavesSafe.of_wr y 0 hsb).trans (.of_wr _ 0 hsbt)

theorem Side.dropStep_leavesSafe (x : Side) {st : Nat} (hst : st < 8) : x.LeavesSafe (x.dropStep st) := by
  unfold Side.dropStep
  split
  · exact .refl x
  · refine (Side.LeavesSafe.trans ?_ ((Side.trimAlloc_leavesSafe _ _ _).trans (Side.modStl_leavesSafe _ _ _))).trans
      (Side.clearSb_leavesSafe _ hst)
    exact .foldl _ (fun y e he => .ite (y.dropRun_leavesSafe (Side.engines_lt he)) (.refl y)) x

theorem Side.haltStall_leavesSafe (x : Side) {i : Nat} (hi : i < 8) : x.LeavesSafe (x.haltStall i) := by
  have hpsq : ∀ (y : Side) (v : Word), y.LeavesSafe (y.wr (Reg.PSQ_STAT.inst i) v) := fun y v => .of_wr y v (offSafe_inst (by decide) hi)
  have hbsq : ∀ (y : Side) (v : Word), y.LeavesSafe (y.wr (Reg.BSQ_STAT.inst i) v) := fun y v => .of_wr y v (offSafe_inst (by decide) hi)
  unfold Side.haltStall
  extract_lets y
  have hy : x.LeavesSafe y :=
    .ite (((hpsq x _).trans (hpsq _ _)).trans (.of_quiet (Side.raise_quiet _ _ _))) (.ite (x.modStl_leavesSafe _ _) (.refl x))
  refine hy.trans ?_
  split
  · exact (y.dropStep_leavesSafe hi).trans (hbsq _ _)
  · exact .refl y

theorem Side.disarmAv_leavesSafe (x : Side) (k : Nat) : x.LeavesSafe (x.disarmAv k) :=
  .of_wr x _ (.inr (show 0x480084 ≤ 0x48010C + 0x10 * k by omega))

theorem Side.countN_leavesSafe (c : Ct) (i : Nat) (hc : c.n < 32) : ∀ (n : Nat) (x : Side), x.LeavesSafe (x.countN c i n)
  | 0, x => .refl x
  | n + 1, x => (Side.LeavesSafe.of_quiet (x.count_quiet c i hc)).trans (Side.countN_leavesSafe c i hc n _)

/-- A change of the SAFE block's state beside the causes and FAULT_x_N. -/
theorem Side.modSafe_leavesSafe (x : Side) {f : SafeSt → SafeSt} (hc : (f x.me.safe).causes = x.me.safe.causes)
    (hf : (f x.me.safe).faultLow = x.me.safe.faultLow) : x.LeavesSafe (x.modSafe f) := ⟨rfl, fun _ _ => rfl, hc, hf⟩

theorem Side.modRec_leavesSafe (x : Side) (f : RecSt → RecSt) : x.LeavesSafe (x.modRec f) := .of_regs rfl rfl rfl

theorem Side.markResults_leavesSafe (x : Side) : x.LeavesSafe x.markResults := by
  unfold Side.markResults
  extract_lets tags y watched av
  have hports : x.LeavesSafe y :=
    .foldl (f := fun z p => z.modPort p fun s => { s with queue := s.queue.map markResult }) _ (fun z p _ => z.modPort_leavesSafe p _) x
  exact hports.trans (y.modSafe_leavesSafe (f := fun s => { s with av := av }) rfl rfl)

theorem Side.netSafe_leavesSafe (x : Side) : x.LeavesSafe x.netSafe := by
  unfold Side.netSafe
  extract_lets y
  refine x.markResults_leavesSafe.trans (.foldl _ (fun z p _ => ?_) y)
  extract_lets q z'
  exact (z.modPort_leavesSafe _ _).trans (Side.countN_leavesSafe Ct.NET_STOMPED _ (by decide) _ z')

theorem Side.faultMessage_leavesSafe (x : Side) (kind : Nat) (t : Trigger) : x.LeavesSafe (x.faultMessage kind t) := by
  unfold Side.faultMessage
  extract_lets r
  exact (Side.modSafe_leavesSafe x rfl rfl).trans (.of_quiet (Side.record_quiet _ _ _ _))

theorem Side.snapshot_leavesSafe (x : Side) : x.LeavesSafe x.snapshot := by
  unfold Side.snapshot
  extract_lets n
  split
  · exact .refl x
  · exact .of_regs rfl rfl rfl

theorem Side.endReplay_leavesSafe (x : Side) (result : Nat) : x.LeavesSafe (x.endReplay result) := by
  have hdrop : x.LeavesSafe x.dropReplay := by
    unfold Side.dropReplay
    exact (x.modRec_leavesSafe fun c => { c with replay := none }).trans (.of_wr _ _ (r := Reg.REC_CTRL) (.inr (by decide)))
  unfold Side.endReplay
  split
  · exact .refl x
  · extract_lets y
    split
    · exact hdrop.trans (.of_quiet (Side.complete_quiet _ _ _ _ _ _))
    · exact hdrop

theorem Side.cutReplay_leavesSafe (x : Side) : x.LeavesSafe x.cutReplay := by
  unfold Side.cutReplay
  split
  · exact .refl x
  next r _ =>
    refine Side.LeavesSafe.trans ?_ (Side.endReplay_leavesSafe _ _)
    split
    · exact (x.modRec_leavesSafe fun c => { c with replay := some { r with frames := r.frames - 1 } }).trans
        (.of_wr _ _ (r := Ct.REC_REPLAY_FRAMES.reg) (.inr (by decide)))
    · exact .refl x

/-! ## Triggers -/

/-- The channel is in SAFE since the entry with a class at a VT. -/
structure Side.Entered (cls vt : Nat) (x : Side) : Prop where
  state : x.safeState = 2
  cls : x.field Reg.SAFE_STAT 10 3 = cls
  vt : x.rd64 Reg.SAFE_ENTER_VT = vt
  low : x.me.safe.faultLow = true

/-- RECOVERABLE is apart from the fields of the entry. -/
theorem Side.fld_updRecoverable (x : Side) {hi lo : Nat} (h : hi < 16) :
    x.updRecoverable.field Reg.SAFE_STAT hi lo = x.field Reg.SAFE_STAT hi lo := by
  rw [Side.updRecoverable, Side.setFlag, Side.field, Side.rd_wr_same]
  exact fld_setFld_apart _ _ (by omega) (.inl h)

theorem Side.rd64_updRecoverable (x : Side) : x.updRecoverable.rd64 Reg.SAFE_ENTER_VT = x.rd64 Reg.SAFE_ENTER_VT := by
  simp only [Side.updRecoverable, Side.setFlag, Side.rd64, Side.rdN]
  rw [Side.rd_wr_ne _ _ (by decide), Side.rd_wr_ne _ _ (by decide)]

theorem Side.Entered.updRecoverable {cls vt : Nat} {x : Side} (h : x.Entered cls vt) : x.updRecoverable.Entered cls vt :=
  ⟨(x.fld_updRecoverable (by decide)).trans h.state, (x.fld_updRecoverable (by decide)).trans h.cls, x.rd64_updRecoverable.trans h.vt,
    h.low⟩

/-- What a trigger adds in SAFE: its cause, and the fault reset that is due for one that does not recover. -/
def Side.addCause (x : Side) (t : Trigger) : Side :=
  (x.modSafe fun s => { s with causes := s.causes ++ [(t, false)], resetDue := s.resetDue || !recoverable t.cls }).updRecoverable

theorem Side.addCause_causes (x : Side) (t : Trigger) : (x.addCause t).me.safe.causes = x.me.safe.causes ++ [(t, false)] := rfl

theorem Side.addCause_fired (x : Side) (t : Trigger) : (x.addCause t).me.fired = x.me.fired := rfl

/-- RECOVERABLE alone moves of SAFE_STAT. -/
theorem Side.field_addCause (x : Side) (t : Trigger) {hi lo : Nat} (h : hi < 16) :
    (x.addCause t).field Reg.SAFE_STAT hi lo = x.field Reg.SAFE_STAT hi lo := Side.fld_updRecoverable _ h

theorem Side.enterSafe_of_safe {x : Side} (t : Trigger) (h : x.safeState = 2) : x.enterSafe t = x.addCause t := by
  unfold Side.enterSafe
  rw [if_neg (by omega), if_pos h]
  rfl

/-- The channel stays in SAFE since that entry whatever else fires. -/
theorem Side.Entered.enterSafe {cls vt : Nat} {x : Side} (h : x.Entered cls vt) (t : Trigger) : (x.enterSafe t).Entered cls vt := by
  rw [Side.enterSafe_of_safe t h.state]
  exact Side.Entered.updRecoverable ⟨h.state, h.cls, h.vt, h.low⟩

theorem Side.Entered.foldl {cls vt : Nat} (l : List Trigger) {x : Side} (h : x.Entered cls vt) :
    (l.foldl Side.enterSafe x).Entered cls vt := by
  induction l generalizing x with
  | nil => exact h
  | cons t l ih => exact ih (h.enterSafe t)

theorem Side.Entered.of_leaves {cls vt : Nat} {x y : Side} (h : x.Entered cls vt) (k : x.LeavesSafe y) : y.Entered cls vt where
  state := (congrArg (fld · 2 0) (k.rd Reg.SAFE_STAT (by decide))).trans h.state
  cls := (congrArg (fld · 10 3) (k.rd Reg.SAFE_STAT (by decide))).trans h.cls
  vt := by
    rw [Side.rd64, Side.rdN, Side.rdN, k.rd _ (by decide), k.rd _ (by decide)]
    exact h.vt
  low := k.faultLow.trans h.low

/-- The registers of the entry with FAULT_x_N driven low. -/
theorem Side.entered_modSafe {cls vt : Nat} {x : Side} {f : SafeSt → SafeSt} (hstate : x.safeState = 2)
    (hcls : x.field Reg.SAFE_STAT 10 3 = cls) (hvt : x.rd64 Reg.SAFE_ENTER_VT = vt) (hlow : (f x.me.safe).faultLow = true) :
    (x.modSafe f).Entered cls vt := ⟨hstate, hcls, hvt, hlow⟩

/-- A 64-bit value in two words. -/
theorem toNat_words64 (n : Nat) : (word n).toNat + 2 ^ 32 * (word (n / 2 ^ 32)).toNat = n % 2 ^ 64 := by
  rw [word, word, BitVec.toNat_ofNat, BitVec.toNat_ofNat]
  omega

/-- A trigger that fires in INIT or NORMAL enters SAFE. -/
theorem Side.enterSafe_of_below {x : Side} {t : Trigger} (h : x.safeState < 2) (hcls : t.cls < 256) :
    (x.enterSafe t).Entered t.cls (x.vt % 2 ^ 64) := by
  unfold Side.enterSafe
  rw [if_neg (by omega), if_neg (by omega)]
  extract_lets y1 y2 y3 y4 y5
  have hcount : (y1.wr64 Reg.SAFE_ENTER_VT y1.vt).LeavesSafe y2 := .of_quiet (Side.count_quiet _ Ct.SAFE_ENTRIES 0)
  have hword : (y1.wr64 Reg.SAFE_ENTER_VT y1.vt).rd Reg.SAFE_STAT =
      setFld (setFld (x.rd Reg.SAFE_STAT) 2 0 2) 10 3 t.cls := by
    rw [Side.wr64, Side.rd_wr_ne _ _ (by decide), Side.rd_wr_ne _ _ (by decide)]
    simp only [y1, Side.setField, Side.rd_wr_same]
  have hvt : (y1.wr64 Reg.SAFE_ENTER_VT y1.vt).rd64 Reg.SAFE_ENTER_VT = x.vt % 2 ^ 64 := by
    rw [Side.rd64, Side.rdN, Side.rdN, Side.wr64, Side.rd_wr_same, Side.rd_wr_ne _ _ (by decide), Side.rd_wr_same]
    exact toNat_words64 x.vt
  have hentered : y3.Entered t.cls (x.vt % 2 ^ 64) := by
    refine Side.entered_modSafe ?_ ?_ ?_ rfl
    · rw [Side.safeState, Side.field, hcount.rd _ (by decide), hword, fld_setFld_apart _ _ (by decide) (by decide),
        fld_setFld_same _ _ (by decide)]
      decide
    · rw [Side.field, hcount.rd _ (by decide), hword, fld_setFld_same _ _ (by decide)]
      exact Nat.mod_eq_of_lt hcls
    · rw [← hvt, Side.rd64, Side.rd64, Side.rdN, Side.rdN, hcount.rd _ (by decide), hcount.rd _ (by decide)]
      rfl
  have hhalt : y3.updRecoverable.LeavesSafe y4 := .foldl _ (fun z i hi => z.haltStall_leavesSafe (List.mem_range.mp hi)) _
  have hnet : y4.LeavesSafe y5 := Side.LeavesSafe.trans (.foldl _ (fun z k _ => z.disarmAv_leavesSafe k) y4) (Side.netSafe_leavesSafe _)
  have hend : y5.LeavesSafe _ := (((y5.faultMessage_leavesSafe 0 t).trans (Side.snapshot_leavesSafe _)).trans
    (Side.cutReplay_leavesSafe _)).trans (.of_quiet (Side.raise_quiet _ Ev.SAFE_ENTER 0))
  exact ((hentered.updRecoverable.of_leaves hhalt).of_leaves hnet).of_leaves hend

/-- Several triggers in SAFE add their causes in order. -/
theorem Side.foldl_enterSafe_of_safe (l : List Trigger) {x : Side} (h : x.safeState = 2) :
    (l.foldl Side.enterSafe x).safeState = 2 ∧ (l.foldl Side.enterSafe x).field Reg.SAFE_STAT 10 3 = x.field Reg.SAFE_STAT 10 3 ∧
      (l.foldl Side.enterSafe x).me.safe.causes = x.me.safe.causes ++ l.map (fun e => (e, false)) ∧
      (l.foldl Side.enterSafe x).me.fired = x.me.fired := by
  induction l generalizing x with
  | nil => exact ⟨h, rfl, (List.append_nil _).symm, rfl⟩
  | cons t l ih =>
    rw [List.foldl_cons, Side.enterSafe_of_safe t h]
    have hsafe : (x.addCause t).safeState = 2 := (x.field_addCause t (by decide)).trans h
    obtain ⟨hstate, hcls, hcauses, hfired⟩ := ih hsafe
    refine ⟨hstate, hcls.trans (x.field_addCause t (by decide)), ?_, hfired.trans (x.addCause_fired t)⟩
    rw [hcauses, x.addCause_causes, List.append_assoc]; rfl

/-- In FENCED no trigger acts. -/
theorem Side.foldl_enterSafe_of_fenced (l : List Trigger) {x : Side} (h : x.safeState = 3) : l.foldl Side.enterSafe x = x := by
  induction l with
  | nil => rfl
  | cons t l ih =>
    have ht : x.enterSafe t = x := by unfold Side.enterSafe; rw [if_pos h]
    rw [List.foldl_cons, ht, ih]

/-- How the triggers that have fired are entered. -/
theorem Side.settle_of_cons {x : Side} {t : Trigger} {l : List Trigger} (h : x.me.fired = t :: l) :
    ∃ y, y = (t :: l).foldl Side.enterSafe { x with me := { x.me with fired := [] } } ∧
      x.settle = { y.me.fired.foldl Side.enterSafe { y with me := { y.me with fired := [] } } with
        me := { (y.me.fired.foldl Side.enterSafe { y with me := { y.me with fired := [] } }).me with fired := [] } } :=
  ⟨_, rfl, by simp only [Side.settle, h]⟩

/-- Settles O59: the first trigger enters and the others, in SAFE, add their causes; in SAFE nothing more fires; in FENCED none acts. -/
theorem triggersEnterSafe : Obligations.TriggersEnterSafe := by
  unfold Obligations.TriggersEnterSafe
  intro x t l hfired hcls
  obtain ⟨y, hy, hsettle⟩ := Side.settle_of_cons hfired
  refine ⟨fun hbelow => ?enters, fun hsafe => ?adds, fun hfenced => ?nothing⟩
  case enters =>
    have hentered : y.Entered t.cls (x.vt % 2 ^ 64) := by
      rw [hy, List.foldl_cons]
      exact (Side.enterSafe_of_below (x := { x with me := { x.me with fired := [] } }) hbelow hcls).foldl l
    have hagain := Side.Entered.foldl y.me.fired (x := { y with me := { y.me with fired := [] } })
      ⟨hentered.state, hentered.cls, hentered.vt, hentered.low⟩
    rw [hsettle]
    exact ⟨hagain.state, hagain.cls, hagain.vt, hagain.low, rfl⟩
  case adds =>
    obtain ⟨hstate, hclass, hcauses, hnone⟩ :=
      Side.foldl_enterSafe_of_safe (t :: l) (x := { x with me := { x.me with fired := [] } }) hsafe
    rw [← hy] at hstate hclass hcauses hnone
    rw [hsettle, hnone]
    exact ⟨hstate, hclass, hcauses⟩
  case nothing =>
    have hsame : y = { x with me := { x.me with fired := [] } } :=
      hy.trans (Side.foldl_enterSafe_of_fenced _ (x := { x with me := { x.me with fired := [] } }) hfenced)
    rw [hsettle, hsame]
    rfl

end Sys2Proof.Machine
end

section
/-!
SUPPORT. Writes of the head of a page, on the die and toward each channel that a page of the hub serves (R828, R868 to R884).
-/

namespace Sys2Proof.Machine

/-- The head commands of a page with the register that each writes and what it does. -/
def headCommands (n : Now) (d : Ch) (w : Init) (hub : Bool) (page : Nat) (v u : Word) (set : Bool) :
    List (Instr × Reg × (Nat → Nat → Side → Side)) :=
  [(.blkQuiesce n d w hub page set, Reg.BLK_CTRL, Side.ctrlQuiesce hub set),
    (.blkDisable n d w hub page v, Reg.BLK_CTRL, Side.writeBlkCtrl hub (v &&& ~~~1#32)),
    (.softReset n d w hub page, Reg.BLK_CTRL, Side.ctrlReset hub),
    (.evtRawClear n d w hub page v u, Reg.EVT_RAW, Side.writeEvtRaw hub v u),
    (.evtEnWrite n d w hub page v, Reg.EVT_EN, Side.writeEvtEn hub v),
    (.evtSet n d w hub page v, Reg.EVT_SET, Side.writeEvtSet hub v),
    (.cntOvfClear n d w hub page v u, Reg.CNT_OVF, Side.writeCntOvf hub v u),
    (.lock n d w hub page, Reg.LOCK, Side.writeLock hub 1)]

/-- Each of them is a write of its register of the page. -/
theorem exec_of_headCommand {n : Now} {d : Ch} {w : Init} {hub : Bool} {page : Nat} {v u : Word} {set : Bool} (s : State) :
    ∀ e ∈ headCommands n d w hub page v u set, exec e.1 s = onPage n d w hub page e.2.1 e.2.2 s := by
  simp only [headCommands, List.forall_mem_cons]
  exact ⟨rfl, rfl, rfl, rfl, rfl, rfl, rfl, rfl, fun _ h => absurd h List.not_mem_nil⟩

section
variable {n : Now} {d : Ch} {w : Init} {page t i : Nat} {r : Reg} {s : State}

/-- A permitted write of a page of the die. -/
theorem onPage_die (f : Nat → Nat → Side → Side) (hpage : pageNamed false page = some (t, i)) (hl : (s.at_ n d).live = true)
    (hmay : (s.at_ n d).may w (headReg t i r) = true) :
    onPage n d w false page r f s = .next (s.ends n d fun x => (f t i x).drive (headReg t i r / 0x40000)) := by
  simp only [onPage, hpage, Bool.false_eq_true, if_false]
  exact onLive_ends hl (Side.access_of_may hmay _)

/-- A permitted write of a page of the hub. -/
theorem onPage_hub (f : Nat → Nat → Side → Side) (hpage : pageNamed true page = some (t, i))
    (hmay : (s.at_ n d).hmay w (headReg t i r) = true) :
    onPage n d w true page r f s = .next ((s.elapse n).onServed t i (f t i)) := by
  simp only [Side.hmay, Bool.and_eq_true] at hmay
  obtain ⟨⟨hreaches, hon⟩, hpermits⟩ := hmay
  have hreaches' : ((s.elapse n).side d).reachesHub w = true := hreaches
  have hon' : ((s.elapse n).side d).hubPageOn (headReg t i r) = true := hon
  have hpermits' : ((s.elapse n).side d).hpermits w (headReg t i r) = true := hpermits
  simp only [onPage, hpage, hreaches', hon', hpermits', Bool.not_true, Bool.or_self, Bool.false_eq_true, if_false, if_true]

end

/-- Settles O45: each command is a write of its head register; WORLD and LOCK let it pass. -/
theorem pageHeadsComplete : Obligations.PageHeadsComplete := by
  unfold Obligations.PageHeadsComplete
  intro s n d w hub page t i v u set hpage e he
  rw [exec_of_headCommand s e he]
  refine ⟨fun hdie hl hmay => ?die, fun hhub hmay => ?hub⟩
  case die =>
    subst hdie
    exact onPage_die _ hpage hl hmay
  case hub =>
    subst hhub
    exact onPage_hub _ hpage hmay

end Sys2Proof.Machine
end

section
/-!
SUPPORT. Register writes of the die: a write of a place with a command of its own accesses that place, as every other one does;
where the page does not answer nothing happens, and where WORLD or LOCK refuses the write it is counted (R861, R864, R871, R873).
-/

namespace Sys2Proof.Machine

section
variable {n : Now} {d : Ch} {w : Init} {s : State}

/-- A command is a guarded write of the register at `off`. -/
def Accesses (n : Now) (d : Ch) (w : Init) (off : Nat) (s : State) (f : State → Host.Outcome State Fault Refusal) : Prop :=
  ∃ g : Side → Side, f s = onLive n d (fun x => x.access w off g) s

/-- A guarded write of a register that lies there. -/
theorem accesses_of_eq {a off : Nat} (h : a = off) (g : Side → Side) :
    Accesses n d w off s (onLive n d fun x => x.access w a g) := ⟨g, h ▸ rfl⟩

/-- A head register's command accesses that register. -/
theorem headWrite_accesses {t i o off : Nat} {v : Word} {f : State → Host.Outcome State Fault Refusal} (hi : i < pagesOnDie t)
    (hi64 : i < 64) (hoff : off = headReg t i o) (h : headWrite n d w false (off / 0x1000) o v = some f) : Accesses n d w off s f := by
  have hpage : pageNamed false (off / 0x1000) = some (t, i) := by
    have ho : o < 0x1000 := by
      unfold headWrite at h
      split_ifs at h <;> subst_vars <;> decide
    have hplace : off = t * 0x40000 + 0x1000 * i + o := hoff
    have ht : off / 0x1000 / 64 = t := by omega
    have hi' : off / 0x1000 % 64 = i := by omega
    simp only [pageNamed, ht, hi', hi, Bool.false_eq_true, if_false, if_true]
  have hwrite (r : Reg) (g : Nat → Nat → Side → Side) (hr : o = r) : Accesses n d w off s (onPage n d w false (off / 0x1000) r g) := by
    subst hr
    refine ⟨g t i, ?_⟩
    simp only [onPage, hpage, Bool.false_eq_true, if_false]
    rw [hoff]
  unfold headWrite at h
  split_ifs at h with h1 h2 h3 h4 h5 h6
  all_goals cases h
  · exact hwrite _ _ h1
  · exact hwrite _ _ h2
  · exact hwrite _ _ h3
  · exact hwrite _ _ h4
  · exact hwrite _ _ h5
  · exact hwrite _ _ h6

/-- The registers of TIME, CAD and FUS. -/
theorem timeWrite_accesses {t i o off : Nat} {v : Word} {f : State → Host.Outcome State Fault Refusal}
    (hoff : off = t * 0x40000 + 0x1000 * i + o) (hi : i < pagesOnDie t) (h : timeWrite n d w t o v = some f) : Accesses n d w off s f := by
  unfold timeWrite at h
  dsimp only at h
  split_ifs at h with ht h48 h80 hrole ht happly hctrl hfsync hcfg hdelay hwidth hlock hgate ht hfus hswap
  all_goals
    cases h
    simp only [T.TIME, T.CAD, T.FUS] at ht
    have hi : i < 1 := by subst ht; exact hi
  · exact accesses_of_eq (show 0x40048 = off by omega) _
  · exact accesses_of_eq (show 0x40080 = off by omega) _
  · simp only [Bool.and_eq_true, decide_eq_true_eq] at hrole
    exact accesses_of_eq (show 0x4020C + 0x10 * ((o - 0x200) / 0x10 % 8) = off by omega) _
  · exact accesses_of_eq (show 0x80048 = off by omega) _
  · exact accesses_of_eq (show 0x80040 = off by omega) _
  · simp only [Bool.and_eq_true, decide_eq_true_eq] at hfsync
    exact accesses_of_eq (show 0x80080 + 0x10 * ((o - 0x80) / 0x10 % 8) = off by omega) _
  · simp only [Bool.and_eq_true, decide_eq_true_eq] at hfsync
    exact accesses_of_eq (show 0x80080 + 0x10 * ((o - 0x80) / 0x10 % 8) + 4 = off by omega) _
  · simp only [Bool.and_eq_true, decide_eq_true_eq] at hfsync
    exact accesses_of_eq (show 0x80080 + 0x10 * ((o - 0x80) / 0x10 % 8) + 8 = off by omega) _
  · simp only [Bool.and_eq_true, decide_eq_true_eq] at hlock
    exact accesses_of_eq (show 0x80100 + 8 * ((o - 0x100) / 8 % 4) = off by omega) _
  · exact accesses_of_eq (show 0x80120 = off by omega) _
  · exact accesses_of_eq (show 0x100040 = off by omega) _
  · exact accesses_of_eq (show 0x100060 = off by omega) _

/-- A register of a telltale region lies at the offset of its kind. -/
theorem ttRegOf_offset {k : Nat} {q : TtReg} (h : ttRegOf k = some q) (p r : Nat) :
    ttReg p r q = 0x380100 + k + 0x1000 * (4 + p) + 0x20 * r := by
  unfold ttRegOf at h
  split at h <;> cases h <;> rfl

/-- So does a register of a window of the bridge. -/
theorem winRegOf_offset {k : Nat} {q : WindowReg} (h : winRegOf k = some q) (win : Nat) :
    windowReg win q = 0x440100 + k + 0x10 * win := by
  unfold winRegOf at h
  split at h <;> cases h <;> rfl

/-- The registers of BRDL, DPY, NET, CANG and CBB; the bridge's semaphores have a rule of their own. -/
theorem portWrite_accesses {t i o off : Nat} {v : Word} {f : State → Host.Outcome State Fault Refusal}
    (hoff : off = t * 0x40000 + 0x1000 * i + o) (hi : i < pagesOnDie t) (h : portWrite n d w t i o v = some f) :
    Accesses n d w off s f ∨ (Reg.CBB_SEM ≤ off ∧ off < Reg.CBB_SEM + 16) ∧ ∃ k c, f = execCbbSemRelease n d k c v := by
  unfold portWrite at h
  split_ifs at h with ht hmaxlat ht hpipe hctrl hflip htt ht himg ht hrec ht hs hwin
  all_goals simp only [T.BRDL, T.DPY, T.NET, T.CANG, T.CBB] at ht
  · simp only [Bool.and_eq_true, decide_eq_true_eq] at hmaxlat
    cases h
    exact .inl <| accesses_of_eq (show 0x300064 + 0x1000 * (i % 20) = off by omega) _
  · cases h
    exact .inl <| accesses_of_eq (show 0x380040 + 0x1000 * (i % 4) = off by omega) _
  · simp only [Bool.and_eq_true, decide_eq_true_eq] at hflip
    cases h
    exact .inl <| accesses_of_eq (show 0x380118 + 0x1000 * (i % 4) + 0x20 * ((o - 0x100) / 0x20 % 6) = off by omega) _
  · simp only [Bool.and_eq_true, decide_eq_true_eq] at htt
    obtain ⟨q, hq, rfl⟩ := Option.map_eq_some_iff.mp h
    subst ht
    have hi8 : i < 8 := hi
    exact .inl <| accesses_of_eq ((ttRegOf_offset hq _ _).trans
      (show 0x380100 + o % 0x20 + 0x1000 * (4 + (i - 4) % 4) + 0x20 * ((o - 0x100) / 0x20 % 16) = off by omega)) _
  · simp only [Bool.and_eq_true, decide_eq_true_eq] at himg
    cases h
    exact .inl <| accesses_of_eq (show 0x3C004C + 0x1000 * 9 = off by omega) _
  · simp only [Bool.and_eq_true, decide_eq_true_eq] at hrec
    cases h
    exact .inl <| accesses_of_eq (show 0x400054 + 0x1000 * (i % 16) = off by omega) _
  · simp only [Bool.and_eq_true, decide_eq_true_eq] at hs
    subst ht
    have hi1 : i < 1 := hi
    obtain ⟨k, -, rfl⟩ := Option.map_eq_some_iff.mp h
    exact .inr ⟨show 0x440050 ≤ off ∧ off < 0x440050 + 16 by omega, _, _, rfl⟩
  · simp only [Bool.and_eq_true, decide_eq_true_eq] at hwin
    obtain ⟨q, hq, rfl⟩ := Option.map_eq_some_iff.mp h
    subst ht
    have hi1 : i < 1 := hi
    exact .inl <| accesses_of_eq ((winRegOf_offset hq _).trans
      (show 0x440100 + o % 0x10 + 0x10 * ((o - 0x100) / 0x10 % 16) = off by omega)) _

/-- The registers of SAFE, HBX, PWR and REC; the Hatbox's doorbell has a rule of its own. -/
theorem safeWrite_accesses {t i o off : Nat} {v : Word} {f : State → Host.Outcome State Fault Refusal}
    (hoff : off = t * 0x40000 + 0x1000 * i + o) (hi : i < pagesOnDie t) (h : safeWrite n d w t o v = some f) :
    Accesses n d w off s f ∨ off = Reg.HBX_MB_DOOR ∧ f = execHatboxDoorbell n d w v := by
  unfold safeWrite at h
  split_ifs at h with ht hkick hready henter hrelease hav ht hbell ht hreq ht hrec
  all_goals
    cases h
    simp only [T.SAFE, T.HBX, T.PWR, T.REC] at ht
    have hi : i < 1 := by subst ht; exact hi
  · exact .inl <| accesses_of_eq (show 0x480048 = off by omega) _
  · exact .inl <| accesses_of_eq (show 0x48004C = off by omega) _
  · exact .inl <| accesses_of_eq (show 0x480050 = off by omega) _
  · exact .inl <| accesses_of_eq (show 0x480054 = off by omega) _
  · simp only [Bool.and_eq_true, decide_eq_true_eq] at hav
    exact .inl <| accesses_of_eq (show 0x480100 + 0x10 * ((o - 0x100) / 0x10 % 16) = off by omega) _
  · exact .inr ⟨show off = 0x500048 by omega, rfl⟩
  · exact .inl <| accesses_of_eq (show 0x540044 = off by omega) _
  · exact .inl <| accesses_of_eq (show 0x640040 = off by omega) _

/-- Every other register of the die, but for OWNER, LOFT_CFG, the sealed regions and the mailbox slots. -/
theorem writeOther_accesses {off : Nat} (v : Word) (howner : off % 0x1000 ≠ Reg.OWNER) (hcfg : off ≠ Reg.LOFT_CFG)
    (hseal : ¬(Reg.LOFT_SEAL ≤ off ∧ off < Reg.LOFT_SEAL + 32)) (hslot : isSlot off = false) :
    Accesses n d w off s (onLive n d fun x => x.writeOther w off v) := by
  have hseal' : (decide (Reg.LOFT_SEAL ≤ off) && decide (off < Reg.LOFT_SEAL + 32) && w != .hatbox) = false := by
    rw [Bool.and_eq_false_iff, ← Bool.not_eq_true, Bool.and_eq_true, decide_eq_true_eq, decide_eq_true_eq]
    exact .inl hseal
  by_cases hpin : off % 0x1000 = Reg.EVT_PIN
  · exact ⟨fun x => x.store off (v &&& eventMask (off / 0x40000)), by
      simp only [Side.writeOther, if_neg howner, hcfg, hseal', hslot, if_pos hpin, Bool.false_eq_true, if_false]⟩
  · exact ⟨fun x => x.writeReg off v, by
      simp only [Side.writeOther, howner, hcfg, hseal', hslot, hpin, Bool.false_eq_true, if_false]⟩

/-- The command of its own that a place of the die has, of its page's head or of its block. -/
def dieCommand (n : Now) (d : Ch) (w : Init) (off : Nat) (v : Word) : Option (State → Host.Outcome State Fault Refusal) :=
  (headWrite n d w false (off / 0x1000) (off % 0x1000) v).or ((timeWrite n d w (off / 0x40000) (off % 0x1000) v).or
    ((portWrite n d w (off / 0x40000) (off % 0x40000 / 0x1000) (off % 0x1000) v).or (safeWrite n d w (off / 0x40000) (off % 0x1000) v)))

section
variable {off : Nat} {v : Word}

/-- A write where nothing is implemented. -/
theorem writeDie_of_absent
    (h : pagesOnDie (off / 0x40000) ≤ off % 0x40000 / 0x1000 ∨ (rowAt off).isSome = false ∧ isSlot off = false) :
    writeDie n d w off v s = .next (s.elapse n) := by
  have hguard : (decide (pagesOnDie (off / 0x40000) ≤ off % 0x40000 / 0x1000) || ((rowAt off).isNone && !isSlot off)) = true := by
    rw [Bool.or_eq_true, decide_eq_true_eq]
    refine h.imp id fun ⟨hrow, hslot⟩ => ?_
    rw [← Option.not_isSome, hrow, hslot]; rfl
  exact if_pos hguard

/-- The place is implemented. -/
def Implemented (off : Nat) : Prop :=
  off % 0x40000 / 0x1000 < pagesOnDie (off / 0x40000) ∧ ((rowAt off).isSome = true ∨ isSlot off = true)

theorem Implemented.guard (h : Implemented off) :
    ¬(decide (pagesOnDie (off / 0x40000) ≤ off % 0x40000 / 0x1000) || ((rowAt off).isNone && !isSlot off)) = true := by
  obtain ⟨hpage, h⟩ := h
  rw [decide_eq_false (Nat.not_le.mpr hpage), ← Option.not_isSome]
  rcases h with h | h <;> simp [h]

/-- A write of a place with a command of its own is that command. -/
theorem writeDie_of_command (hoff : Implemented off) {f : State → Host.Outcome State Fault Refusal}
    (h : dieCommand n d w off v = some f) : writeDie n d w off v s = f s := by
  refine (if_neg hoff.guard).trans ?_
  unfold dieCommand at h
  cases hhead : headWrite n d w false (off / 0x1000) (off % 0x1000) v with
  | some g =>
    rw [hhead, Option.some_or] at h
    exact congrFun (Option.some.inj h) s
  | none =>
    rw [hhead, Option.none_or] at h
    dsimp only
    rw [h]

/-- A write of any other place follows the rest of the page's rules. -/
theorem writeDie_of_other (hoff : Implemented off) (h : dieCommand n d w off v = none) :
    writeDie n d w off v s = onLive n d (fun x => x.writeOther w off v) s := by
  refine (if_neg hoff.guard).trans ?_
  obtain ⟨hhead, hblock⟩ := Option.or_eq_none_iff.mp h
  rw [hhead]
  dsimp only
  rw [hblock]

/-- The commands of their own access their place, but for the bridge's semaphores and the Hatbox's doorbell. -/
theorem dieCommand_accesses (hpage : off % 0x40000 / 0x1000 < pagesOnDie (off / 0x40000))
    {f : State → Host.Outcome State Fault Refusal} (h : dieCommand n d w off v = some f) : Accesses n d w off s f ∨
      ((Reg.CBB_SEM ≤ off ∧ off < Reg.CBB_SEM + 16) ∧ ∃ k c, f = execCbbSemRelease n d k c v) ∨
      off = Reg.HBX_MB_DOOR ∧ f = execHatboxDoorbell n d w v := by
  have hplace : off = off / 0x40000 * 0x40000 + 0x1000 * (off % 0x40000 / 0x1000) + off % 0x1000 := by omega
  simp only [dieCommand, Option.or_eq_some_iff] at h
  rcases h with h | ⟨-, h | ⟨-, h | ⟨-, h⟩⟩⟩
  · exact .inl (headWrite_accesses hpage (by omega) hplace h)
  · exact .inl (timeWrite_accesses hplace hpage h)
  · exact (portWrite_accesses hplace hpage h).imp_right .inl
  · exact (safeWrite_accesses hplace hpage h).imp_right .inr

/-- A write of the die accesses its place, but for those with rules of their own. -/
theorem writeDie_accesses (hpage : off % 0x40000 / 0x1000 < pagesOnDie (off / 0x40000)) (hrow : (rowAt off).isSome = true)
    (howner : off % 0x1000 ≠ Reg.OWNER) (hslot : isSlot off = false) (hdoor : off ≠ Reg.HBX_MB_DOOR) (hcfg : off ≠ Reg.LOFT_CFG)
    (hseal : ¬(Reg.LOFT_SEAL ≤ off ∧ off < Reg.LOFT_SEAL + 32)) (hsem : ¬(Reg.CBB_SEM ≤ off ∧ off < Reg.CBB_SEM + 16)) :
    Accesses n d w off s (writeDie n d w off v) := by
  cases h : dieCommand n d w off v with
  | some f =>
    rcases dieCommand_accesses hpage h with ⟨g, hg⟩ | ⟨hin, -⟩ | ⟨hat, -⟩
    · exact ⟨g, (writeDie_of_command ⟨hpage, .inl hrow⟩ h).trans hg⟩
    · exact absurd hin hsem
    · exact absurd hat hdoor
  | none =>
    obtain ⟨g, hg⟩ := writeOther_accesses (n := n) (d := d) (w := w) (s := s) v howner hcfg hseal hslot
    exact ⟨g, (writeDie_of_other ⟨hpage, .inl hrow⟩ h).trans hg⟩

/-! ## Pages that do not answer -/

/-- A guarded write of a page that does not answer does nothing. -/
theorem Side.access_of_off {x : Side} {a : Reg} (h : x.pageOn a = false) (f : Side → Side) : x.access w a f = x := by
  simp only [Side.access, h, Bool.not_false, if_true]

/-- So does any other write there. -/
theorem Side.writeOther_of_off {x : Side} (h : x.pageOn off = false) : x.writeOther w off v = x := by
  unfold Side.writeOther
  split_ifs with howner hcfg hseal hon hslot hpin
  · simp only [Side.writeOwner, h, Bool.not_false, if_true]
  · subst hcfg
    simp only [Side.writeLoftCfg, h, Bool.not_false, if_true]
  · exact absurd hon (Bool.eq_false_iff.mp h)
  · rfl
  · simp only [Side.writeSlot, h, Bool.not_false, if_true]
  · exact Side.access_of_off h _
  · exact Side.access_of_off h _

/-- Where nothing waits a command that does nothing on a die that runs lets time pass. -/
theorem onLive_of_same {f : Side → Side} (hfired : (s.at_ n d).me.fired = [])
    (h : (s.at_ n d).live = true → f (s.at_ n d) = s.at_ n d) :
    onLive n d f s = .next (s.elapse n) := by
  have hsame : (s.elapse n).onSide d (fun x : Side => if x.live then (f x).settle else x) = (s.elapse n).onSide d id :=
    State.onSide_congr _ d (by
      show (if (s.at_ n d).live = true then (f (s.at_ n d)).settle else s.at_ n d) = s.at_ n d
      split
      · next hl => rw [h hl, Side.settle_of_nil hfired]
      · rfl)
  show Host.Outcome.next _ = _
  rw [hsame]
  cases d <;> rfl

/-- The bridge lies in one domain. -/
theorem Side.pageOn_cbb {x : Side} {a : Reg} (h : a / 0x40000 = T.CBB) : x.pageOn a = (x.live && x.domOn 19) := by
  have hdomain : ∀ i, pageDomain T.CBB i = 19 := fun _ => rfl
  rw [Side.pageOn, h, hdomain]

/-- A write of a page of the die that does not answer does nothing. -/
theorem writeDie_of_off (hfired : (s.at_ n d).me.fired = []) (hoff : (s.at_ n d).pageOn off = false) :
    writeDie n d w off v s = .next (s.elapse n) := by
  by_cases himpl : Implemented off
  · cases h : dieCommand n d w off v with
    | some f =>
      rw [writeDie_of_command himpl h]
      rcases dieCommand_accesses himpl.1 h with ⟨g, hg⟩ | ⟨⟨hlow, hhigh⟩, k, c, rfl⟩ | ⟨hat, rfl⟩
      · exact hg.trans (onLive_of_same hfired fun _ => Side.access_of_off hoff g)
      · have hsem : (s.at_ n d).pageOn Reg.CBB_SEM = false := by
          have htype : off / 0x40000 = T.CBB := by
            have hlow' : 0x440050 ≤ off := hlow
            have hhigh' : off < 0x440060 := hhigh
            show off / 0x40000 = 0x11
            omega
          rw [← hoff, Side.pageOn_cbb rfl, Side.pageOn_cbb htype]
        exact onLive_of_same hfired fun _ => (by simp only [hsem, Bool.false_and, Bool.false_eq_true, if_false])
      · refine onLive_of_same hfired fun hl => ?_
        have hsec : (s.at_ n d).domOn 22 = false := by
          subst hat
          have hpage : ((s.at_ n d).live && (s.at_ n d).domOn 22) = false := hoff
          rwa [hl, Bool.true_and] at hpage
        cases w with
        | pair p => simp only [hsec, Bool.false_and, Bool.false_eq_true, if_false]
        | pf c | hatbox | vf c k => rfl
    | none => exact (writeDie_of_other himpl h).trans (onLive_of_same hfired fun _ => Side.writeOther_of_off hoff)
  · refine writeDie_of_absent ?_
    by_cases hpage : off % 0x40000 / 0x1000 < pagesOnDie (off / 0x40000)
    · rw [← Bool.not_eq_true, ← Bool.not_eq_true, ← not_or]
      exact .inr fun hrow => himpl ⟨hpage, hrow⟩
    · exact .inl (Nat.not_lt.mp hpage)

end

end

end Sys2Proof.Machine
end

section
/-!
SUPPORT. Pages that are absent, unpowered or in reset (R861, R864).
-/

namespace Sys2Proof.Machine

section
variable {n : Now} {d : Ch} {w : Init} {s : State} {off : Nat}

/-- An aligned access by an initiator that reaches the hub is performed. -/
theorem read_guard (hoff : off % 4 = 0) (hreaches : (s.at_ n d).reachesHub w = true) :
    ¬(off % 4 != 0 || !(s.at_ n d).reachesHub w) = true := by
  rw [hoff, hreaches]; decide

/-- An aligned read of the die. -/
theorem exec_readDie (hoff : off % 4 = 0) (hreaches : (s.at_ n d).reachesHub w = true) (hwide : w.wide = true) :
    exec (.lowWordRead n d w .die off) s = .next (s.ends n d fun x => x.readDie w off) :=
  onAny_ends ((if_neg (read_guard hoff hreaches)).trans (if_pos hwide))

/-- An aligned read of the hub. -/
theorem exec_readHub (hoff : off % 4 = 0) (hreaches : (s.at_ n d).reachesHub w = true) (hwide : w.wide = true ∨ vfPage w off = true) :
    exec (.lowWordRead n d w .hub off) s = .next (s.ends n d fun x => x.readHub w off) :=
  onAny_ends ((if_neg (read_guard hoff hreaches)).trans (if_pos (Bool.or_eq_true _ _ ▸ hwide)))

/-- What ends alike from the view at the command ends alike. -/
theorem State.ends_congr {f g : Side → Side} (h : f (s.at_ n d) = g (s.at_ n d)) : s.ends n d f = s.ends n d g :=
  State.onSide_congr (s.elapse n) d (f := fun x => (f x).settle) (g := fun x => (g x).settle) (congrArg Side.settle h)

/-- With no trigger fired before or by it, an operation of a channel is all that happens. -/
theorem State.ends_eq_after {f g : Side → Side} (h : f (s.at_ n d) = g (s.at_ n d)) (hfired : (g (s.at_ n d)).me.fired = []) :
    s.ends n d f = s.after n d g :=
  State.onSide_congr (s.elapse n) d (f := fun x => (f x).settle) (g := g) ((congrArg Side.settle h).trans (Side.settle_of_nil hfired))

/-- A page of the die that is absent or does not answer reads zero. -/
theorem Side.readDie_of_off {x : Side} (h : x.pageOn off = false ∨ pagesOnDie (off / 0x40000) ≤ off % 0x40000 / 0x1000) :
    x.readDie w off = x.emit (.readData off (wordBytes 0)) := by
  have hguard : (!x.pageOn off || decide (pagesOnDie (off / 0x40000) ≤ off % 0x40000 / 0x1000)) = true := by
    rwa [Bool.or_eq_true, Bool.not_eq_true', decide_eq_true_eq]
  exact if_pos hguard

/-- The same on the hub. -/
theorem Side.readHub_of_off {x : Side} (h : x.hubPageOn off = false ∨ pagesOnHub (off / 0x40000) ≤ off % 0x40000 / 0x1000) :
    x.readHub w off = x.hemit (.readData off (wordBytes 0)) := by
  have hguard : (!x.hubPageOn off || decide (pagesOnHub (off / 0x40000) ≤ off % 0x40000 / 0x1000)) = true := by
    rwa [Bool.or_eq_true, Bool.not_eq_true', decide_eq_true_eq]
  exact if_pos hguard

/-! ## Writes of the hub -/

/-- While the hub is down its pages do not answer, but for PWR and EVA. -/
theorem Side.hubPageOn_of_down {x : Side} {a : Reg} (hdown : x.hub.down = true) (hpwr : a / 0x40000 ≠ T.PWR)
    (heva : a / 0x40000 ≠ T.EVA) : x.hubPageOn a = false := by
  rw [Side.hubPageOn, hdown, beq_eq_false_iff_ne.mpr hpwr, beq_eq_false_iff_ne.mpr heva]; rfl

/-- A write of a register of a hub page that does not answer. -/
theorem onHubReg_of_off {a : Reg} {f : Side → Side} (h : (s.at_ n d).hubPageOn a = false) :
    onHubReg n d w a f s = .next (s.elapse n) := by
  have h' : ((s.elapse n).side d).hubPageOn a = false := h
  simp only [onHubReg, h', Bool.not_false, Bool.or_true, if_true]

theorem headWrite_of_hub_off {o : Nat} {v : Word} {f : State → Host.Outcome State Fault Refusal} (hdown : s.hub.down = true)
    (hpwr : off / 0x40000 ≠ T.PWR) (heva : off / 0x40000 ≠ T.EVA) (h : headWrite n d w true (off / 0x1000) o v = some f) :
    f s = .next (s.elapse n) := by
  have hpage (r : Reg) (hr : r < 0x1000) (g : Nat → Nat → Side → Side) :
      onPage n d w true (off / 0x1000) r g s = .next (s.elapse n) := by
    unfold onPage
    split
    · rfl
    · next t i hnamed =>
      have hti : off / 0x1000 / 64 = t ∧ off / 0x1000 % 64 = i := by
        unfold pageNamed at hnamed
        dsimp only at hnamed
        split_ifs at hnamed
        all_goals
          cases hnamed
          exact ⟨rfl, rfl⟩
      have htype : (headReg t i r : Nat) / 0x40000 = off / 0x40000 := by
        rw [headReg_type (by omega) hr, ← hti.1, Nat.div_div_eq_div_mul]
      have hoff : ((s.elapse n).side d).hubPageOn (headReg t i r) = false :=
        Side.hubPageOn_of_down hdown (htype ▸ hpwr) (htype ▸ heva)
      simp only [hoff, Bool.not_false, Bool.or_true, if_true]
  unfold headWrite at h
  split_ifs at h
  all_goals
    cases h
    exact hpage _ (by decide) _

theorem peerWrite_of_hub_off {t o : Nat} {v : Word} {f : State → Host.Outcome State Fault Refusal} (hdown : s.hub.down = true)
    (h : peerWrite n d w t o v = some f) : f s = .next (s.elapse n) := by
  have hpeer {a : Reg} (ha : a / 0x40000 = T.HUB_PEER) : (s.at_ n d).hubPageOn a = false :=
    Side.hubPageOn_of_down hdown (ha ▸ by decide) (ha ▸ by decide)
  unfold peerWrite at h
  split_ifs at h with hsend hpop hbuffer
  all_goals cases h
  · have hcut : ((s.elapse n).side d).hub.peerCut = true := by
      show (s.hub.down || s.hub.linkLost) = true
      rw [hdown]; rfl
    simp only [execMailboxSend, hcut, Bool.or_true, Bool.true_or, if_true]
  · exact onHubReg_of_off (hpeer (by cases d <;> rfl))
  · simp only [Bool.and_eq_true, decide_eq_true_eq] at hbuffer
    have hd : d.die < 2 := by cases d <;> decide
    have hoff : ((s.elapse n).side d).hubPageOn (T.HUB_PEER * 0x40000 + o) = false :=
      hpeer (show (0x23 * 0x40000 + o) / 0x40000 = 0x23 by omega)
    simp only [mailboxBuffer, hoff, Bool.not_false, Bool.or_true, if_true]

/-- A write where the hub has no page, or where its page does not answer. -/
theorem writeHub_of_off {v : Word} (h : s.hub.down = true ∧ off / 0x40000 ≠ T.PWR ∧ off / 0x40000 ≠ T.EVA ∨
    pagesOnHub (off / 0x40000) ≤ off % 0x40000 / 0x1000) : writeHub n d w off v s = .next (s.elapse n) := by
  unfold writeHub
  dsimp only
  split
  · rfl
  · next hguard =>
    rw [Bool.or_eq_true, decide_eq_true_eq, not_or] at hguard
    obtain ⟨hdown, hpwr, heva⟩ := h.resolve_right hguard.1
    split
    · next f hf =>
      rcases Option.or_eq_some_iff.mp hf with hf | ⟨-, hf⟩
      · exact headWrite_of_hub_off hdown hpwr heva hf
      · exact peerWrite_of_hub_off hdown hf
    · have hoff : ((s.elapse n).side d).hubPageOn off = false := Side.hubPageOn_of_down hdown hpwr heva
      simp only [hoff, Bool.not_false, Bool.or_true, if_true]

end

/-- Settles O53: where the page is absent or does not answer, a read gives zero and a write reaches no register. -/
theorem absentPagesReadZero : Obligations.AbsentPagesReadZero := by
  unfold Obligations.AbsentPagesReadZero
  intro s n d w off v hoff hfired
  have haligned : ¬(off % 4 != 0) = true := by rw [hoff]; decide
  refine ⟨fun habsent => ?die, fun habsent => ⟨fun hreaches hwide => ?readHub, ?writeHub⟩⟩
  case die =>
    have hplace : (s.at_ n d).pageOn off = false ∨ pagesOnDie (off / 0x40000) ≤ off % 0x40000 / 0x1000 := by
      rw [← or_assoc] at habsent
      refine habsent.imp (fun h => Bool.and_eq_false_iff.mpr (h.imp (fun hphase => ?_) id)) id
      rw [Side.live, State.at_me, Chan.elapse_rst]
      exact beq_eq_false_iff_ne.mpr hphase
    refine ⟨fun hreaches hwide => (exec_readDie hoff hreaches hwide).trans ?_, (if_neg haligned).trans ?_⟩
    · exact congrArg _ (State.ends_eq_after (Side.readDie_of_off hplace) hfired)
    · exact hplace.elim (writeDie_of_off hfired) fun hpage => writeDie_of_absent (.inl hpage)
  case readHub =>
    have hplace : (s.at_ n d).hubPageOn off = false ∨ pagesOnHub (off / 0x40000) ≤ off % 0x40000 / 0x1000 :=
      habsent.imp_left fun ⟨hdown, hpwr, heva⟩ => Side.hubPageOn_of_down hdown hpwr heva
    refine (exec_readHub hoff hreaches (.inl hwide)).trans ?_
    exact congrArg _ (State.ends_eq_after (Side.readHub_of_off hplace) hfired)
  case writeHub => exact (if_neg haligned).trans (writeHub_of_off habsent)

end Sys2Proof.Machine
end

section
/-!
SUPPORT. Writes that WORLD or LOCK refuses, and how they are counted (R640, R871, R873).
-/

namespace Sys2Proof.Machine

section
variable (x : Side)

/-- A refused write of a physical function counts once in OUT_OF_WINDOW, whichever channel's function it is. -/
theorem Side.denied_pf_of_lt {c : Ch} (h : x.hrdN (Ct.IOV_OUT_OF_WINDOW.reg.inst (17 * c.die)) < 0xFFFFFFFF) :
    x.denied (.pf c) = x.hwrN (Ct.IOV_OUT_OF_WINDOW.reg.inst (17 * c.die)) (x.hrdN (Ct.IOV_OUT_OF_WINDOW.reg.inst (17 * c.die)) + 1) := by
  have hmax : x.hatMax Ct.IOV_OUT_OF_WINDOW (17 * c.die) = false := decide_eq_false (Nat.not_le.mpr h)
  unfold Side.denied
  dsimp only
  split
  · exact x.hcount_of_lt 0 h
  · simp only [hmax, Side.hbump, Bool.false_eq_true, if_false]

/-- At its maximum OUT_OF_WINDOW stands; CNT_OVF and EVT_RAW show the lost count. -/
theorem Side.denied_pf_of_max {c : Ch} (h : 0xFFFFFFFF ≤ x.hrdN (Ct.IOV_OUT_OF_WINDOW.reg.inst (17 * c.die))) :
    (x.denied (.pf c)).hrd (Ct.IOV_OUT_OF_WINDOW.reg.inst (17 * c.die)) = x.hrd (Ct.IOV_OUT_OF_WINDOW.reg.inst (17 * c.die)) ∧
      bit ((x.denied (.pf c)).hrd (headReg T.HUB_IOV (17 * c.die) Reg.CNT_OVF)) Ct.IOV_OUT_OF_WINDOW.n = true ∧
      bit ((x.denied (.pf c)).hrd (headReg T.HUB_IOV (17 * c.die) Reg.EVT_RAW)) (cntSatBit T.HUB_IOV) = true := by
  have hdie : 17 * c.die < 64 := by cases c <;> decide
  have hmax : x.hatMax Ct.IOV_OUT_OF_WINDOW (17 * c.die) = true := decide_eq_true h
  unfold Side.denied
  dsimp only
  split
  · obtain ⟨hovf, hraw, hcount⟩ := x.hcount_lost (c := Ct.IOV_OUT_OF_WINDOW) 0 (by decide) hdie (by decide) h
    exact ⟨hcount, hovf, hraw⟩
  · have hplace := ctReg_offset Ct.IOV_OUT_OF_WINDOW (17 * c.die) (by decide)
    have hcount_raw : Ct.IOV_OUT_OF_WINDOW.reg.inst (17 * c.die) ≠ headReg T.HUB_IOV (17 * c.die) Reg.EVT_RAW :=
      fun e => absurd (raw_offset T.HUB_IOV (17 * c.die)) (Nat.not_lt.mpr (e ▸ hplace))
    have hcount_ovf : Ct.IOV_OUT_OF_WINDOW.reg.inst (17 * c.die) ≠ headReg T.HUB_IOV (17 * c.die) Reg.CNT_OVF :=
      fun e => absurd (ovf_offset T.HUB_IOV (17 * c.die)) (Nat.not_lt.mpr (e ▸ hplace))
    have hovf_raw : headReg T.HUB_IOV (17 * c.die) Reg.CNT_OVF ≠ headReg T.HUB_IOV (17 * c.die) Reg.EVT_RAW :=
      fun e => absurd (Nat.add_left_cancel e) (by decide)
    rw [Side.hrd_hwr_ne _ _ hcount_raw, Side.hrd_hwr_ne _ _ hovf_raw, Side.hrd_hwr_same, Side.hbump, if_pos hmax,
      Side.hrd_hwr_ne _ _ hcount_ovf, Side.hrd_hwr_same]
    exact ⟨rfl, bit_setBit_same _ (by decide), bit_setBit_same _ (cntSatBit_lt _)⟩

/-- OWNER_DENIED is no counter of deliveries. -/
theorem ownerDenied_fixed : ¬DeliveryCount (Ct.EVA_OWNER_DENIED.reg.inst 0) := by
  rintro ⟨c, hc, h⟩
  exact (by decide : ∀ c ∈ deliveryCts, Ct.EVA_OWNER_DENIED.reg.inst 0 ≠ c.reg.inst 0) c hc h

/-- What a refused write of another initiator leaves in OWNER_DENIED. -/
theorem Side.rd_countEva_ownerDenied : (x.countEva Ct.EVA_OWNER_DENIED).rdN (Ct.EVA_OWNER_DENIED.reg.inst 0) =
    min 0xFFFFFFFF (x.rdN (Ct.EVA_OWNER_DENIED.reg.inst 0) + 1) := by
  have hplace := ctReg_offset Ct.EVA_OWNER_DENIED 0 (by decide)
  by_cases h : 0xFFFFFFFF ≤ x.rdN (Ct.EVA_OWNER_DENIED.reg.inst 0)
  · have hat : x.atMax Ct.EVA_OWNER_DENIED 0 = true := decide_eq_true h
    have hword : x.rdN (Ct.EVA_OWNER_DENIED.reg.inst 0) < 2 ^ 32 := (x.rd (Ct.EVA_OWNER_DENIED.reg.inst 0)).isLt
    have htells : x.Tells (x.countEva Ct.EVA_OWNER_DENIED) := by
      simp only [Side.countEva, Side.bump, hat, if_true]
      exact (Side.Tells.of_wr_setBit x _ (ovf_offset _ _)).trans
        (Side.raiseBy_tells' (Side.eqLost_tells bump_tellingCount) bump_tellingCount _ _ _ _)
    rw [Side.rdN, htells.rd.fixed _ hplace ownerDenied_fixed, ← Side.rdN]
    omega
  · have hat : x.atMax Ct.EVA_OWNER_DENIED 0 = false := decide_eq_false h
    have hcount : x.countEva Ct.EVA_OWNER_DENIED =
        x.wrN (Ct.EVA_OWNER_DENIED.reg.inst 0) (x.rdN (Ct.EVA_OWNER_DENIED.reg.inst 0) + 1) := by
      simp only [Side.countEva, Side.bump, hat, Bool.false_eq_true, if_false]
    rw [hcount, x.rdN_wrN_succ (Nat.lt_of_not_le h), min_eq_right (by omega)]

/-- A refused write of another initiator is counted and raised. -/
theorem Side.denied_of_not_pf {w : Init} (h : ∀ c : Ch, w ≠ .pf c) :
    x.denied w = (x.countEva Ct.EVA_OWNER_DENIED).raise Ev.EVA_OWNER_DENIED := by
  cases w with
  | pf c => exact absurd rfl (h c)
  | pair p | hatbox | vf c v => rfl

end

/-- Settles O58: the write accesses its place, where WORLD or LOCK refuses it; how it is counted follows from the initiator. -/
theorem refusedWritesCount : Obligations.RefusedWritesCount := by
  unfold Obligations.RefusedWritesCount
  refine ⟨fun s n d w off v hoff hpage hrow howner hslot hdoor hcfg hseal hcbb hon hmay => ?refused,
    fun x w => ⟨fun a hraw hovf hcount hrm => ?registers, fun c hc => ?function, fun hother => ?owner⟩⟩
  case refused =>
    have haligned : ¬(off % 4 != 0) = true := by rw [hoff]; decide
    have hsem : ¬(Reg.CBB_SEM ≤ off ∧ off < Reg.CBB_SEM + 16) := by
      rintro ⟨hlow, hhigh⟩
      have hlow' : 0x440050 ≤ off := hlow
      have hhigh' : off < 0x440060 := hhigh
      exact hcbb (show off / 0x40000 = 0x11 by omega)
    obtain ⟨g, hg⟩ := writeDie_accesses (n := n) (d := d) (w := w) (s := s) (v := v) hpage hrow howner hslot hdoor hcfg hseal hsem
    have hl : (s.at_ n d).live = true := (Bool.and_eq_true _ _ ▸ hon : _ ∧ _).1
    exact (if_neg haligned).trans (hg.trans (onLive_ends hl (Side.access_of_not_may hon hmay g)))
  case registers =>
    have hplain : ¬Counted a := by
      rintro (h | h | h | h)
      · exact hraw h
      · exact hovf h
      · exact hrm h
      · exact absurd hcount (Nat.not_lt.mpr h)
    exact ⟨(x.denied_quiet w).rd a hplain, (x.denied_quiet w).hrd a hplain⟩
  case function =>
    subst hc
    have hword : x.hrdN (Ct.IOV_OUT_OF_WINDOW.reg.inst (17 * c.die)) < 2 ^ 32 := (x.hrd _).isLt
    by_cases h : 0xFFFFFFFF ≤ x.hrdN (Ct.IOV_OUT_OF_WINDOW.reg.inst (17 * c.die))
    · obtain ⟨hcount, hovf, hraw⟩ := x.denied_pf_of_max h
      refine ⟨?_, fun _ => ⟨hovf, hraw⟩⟩
      rw [Side.hrdN, hcount, ← Side.hrdN]
      omega
    · refine ⟨?_, fun hmax => absurd hmax (by omega)⟩
      rw [x.denied_pf_of_lt (Nat.lt_of_not_le h), x.hrdN_hwrN_succ (Nat.lt_of_not_le h), min_eq_right (by omega)]
  case owner =>
    rw [x.denied_of_not_pf hother]
    refine ⟨Side.raw_raise _ Ev.EVA_OWNER_DENIED 0 (by decide), ?_⟩
    rw [← x.rd_countEva_ownerDenied]
    have hplace := ctReg_offset Ct.EVA_OWNER_DENIED 0 (by decide)
    exact congrArg BitVec.toNat ((Side.tells_raise _ _ _).rd.fixed _ hplace ownerDenied_fixed)

end Sys2Proof.Machine
end

section
/-!
SUPPORT. Register reads with the capture of high words, and writes of plain registers (R861 to R864, R871, R873).
-/

namespace Sys2Proof.Machine

/-! ## Captures -/

/-- A table finds first what was written at a key. -/
theorem Tbl.find?_put {α : Type} (t : Tbl α) (k : Nat) (v : α) : (t.put k v).find? (fun e => e.1 == k) = some (k, v) := by
  induction t with
  | nil => simp [Tbl.put]
  | cons e t ih =>
    obtain ⟨j, u⟩ := e
    simp only [Tbl.put]
    split
    · simp
    · split
      · simp
      · next hj _ => rw [List.find?_cons_of_neg (by simpa using hj)]; exact ih

section
variable {d : Ch} {w : Init} {a : Nat} {v hi : Word} {c : Tbl Word}

/-- A place that is no word of a captured pair reads its value. -/
theorem capRead_plain (hlow : isLow a = false) (hhigh : 4 ≤ a % 0x1000 → isLow (a - 4) = false) : capRead d w a v hi c = (v, c) := by
  have hguard : (decide (a % 0x1000 ≥ 4) && isLow (a - 4)) = false := by
    rw [Bool.and_eq_false_iff, decide_eq_false_iff_not]
    exact not_or_of_imp hhigh
  simp only [capRead, hlow, hguard, Bool.false_eq_true, if_false]

/-- A low word reads its value and captures the high word. -/
theorem capRead_low (hlow : isLow a = true) : capRead d w a v hi c = (v, c.put (captureKey d w a) hi) := if_pos hlow

/-- The high word then reads what was captured. -/
theorem capRead_high (hlow : isLow a = true) (hnext : isLow (a + 4) = false) (hpage : a % 0x1000 < 0xFF8) (v hi hi' : Word) :
    (capRead d w (a + 4) v hi (c.put (captureKey d w a) hi')).1 = hi' := by
  have hplace : 4 ≤ (a + 4) % 0x1000 := by omega
  have hguard : (decide ((a + 4) % 0x1000 ≥ 4) && isLow (a + 4 - 4)) = true := by
    rw [Nat.add_sub_cancel, hlow, decide_eq_true hplace]; rfl
  simp only [capRead, hnext, hguard, Bool.false_eq_true, if_false, if_true]
  rw [Nat.add_sub_cancel, Tbl.find?_put]

end

/-! ## Reads of the die -/

section
variable {x : Side} {w : Init} {a : Nat}

/-- What an initiator's read of a register of the die does: the capture, and the word shown. -/
def Side.showRead (x : Side) (w : Init) (a : Reg) : Side :=
  let r := capRead x.d w a (x.regRead a) (x.regRead (a + 4)) x.me.capture
  ({ x with me := { x.me with capture := r.2 } }).emit (.readData a (wordBytes r.1))

theorem Side.readDie_of_on (hon : x.pageOn a = true) (hpage : a % 0x40000 / 0x1000 < pagesOnDie (a / 0x40000)) (hslot : isSlot a = false)
    (hsem : ¬(Reg.CBB_SEM ≤ a ∧ a < Reg.CBB_SEM + 16)) : x.readDie w a = x.showRead w a := by
  have hsem' : (decide (Reg.CBB_SEM ≤ a) && decide (a < Reg.CBB_SEM + 16)) = false := by
    rw [← Bool.not_eq_true, Bool.and_eq_true, decide_eq_true_eq, decide_eq_true_eq]; exact hsem
  simp only [Side.readDie, hon, Nat.not_le.mpr hpage, hslot, hsem', Bool.not_true, decide_false, Bool.or_self, Bool.false_eq_true, if_false]
  rfl

theorem Side.showRead_plain (hlow : isLow a = false) (hhigh : 4 ≤ a % 0x1000 → isLow (a - 4) = false) :
    x.showRead w a = x.emit (.readData a (wordBytes (x.regRead a))) := by
  unfold Side.showRead
  rw [capRead_plain hlow hhigh]

/-- An initiator of the map reaches the registers of a die that runs. -/
theorem Side.reachesHub_of_live (h : x.live = true) : x.reachesHub w = true := by
  cases w with
  | pf c | vf c k => rfl
  | pair p | hatbox => exact h

end

/-! ## Two reads of a pair -/

section
variable {n : Now} {d : Ch} {s : State}

/-- What a channel's view holds after an operation that fires nothing. -/
theorem State.side_ends {g : Side → Side} (hd : (g (s.at_ n d)).d = d) (hfired : (g (s.at_ n d)).me.fired = []) :
    (s.ends n d g).side d = g (s.at_ n d) := by
  rw [State.ends_eq_after (f := g) (g := g) rfl hfired]
  exact State.side_onSide (s.elapse n) d g hd

/-- Time moves no capture, and nothing that is shown. -/
theorem Chan.elapse_capture (c : Chan) (k : Nat) : (c.elapse k).capture = c.capture := by
  unfold Chan.elapse; split <;> rfl
theorem Chan.elapse_out (c : Chan) (k : Nat) : (c.elapse k).out = c.out := by
  unfold Chan.elapse; split <;> rfl

/-- The words after a low word of a pair lie on its page. -/
theorem next_place {off : Nat} (h4 : off % 4 = 0) (h : off % 0x1000 < 0xFF8) :
    (off + 4) / 0x40000 = off / 0x40000 ∧ (off + 4) % 0x40000 / 0x1000 = off % 0x40000 / 0x1000 ∧ (off + 4) % 4 = 0 := by omega

/-- A low word is none of the bridge's semaphores, nor is the word after it. -/
theorem next_not_sem {off : Nat} (hlow : isLow off = true) : ¬(Reg.CBB_SEM ≤ off + 4 ∧ off + 4 < Reg.CBB_SEM + 16) := by
  rintro ⟨h1, h2⟩
  have h1' : 0x440050 ≤ off + 4 := h1
  have h2' : off + 4 < 0x440060 := h2
  have htype : off / 0x40000 = 0x11 := by omega
  have hnone : ∀ i, lowWords 0x11 i = [] := fun _ => rfl
  rw [isLow, htype, hnone] at hlow
  exact Bool.false_ne_true hlow

/-- The read of a low word is followed by one of its high word, which gives what the high word was then. -/
theorem exec_read_pair {w : Init} {off : Nat} (hoff : off % 4 = 0) (hl : (s.at_ n d).live = true) (hwide : w.wide = true)
    (hon : (s.at_ n d).pageOn off = true) (hpage : off % 0x40000 / 0x1000 < pagesOnDie (off / 0x40000)) (hslot : isSlot off = false)
    (hsem : ¬(Reg.CBB_SEM ≤ off ∧ off < Reg.CBB_SEM + 16)) (hlow : isLow off = true) (hroom : off % 0x1000 < 0xFF8)
    (hnext : isLow (off + 4) = false) (hslot' : isSlot (off + 4) = false) (hfired : (s.at_ n d).me.fired = []) :
    ∃ t, exec (.lowWordRead n d w .die off) s = .next t ∧
      (t.side d).me.out = .readData off (wordBytes ((s.at_ n d).regRead off)) :: (s.at_ n d).me.out ∧
      ∀ m : Now, ∃ u, exec (.lowWordRead m d w .die (off + 4)) t = .next u ∧
        (u.side d).me.out = .readData (off + 4) (wordBytes ((s.at_ n d).regRead (off + 4))) :: (t.side d).me.out := by
  let y := (s.at_ n d).showRead w off
  have hy : y = ({ s.at_ n d with me := { (s.at_ n d).me with
      capture := (s.at_ n d).me.capture.put (captureKey d w off) ((s.at_ n d).regRead (off + 4)) } }).emit
        (.readData off (wordBytes ((s.at_ n d).regRead off))) := by
    show (s.at_ n d).showRead w off = _
    unfold Side.showRead
    rw [capRead_low hlow]; rfl
  have hread : exec (.lowWordRead n d w .die off) s = .next (s.ends n d fun x => x.showRead w off) :=
    (exec_readDie hoff (Side.reachesHub_of_live hl) hwide).trans
      (congrArg _ (State.ends_congr (Side.readDie_of_on hon hpage hslot hsem)))
  have hside : (s.ends n d fun x => x.showRead w off).side d = y := State.side_ends rfl hfired
  refine ⟨_, hread, by rw [hside, hy]; rfl, fun m => ?_⟩
  generalize ht : (s.ends n d fun x => x.showRead w off) = t at hside
  obtain ⟨htype, hinst, haligned⟩ := next_place hoff hroom
  have hme : (t.at_ m d).me = y.me.elapse (m.on d) := by rw [State.at_me, ← hside]; rfl
  have hfired' : (t.at_ m d).me.fired = [] := by rw [hme, Chan.elapse_fired]; exact hfired
  have hrd : ∀ a, (t.at_ m d).rd a = (s.at_ n d).rd a := fun a => by
    simp only [Side.rd, hme, Chan.elapse_regs]; rfl
  have hlive : (t.at_ m d).live = true := by
    rw [Side.live, hme, Chan.elapse_rst]; exact hl
  have hon' : (t.at_ m d).pageOn (off + 4) = true := by
    rw [Side.pageOn, hlive, htype, hinst, Side.domOn, Side.flag, hrd]
    exact (Bool.and_eq_true _ _ ▸ hon : _ ∧ _).2
  have hread' : exec (.lowWordRead m d w .die (off + 4)) t = .next (t.ends m d fun x => x.showRead w (off + 4)) :=
    (exec_readDie haligned (Side.reachesHub_of_live hlive) hwide).trans
      (congrArg _ (State.ends_congr (Side.readDie_of_on hon' (by rw [hinst, htype]; exact hpage) hslot' (next_not_sem hlow))))
  refine ⟨_, hread', ?_⟩
  rw [State.side_ends rfl hfired']
  have hcapture : (t.at_ m d).me.capture = (s.at_ n d).me.capture.put (captureKey d w off) ((s.at_ n d).regRead (off + 4)) := by
    rw [hme, Chan.elapse_capture, hy]; rfl
  have hout : (t.at_ m d).me.out = (t.side d).me.out := by rw [hme, Chan.elapse_out, hside]
  show Output.readData (off + 4) (wordBytes (capRead d w (off + 4) _ _ (t.at_ m d).me.capture).1) :: (t.at_ m d).me.out = _
  rw [hcapture, capRead_high hlow hnext hroom, hout]

end

/-! ## Plain registers -/

/-- The blocks of plain registers that O46 speaks of. -/
abbrev plainBlocks : List Nat := [T.SNS, T.TE, T.PSQ, T.PDMA, T.GLV, T.CLK, T.EVA]

/-- The blocks with registers that have commands or effects of their own. -/
abbrev ownBlocks : List Nat := [T.TIME, T.CAD, T.FUS, T.BSQ, T.YARD, T.LOFT, T.BRDL, T.GFX, T.DPY, T.NET, T.CANG, T.CBB, T.SAFE, T.HBX,
  T.PWR, T.REC]

/-- None of the former is one of the latter. -/
theorem plain_ne_own {t : Nat} (h : plainBlocks.contains t = true) : ∀ k ∈ ownBlocks, t ≠ k :=
  (by decide : ∀ t ∈ plainBlocks, ∀ k ∈ ownBlocks, t ≠ k) t (List.contains_iff_mem.mp h)

/-- Registers of different blocks are different. -/
theorem ne_of_block {a b k : Nat} (ha : a / 0x40000 ≠ k) (hb : b / 0x40000 = k) : a ≠ b := by
  rintro rfl; exact ha hb

/-- The head of a page lies below 0x40. -/
theorem headWrite_none {n : Now} {d : Ch} {w : Init} {hub : Bool} {page o : Nat} {v : Word} (ho : 0x40 ≤ o) :
    headWrite n d w hub page o v = none := by
  have hne : ∀ r ∈ [Reg.BLK_CTRL, Reg.EVT_RAW, Reg.EVT_EN, Reg.EVT_SET, Reg.CNT_OVF, Reg.LOCK], o ≠ r := by
    rintro r hr rfl
    exact absurd ho ((by decide : ∀ r ∈ [Reg.BLK_CTRL, Reg.EVT_RAW, Reg.EVT_EN, Reg.EVT_SET, Reg.CNT_OVF, Reg.LOCK], ¬0x40 ≤ r) o hr)
  simp only [List.forall_mem_cons] at hne
  obtain ⟨hctrl, hraw, hen, hset, hovf, hlock, -⟩ := hne
  simp only [headWrite, hctrl, hraw, hen, hset, hovf, hlock, if_false]

section
variable {n : Now} {d : Ch} {w : Init} {off : Nat} {v : Word}

/-- A plain register has no command of its own. -/
theorem dieCommand_plain (hblock : plainBlocks.contains (off / 0x40000) = true) (ho : 0x40 ≤ off % 0x1000) :
    dieCommand n d w off v = none := by
  have hne := plain_ne_own hblock
  simp only [List.forall_mem_cons] at hne
  obtain ⟨htime, hcad, hfus, -, -, -, hbrdl, -, hdpy, hnet, hcang, hcbb, hsafe, hhbx, hpwr, hrec, -⟩ := hne
  simp only [dieCommand, headWrite_none ho, timeWrite, portWrite, safeWrite, htime, hcad, hfus, hbrdl, hdpy, hnet, hcang, hcbb, hsafe,
    hhbx, hpwr, hrec, if_false, Option.or_none]

/-- No mailbox slot lies outside the Hatbox's page. -/
theorem isSlot_of_block (h : off / 0x40000 ≠ T.HBX) : isSlot off = false := by
  have hpage : (off / 0x1000 == T.HBX * 64) = false := by
    rw [beq_eq_false_iff_ne]
    intro e
    have e' : off / 0x1000 = 0x14 * 64 := e
    exact h (show off / 0x40000 = 0x14 by omega)
  rw [isSlot, hpage]; rfl

/-- The range that a permitted write of a plain register is held to: PDMA_CFG stores 1 to 64 (log 165). -/
def plainValue (off : Nat) (v : Word) : Word :=
  if off / 0x40000 = T.PDMA ∧ off % 0x1000 = 0x44 then setFld v 6 0 (max 1 (min 64 (fld v 6 0))) else v

/-- A permitted write of a plain register stores it. -/
theorem Side.writeReg_plain (x : Side) (hblock : plainBlocks.contains (off / 0x40000) = true)
    (hacc : accOf off = some .rw ∨ accOf off = some .rwl) : x.writeReg off v = x.store off (plainValue off v) := by
  have hne := plain_ne_own hblock
  simp only [List.forall_mem_cons] at hne
  obtain ⟨htime, hcad, hfus, hbsq, hyard, hloft, hbrdl, hgfx, hdpy, hnet, hcang, hcbb, hsafe, hhbx, hpwr, hrec, -⟩ := hne
  have hwritable : (!((accOf off == some .rw) || (accOf off == some .rwl))) = false := by
    rcases hacc with h | h <;> rw [h] <;> rfl
  have hgrid : off ≠ Reg.CAD_GRID_LIMIT := ne_of_block hcad rfl
  have hyardCfg : off ≠ Reg.YARD_SCRUB_CFG := ne_of_block hyard rfl
  have hloftCfg : off ≠ Reg.LOFT_SCRUB_CFG := ne_of_block hloft rfl
  have hsafeCfg : off ≠ Reg.SAFE_CFG := ne_of_block hsafe rfl
  have hpwrCfg : off ≠ Reg.PWR_TH_CFG := ne_of_block hpwr rfl
  simp only [Side.writeReg, plainValue, hwritable, htime, hgrid, hbsq, hyardCfg, hloftCfg, hbrdl, hgfx, hdpy, hcang, hcbb, hsafeCfg, hsafe,
    hpwrCfg, decide_false, Bool.false_and, Bool.false_eq_true, if_false, Bool.and_eq_true, decide_eq_true_eq]
  split <;> rfl

/-- A write of a plain register is a guarded store of it. -/
theorem writeDie_plain {s : State} (hpage : off % 0x40000 / 0x1000 < pagesOnDie (off / 0x40000))
    (hacc : accOf off = some .rw ∨ accOf off = some .rwl) (ho : 0x40 ≤ off % 0x1000)
    (hblock : plainBlocks.contains (off / 0x40000) = true) (hl : (s.at_ n d).live = true) (hmay : (s.at_ n d).may w off = true) :
    writeDie n d w off v s = .next (s.ends n d fun x => (x.store off (plainValue off v)).drive (off / 0x40000)) := by
  have hne := plain_ne_own hblock
  have hrow : (rowAt off).isSome = true := by
    unfold accOf at hacc
    cases h : rowAt off with
    | none => rw [h] at hacc; exact absurd hacc (by decide)
    | some r => rfl
  have howner : off % 0x1000 ≠ Reg.OWNER := fun e => absurd ho (by rw [e]; decide)
  have hpin : off % 0x1000 ≠ Reg.EVT_PIN := fun e => absurd ho (by rw [e]; decide)
  have hloft : off / 0x40000 ≠ 0x0B := hne T.LOFT (by decide)
  have hcfg : off ≠ Reg.LOFT_CFG := ne_of_block hloft rfl
  have hseal : (decide (Reg.LOFT_SEAL ≤ off) && decide (off < Reg.LOFT_SEAL + 32) && w != .hatbox) = false := by
    have hrange : ¬(0x2C0080 ≤ off ∧ off < 0x2C0080 + 32) := by omega
    rw [Bool.and_eq_false_iff, ← Bool.not_eq_true, Bool.and_eq_true, decide_eq_true_eq, decide_eq_true_eq]
    exact .inl hrange
  have hslot : isSlot off = false := isSlot_of_block (hne T.HBX (by decide))
  rw [writeDie_of_other ⟨hpage, .inl hrow⟩ (dieCommand_plain hblock ho)]
  refine onLive_ends hl ?_
  simp only [Side.writeOther, howner, hcfg, hseal, hslot, hpin, Bool.false_eq_true, if_false]
  rw [Side.access_of_may hmay, Side.writeReg_plain _ hblock hacc]

/-- The receive queue's head lies on a HUB_IOV page. -/
theorem rxqHead_block (c : Ch) : (Reg.RXQ_HEAD.inst (17 * c.die) : Nat) / 0x40000 = T.HUB_IOV := by cases c <;> rfl

/-- A permitted write of a plain register of the PCI Express page stores it. -/
theorem writeHub_plain {s : State} (hpage : off % 0x40000 / 0x1000 < pagesOnHub (off / 0x40000))
    (hacc : accOf off = some .rw ∨ accOf off = some .rwl) (ho : 0x40 ≤ off % 0x1000) (hblock : off / 0x40000 = T.HUB_PCI)
    (hmay : (s.at_ n d).hmay w off = true) : writeHub n d w off v s = .next (s.ends n d fun x => x.hstore off v) := by
  simp only [Side.hmay, Bool.and_eq_true] at hmay
  obtain ⟨⟨hreaches, hon⟩, hpermits⟩ := hmay
  have hreaches' : ((s.elapse n).side d).reachesHub w = true := hreaches
  have hon' : ((s.elapse n).side d).hubPageOn off = true := hon
  have hpermits' : ((s.elapse n).side d).hpermits w off = true := hpermits
  have hrow : (rowAt off).isNone = false := by
    unfold accOf at hacc
    cases h : rowAt off with
    | none => rw [h] at hacc; exact absurd hacc (by decide)
    | some r => rfl
  have howner : off % 0x1000 ≠ Reg.OWNER := fun e => absurd ho (by rw [e]; decide)
  have hpin : off % 0x1000 ≠ Reg.EVT_PIN := fun e => absurd ho (by rw [e]; decide)
  have hhead : rxqHead d w off = false := by
    have hiov : (Reg.RXQ_HEAD.inst (17 * d.die) : Nat) / 0x40000 = T.HUB_IOV := rxqHead_block d
    have hother : off / 0x40000 ≠ T.HUB_IOV := by rw [hblock]; decide
    have hne : off ≠ Reg.RXQ_HEAD.inst (17 * d.die) := ne_of_block hother hiov
    rw [rxqHead, beq_eq_false_iff_ne.mpr hne, Bool.and_false]
  have hpeer : T.HUB_PCI ≠ T.HUB_PEER := by decide
  have hpwr : T.HUB_PCI ≠ T.PWR := by decide
  have hiov : T.HUB_PCI ≠ T.HUB_IOV := by decide
  have hshed : T.HUB_PCI ≠ T.HUB_SHED := by decide
  have hpages : pagesOnHub T.HUB_PCI ≤ off % 0x40000 / 0x1000 ↔ False := iff_false_intro (Nat.not_le.mpr (hblock ▸ hpage))
  have hstores : (decide (accOf off = some .rw) || decide (accOf off = some .rwl)) = true := by
    rwa [Bool.or_eq_true, decide_eq_true_eq, decide_eq_true_eq]
  have hwritten (x : Side) (i : Nat) : x.writeHubReg T.HUB_PCI i off v = x.hstore off v := by
    simp only [Side.writeHubReg, hpin, hiov, hshed, hstores, decide_false, Bool.false_and, Bool.false_eq_true, if_false, if_true]
  have hside : hubSide d T.HUB_PCI (off % 0x40000 / 0x1000) = d := by simp only [hubSide, hiov, hshed, if_false]
  unfold writeHub
  simp only [hblock, hpages, hrow, headWrite_none ho, peerWrite, hpeer, hreaches', hon', howner, hhead, hpermits', hpwr,
    hwritten, hside, decide_false, Bool.false_and, Bool.not_true, Bool.or_self, Bool.false_eq_true, if_false, Option.or_none]
  rfl

end

/-- Settles O46: a read shows its word, a low word's read captures the high word; a write of a place with a command of its own is
that command, one of a plain register a guarded store (that PDMA_CFG is held to 1 to 64, R240, is log 165, a choice of the model). -/
theorem registerAccessesComplete : Obligations.RegisterAccessesComplete := by
  unfold Obligations.RegisterAccessesComplete
  intro s n d w off v
  have hwrite (h4 : off % 4 = 0) : exec (.registerWrite n d w .die off v) s = writeDie n d w off v s :=
    if_neg (by rw [h4]; decide)
  refine ⟨fun h4 hl hwide hon hpage hslot hsem => ⟨fun hlow hhigh => ?word, fun hlow hroom hnext hslot' hfired => ?pair⟩,
    fun h4 hreaches => ⟨fun hwide => exec_readDie h4 hreaches hwide, fun hmay => exec_readHub h4 hreaches hmay, fun hw hup => ?rmRead⟩,
    fun h4 hpage hacc ho hblock hl hmay => ⟨fun hpdma ho' => ?clamped, fun hplain => ?stored, ?reads, fun a ha => ?kept⟩,
    fun h4 hpage hacc ho hblock hmay => ?hubStored, fun h4 hpage hrow => ?commands, fun hw hup h4 => ?rmWrite,
    fun sp h4 => ?misaligned, fun hrow hslot => ?absent⟩
  case word =>
    refine (exec_readDie h4 (Side.reachesHub_of_live hl) hwide).trans (congrArg _ (State.ends_congr ?_))
    exact (Side.readDie_of_on hon hpage hslot hsem).trans (Side.showRead_plain hlow hhigh)
  case pair => exact exec_read_pair h4 hl hwide hon hpage hslot hsem hlow hroom hnext hslot' hfired
  case rmRead =>
    subst hw
    exact onAny_ends ((if_neg (read_guard h4 hreaches)).trans (if_pos (by simp [hup])))
  case clamped =>
    refine (hwrite h4).trans ((writeDie_plain hpage hacc ho hblock hl hmay).trans ?_)
    rw [plainValue, if_pos ⟨hpdma, ho'⟩]
  case stored =>
    refine (hwrite h4).trans ((writeDie_plain hpage hacc ho hblock hl hmay).trans ?_)
    rw [plainValue, if_neg hplain]
  case reads => exact Side.rd_wr_same _ _ _
  case kept => exact Side.rd_wr_ne _ _ ha
  case hubStored => exact (if_neg (by rw [h4]; decide)).trans (writeHub_plain hpage hacc ho hblock hmay)
  case commands =>
    have hcommand {f : State → Host.Outcome State Fault Refusal}
        (h : headWrite n d w false (off / 0x1000) (off % 0x1000) v = some f) : exec (.registerWrite n d w .die off v) s = f s :=
      (hwrite h4).trans (writeDie_of_command ⟨hpage, .inl hrow⟩ (by rw [dieCommand, h, Option.some_or]))
    refine ⟨fun h => hcommand (by rw [h]; rfl), fun h => hcommand (by rw [h]; rfl), fun h => hcommand (by rw [h]; rfl),
      fun h => hcommand (by rw [h]; rfl), fun f h => hcommand h, fun hhead htime hport hsafe hl => ?_⟩
    have hnone : dieCommand n d w off v = none := by
      rw [Option.isNone_iff_eq_none] at htime hport hsafe
      simp only [dieCommand, hhead, htime, hport, hsafe, Option.or_none]
    exact (hwrite h4).trans ((writeDie_of_other ⟨hpage, .inl hrow⟩ hnone).trans (onLive_ends hl rfl))
  case rmWrite =>
    subst hw
    exact (if_neg (by rw [h4]; decide)).trans (onAny_ends (if_pos (by simp [hup])))
  case misaligned => exact if_pos (by simpa using h4)
  case absent =>
    by_cases h4 : off % 4 = 0
    · exact (hwrite h4).trans (writeDie_of_absent (.inr ⟨hrow, hslot⟩))
    · exact if_pos (by simpa using h4)

end Sys2Proof.Machine
end
